-- ==== Sys2Proof/Word.lean ====
section
/-! DEFINITION. The word types of the KM2 and paired values (spec/00_scope.md R3, R4, R7, R14). -/

namespace Sys2Proof

/-- One byte. -/
abbrev Byte := BitVec 8

/-- One 32-bit register word (R7). -/
abbrev Word := BitVec 32

/-- A value stored together with what should be its bitwise complement (R14). -/
structure Paired (w : Nat) where
  v : BitVec w
  n : BitVec w
  deriving DecidableEq, Repr

/-- The intact pair of `x` (R14). -/
def Paired.of {w : Nat} (x : BitVec w) : Paired w := ⟨x, ~~~x⟩

/-- The two halves are complements of one another (R17). -/
def Paired.ok {w : Nat} (p : Paired w) : Bool := p.n == ~~~p.v

/-- The number a pair's value half holds. -/
def Paired.nat {w : Nat} (p : Paired w) : Nat := p.v.toNat

end Sys2Proof
end

