-- ==== Sys2Proof/Operand.lean ====
section
/-! DEFINITION. The operands that commands carry: what arrives from outside the block as one unit
(spec/00_scope.md R15, spec/02_the_tick.md R49, spec/15_fabric_links_and_topology.md R323 to R329,
spec/19_host_and_service_ports.md R407). -/

namespace Sys2Proof

/-- An access path to the control space (R15, R412). -/
inductive Path where
  | bar0 | mgmt | usb
  deriving DecidableEq, Repr

/-- A beacon or echo of R49. -/
structure Beacon where
  echo : Bool
  turnaround : Nat
  rootId : Nat
  hopCount : Nat
  periodUs : Nat
  digest64 : Nat
  tickN : Nat
  tick : Nat
  deriving DecidableEq, Repr

/-- A hello frame (R328); role 3 is a rack switch. `bufs` and `last` are by channel. -/
structure Hello where
  serial : Nat
  dev : Nat
  role : Nat
  port : Nat
  sysid : Nat
  digest64 : Nat
  bufs : List Nat
  last : List Nat
  deriving DecidableEq, Repr

/-- A fabric packet: the fields of its header cell (R329) and its payload. -/
structure Packet where
  typ : Nat
  aux : Nat := 0
  index : Nat := 0
  phase : Nat := 0
  group : Nat := 0
  stage : Nat := 0
  srcRank : Nat := 0
  rank : Nat := 0
  epoch : Nat := 0
  job : Nat := 0
  srcDev : Nat := 0
  dstDev : Nat := 0
  hops : Nat := 0
  data : List Byte := []
  deriving DecidableEq, Repr

/-- What a frame carries. -/
inductive Cell where
  | beacon (b : Beacon)
  | hello (h : Hello)
  /-- a census marker (R325): H, R_s and the count of frames sent -/
  | marker (h rs sent : Nat)
  /-- the header cell of a packet, with the payload cells that follow it counted in it -/
  | packet (p : Packet)
  /-- a lane-out request or its answer (R350): wavelength, whether for a fault; accepted -/
  | laneOut (w : Nat) (fault : Bool)
  | laneReply (w : Nat) (accept : Bool)
  /-- the ident of a circuit (R358): serial, generation, last sequence accepted per channel -/
  | ident (serial gen : Nat) (last : List Nat)
  /-- payload cell `i` of the packet before it -/
  | payload (i : Nat)
  deriving DecidableEq, Repr

/-- The wrapper of a received frame (R322, R323) and the returns that come with it: the next sequence number that
the peer expects of us, credits returned, and whether the peer asks for a replay. -/
structure Frame where
  port : Nat
  vc : Nat
  gen : Nat
  seq : Nat
  crcOk : Bool
  idle : Bool
  ack : Nat
  credits : Nat
  replay : Bool
  deriving DecidableEq, Repr

/-- A RoCE packet (R407). -/
inductive Roce where
  | write (addr rkey : Nat) (bytes : List Byte)
  | read (addr rkey len : Nat)
  /-- a SEND, an atomic or another unsupported opcode -/
  | unsupported
  /-- data of an RDMA READ of ours, by its tag -/
  | response (tag : Nat) (bytes : List Byte)
  | ack
  /-- a NAK of a request of ours -/
  | nak
  /-- a frame of another protocol (R406) -/
  | other
  deriving DecidableEq, Repr

/-- A vote record (R288): the numbers its bytes hold, little-endian. -/
structure Vote where
  step : Nat
  stepN : Nat
  /-- SHA-256 configuration digest -/
  cfg : Nat
  /-- weight digest of the interval -/
  weights : Nat
  /-- tripped drift slots, bit i for slot i -/
  tripped : Nat
  job : Nat
  member : Nat
  status : Nat
  deriving DecidableEq, Repr

/-- What the configuration section of the slot booted supplies (spec/18_bring_up.md R393): none where it supplies
nothing. A peer or sink is its valid bit, UDP port and four address words. -/
structure FlashConfig where
  slew : Option Nat := none
  wakeCap : Option Nat := none
  stagger : Option Nat := none
  idVendor : Option Nat := none
  peers : List (Bool × Nat × List Nat) := []
  sinks : List (Bool × Nat × List Nat) := []
  deriving DecidableEq, Repr

end Sys2Proof
end

