-- ==== Sys2Proof/Syntax.lean ====
section
/-! DEFINITION. The commands the block takes: one constructor per row of spec/opcode_table.json, in the table's order.
Operands: `at_` the core clk of the command, `ms` meter time; `c` a context, `g` a global partition, `n` a logical cluster of it,
`ch` a channel, `p` a port (a path, for the update commands), `e` an optical engine, `q` a queue pair, `f` a host function; `value`
the word written. What the surroundings decide (a read that fails, a temperature, a flash operation) is an operand as well. -/

namespace Sys2Proof

/-- A command. -/
inductive Instr where
  /-- REGISTER_WRITE (R10): A control-space write to a register that has no row of its own acts on its fields
  according to their access codes, and out-of-range or misaligned accesses have no effect. -/
  | registerWrite (p : Path) (width addr value at_ : Nat)
  /-- PAIRED_READ_LATCH (R15): A read of the +0 word of a paired register latches the whole pair for that access path
  for 64 clk. -/
  | pairedReadLatch (p : Path) (addr at_ : Nat)
  /-- PAIRED_WRITE_WORD (R16): A word written to a paired register advances, completes or breaks the pending sequence
  of its path, and the value takes effect on the final complement word. -/
  | pairedWriteWord (p : Path) (addr value at_ : Nat)
  /-- WELT_LINK_DOWN (R24): A Welt link goes out of service; its traffic is rerouted or partitions are fenced, and
  tick fit is rechecked. -/
  | weltLinkDown (l : Nat)
  /-- TICK_EDGE (R48): At each tick edge the tick number is incremented, overrun is checked, segments are released and
  beacons are sent. -/
  | tickEdge (at_ work room : Nat) (bad ext : Bool)
  /-- BEACON_RECEIVE (R51): An arriving beacon is checked, accepted or discarded, and the alignment error is computed.
  -/
  | beaconReceive (port : Nat) (b : Beacon) (at_ : Nat)
  /-- ECHO_SEND (R50): Once every 256 ticks the device returns a received beacon upstream as an echo. -/
  | echoSend (at_ : Nat)
  /-- ECHO_RECEIVE (R50): The upstream device measures the round trip of an echo and returns the one-way delay. -/
  | echoReceive (port : Nat) (b : Beacon) (at_ : Nat)
  /-- HOLDOVER_EXPIRE (R52): After holdover_max ticks the device switches to the backup port or clears aligned. -/
  | holdoverExpire
  /-- RELOCK (R53): The relock command clears aligned so that the device adopts the next valid beacon. -/
  | relock
  /-- START_ARM (R54): The final word of TICK_START_AT arms or refuses the start of a context at tick S. -/
  | startArm (S : Nat)
  /-- START_DISARM (R56): A TICK_START_CTX write with disarm = 1 stops pre-warm or ends withheld_unaligned. -/
  | startDisarm (c : Nat)
  /-- GOVERNOR_ENERGY_CHECK (R60): Every 1,100 clk the governor checks running energy and gates matrix issue. -/
  | governorEnergyCheck (running : Nat)
  /-- TICK_PERIOD_WRITE (R64): A write of period_us sets the period at the next edge, or is discarded with
  period_refused. -/
  | tickPeriodWrite (value : Nat)
  /-- ARITH_CLEAR (R117): The clear command resets the four counters and the first-event record of a context. -/
  | arithClear (c : Nat)
  /-- RECORD_DISPATCH (R159): The cluster dispatches the next stream record into its unit's queue of 4. -/
  | recordDispatch (g n at_ : Nat)
  /-- RECORD_WAIT_MET (R172): A record whose waits are met takes its tokens and starts. -/
  | recordWaitMet (g n u at_ : Nat)
  /-- RECORD_RETIRE (R172): A record retires when its last element is stored and its write-backs are accepted, and its
  signals are applied. -/
  | recordRetire (g n idx at_ : Nat)
  /-- STEP_END_MARK (R161): The final segment mark ends the cluster's part of the step once the segment before it has
  finished. -/
  | stepEndMark (g n : Nat)
  /-- PASS_ISSUE (R130): A matrix pass issues once its operands, staging, bank, entry time and governor allow. -/
  | passIssue (g n u at_ : Nat)
  /-- AWL_TILE_ISSUE (R155): An Awl instruction tile issues and folds its chunks. -/
  | awlTileIssue (g n at_ : Nat)
  /-- BANK_DRAIN (R127): A completed bank drains through the drain steps to cluster memory. -/
  | bankDrain (g n u at_ : Nat)
  /-- CODEBOOK_CALIBRATE (R146): On a calibration step the vector units build a group's histogram and compute its new
  codebook. -/
  | codebookCalibrate (c instr grp : Nat)
  /-- DRIFT_SAMPLE (R150): Monitor work recomputes a sampled tile in BF16 and counts an exceedance. -/
  | driftSample (g n idx blk : Nat)
  /-- WINDOW_WRITE (R182): The final word of MEM_CTX_WIN sets or refuses a context's bulk window and makes its
  granules unwritten. -/
  | windowWrite (c value : Nat)
  /-- MEM_ARB_WRITE (R204): A MEM_ARB write whose weights sum to 16 takes effect at the next edge, and is otherwise
  discarded. -/
  | memArbWrite (value : Nat)
  /-- GRANULE_READ (R192): A read request to a granule or line acts by its state and is corrected by ECC. -/
  | granuleRead (c g n unit space addr : Nat) (ups : List (Nat × Nat))
  /-- ECC_WRITEBACK (R196): A corrected word is written back in the next unclaimed slot unless the granule was written
  meanwhile. -/
  | eccWriteback (cm : Bool) (idx : Nat)
  /-- GRANULE_WRITE (R192): A write of a whole or part granule updates the cells and the granule state. -/
  | granuleWrite (c g n unit space addr : Nat) (bytes : List Byte)
  /-- SCRUB_ACCESS (R197): A due scrub access reads the next written granule or line in an unclaimed slot. -/
  | scrubAccess (cm : Bool) (idx bank at_ : Nat) (ups : List (Nat × Nat))
  /-- RETRIEVER_COPY (R199): A copy descriptor moves rows, converting format once where needed. -/
  | retrieverCopy (g n at_ : Nat)
  /-- RETRIEVER_FILL_ZEROS (R199): A fill-zeros descriptor writes zeros over the destination. -/
  | retrieverFillZeros (g n at_ : Nat)
  /-- RETRIEVER_DEFINE_ZERO (R199): A define-zero descriptor sets granule states to zero-defined. -/
  | retrieverDefineZero (g n at_ : Nat)
  /-- RETRIEVER_INVALIDATE (R199): An invalidate descriptor sets granule states to unwritten. -/
  | retrieverInvalidate (g n at_ : Nat)
  /-- UNIT_ACCEPT (R200): The destination accepts a unit, and the progress word is advanced. -/
  | unitAccept (g n at_ : Nat)
  /-- TG_START (R202): A start runs or refuses a traffic-generator run over a channel range. -/
  | tgStart (ch : Nat) (fails : List (Nat × Nat × Nat))
  /-- TG_STOP (R204): The stop command ends a run at the end of the current granule. -/
  | tgStop (ch : Nat)
  /-- TG_RUN_END (R202): A run ends, and destructive rows are set unwritten. -/
  | tgRunEnd (ch : Nat) (fails : List (Nat × Nat × Nat))
  /-- LOCAL_SEND_APPLY (R213): A send to the record's own partition adds its tokens to the object 4 clk later. -/
  | localSendApply (id at_ : Nat)
  /-- REMOTE_SEND_APPLY (R213): The destination partition applies a remote send and returns an acknowledgement. -/
  | remoteSendApply (id at_ : Nat)
  /-- SEND_ACK_RECEIVE (R213): On arrival of the acknowledgement, the source reduces out by n. -/
  | sendAckReceive (id at_ : Nat)
  /-- STEP_BOUNDARY_CENSUS (R216): After a context's last record retires with out zero, the census is taken and the
  step boundary barrier completes. -/
  | stepBoundaryCensus (c at_ : Nat)
  /-- SYNC_RESEED (R221): The reseed command takes a census and then reseeds every partition of the context. -/
  | syncReseed (c : Nat)
  /-- SYNC_CENSUS (R221): The census command checks the pairs and the total of a context. -/
  | syncCensus (c : Nat)
  /-- LOAD_GO (R233): The go command starts or refuses an image load. -/
  | loadGo (src q c at_ : Nat)
  /-- LOAD_FETCH_DATA (R234): Arriving image data is hashed, held or placed. -/
  | loadFetchData (tag status at_ : Nat) (bs : List Byte)
  /-- LOAD_CHECK (R235): After the fetch the loader checks the image in reason-code order. -/
  | loadCheck (at_ : Nat)
  /-- LOAD_ABORT (R242): The abort command stops a load and cleans up, or reports ST_ALREADY_DONE. -/
  | loadAbort (c at_ : Nat)
  /-- UNLOAD (R240): The unload command runs at once for a context that is not released, or is deferred. -/
  | unload (c at_ : Nat)
  /-- DEFERRED_UNLOAD (R240): A deferred unload runs at the next step boundary barrier. -/
  | deferredUnload (c at_ : Nat)
  /-- COBBLER_QUEUE_ENTER (R249): A Cobbler pass enters a channel queue when it has room. -/
  | cobblerQueueEnter (ch : Nat)
  /-- COBBLER_UPDATE (R252): After preload each Cobbler applies the AdamW update to its slot's records. -/
  | cobblerUpdate (ch : Nat)
  /-- COBBLER_EMIT (R255): After the update each Cobbler emits its slot's working copy. -/
  | cobblerEmit (ch : Nat)
  /-- FABRIC_PACKET_RECEIVE (R330): A packet addressed to the device is checked by Collar and epoch and is delivered,
  parked, held or discarded. -/
  | fabricPacketReceive (p v : Nat) (k : Packet)
  /-- ACCEPT_RECEIVE (R329): An accept packet marks a run of units as accepted at the destination. -/
  | acceptReceive (p v : Nat) (k : Packet)
  /-- REDUCE_STAGE (R270): A reduce stage begins for a block once its local operand is written. -/
  | reduceStage (g n idx m st : Nat)
  /-- PACKET_ROUTE (R332): An outgoing packet is given a port from its route mask, or waits for one to come up. -/
  | packetRoute (i : Nat)
  /-- DETERMINISTIC_WRITE (R273): A write to GLB_DET takes effect only while no context is loaded, and otherwise sets
  det_refused. -/
  | deterministicWrite (value : Nat)
  /-- LEDGER_TRANSFER_RECEIVE (R282): The partner accepts a step record or gradient shard from its ward. -/
  | ledgerTransferReceive (c kind step : Nat) (bytes : List Byte) (digest : Nat)
  /-- VOTE_RECEIVE (R289): An arriving vote record is collected, and the herd verdict is formed once all have arrived.
  -/
  | voteReceive (c : Nat) (v : Vote)
  /-- VOTE_TIMEOUT (R289): A vote missing 4,096 ticks after the barrier makes the verdict no. -/
  | voteTimeout (c : Nat)
  /-- DECISION_RECEIVE (R290): A job-decision tree message is combined or delivered, and the context confirms or waits
  for rollback. -/
  | decisionReceive (c : Nat) (down : Bool) (from_ step : Nat) (yes due : Bool) (at_ : Nat)
  /-- DECISION_TIMEOUT (R290): With no decision 4,096 ticks after the barrier, the context takes the decision as no.
  -/
  | decisionTimeout (c : Nat)
  /-- MIRROR_CONFIRMED_RECEIVE (R291): The ward receives mirror-confirmed and sets mirror_valid. -/
  | mirrorConfirmedReceive (c step : Nat)
  /-- LEDGER_ROLLBACK (R292): The rollback command quiesces the context and installs the new epoch. -/
  | ledgerRollback (c at_ : Nat)
  /-- ROLLBACK_EXCHANGE (R293): After quiescing, the contexts agree on the rollback target and need-tail over the job
  group. -/
  | rollbackExchange (c target : Nat) (needTail lost : Bool) (at_ : Nat)
  /-- MIRROR_RESTORE (R295): A restore streams the mirror rows into the owner and compares full-state digests. -/
  | mirrorRestore (c role : Nat) (bytes : List Byte) (digest : Option Nat)
  /-- TAIL_REPLAY (R296): The context regenerates its working weights by replaying the tail of the target step. -/
  | tailReplay (c : Nat) (copy : List Byte)
  /-- SPARE_TAKEOVER (R298): A spare takes the lost device's shard, records and input banks. -/
  | spareTakeover (c target : Nat) (records banks : List (Nat × List Byte)) (weights : List Byte)
  /-- MIRROR_SEEDING (R299): The owner streams its settled rows to a new mirror, and the digests are compared. -/
  | mirrorSeeding (c role step : Nat) (bytes : List Byte) (digest : Option Nat)
  /-- LEDGER_HALT (R307): The halt command sets halted with halt_reason 7. -/
  | ledgerHalt (c : Nat)
  /-- CLEAR_STRIKES (R307): The clear_strikes command sets the strikes of a context to 0. -/
  | clearStrikes (c : Nat)
  /-- LEDGER_ENABLE_WRITE (R306): A write of enable turns the ledger on if its conditions hold, or turns it off and
  discards retained data. -/
  | ledgerEnableWrite (value : Nat)
  /-- CKPT_TAKE (R312): The take command sets the checkpoint due bit of a context. -/
  | ckptTake (c : Nat)
  /-- CKPT_TIMER_EXPIRE (R312): The checkpoint timer reaching timer_s sets the due bit. -/
  | ckptTimerExpire (c at_ : Nat)
  /-- CKPT_DRAIN_START (R316): After its stagger delay the drain zeroes the manifest and starts sending data units. -/
  | ckptDrainStart (c at_ : Nat)
  /-- CKPT_UNIT_ACCEPT (R315): An acknowledged 4 KiB unit releases its granules and advances the progress word. -/
  | ckptUnitAccept (c u at_ : Nat)
  /-- CKPT_DIGEST_TREE_RECEIVE (R315): A shard-digest tree message is combined upwards, and member 0 writes the job
  manifest. -/
  | ckptDigestTreeReceive (c from_ : Nat) (digest : List Byte)
  /-- CKPT_COMPLETION_RECEIVE (R315): Completion received down the tree records the last complete checkpoint. -/
  | ckptCompletionReceive (c step : Nat)
  /-- CKPT_ABORT (R320): The abort command stops a drain or restore, or reports ST_ALREADY_DONE. -/
  | ckptAbort (c : Nat)
  /-- CKPT_RESTORE (R317): The restore command reads and checks a shard from a slot into the own and side rows. -/
  | ckptRestore (c slot port : Nat) (manifest data : List Byte)
  /-- FRAME_RECEIVE (R323): A link frame is accepted and acknowledged, or a replay is requested. -/
  | frameReceive (f : Frame) (at_ : Nat)
  /-- LINK_IDLE_TIMEOUT (R324): No valid frame for 4,096 clk takes the port down. -/
  | linkIdleTimeout (p at_ : Nat)
  /-- PORT_DOWN (R324): A port goes down on lane-lock loss or a command, keeps its frames and advances its generation.
  -/
  | portDown (p at_ : Nat)
  /-- CENSUS_MARKER_RECEIVE (R326): The receiver checks the credit pool sum and frame count, and retrains the port on
  a mismatch. -/
  | censusMarkerReceive (p v h rs sent at_ : Nat)
  /-- PORT_TRAINING_DONE (R327): Training of a port completes or fails, possibly at reduced width. -/
  | portTrainingDone (p width : Nat) (ok : Bool) (at_ : Nat)
  /-- FULL_SEARCH_RETRY (R327): A failed port repeats its full search every 60 s. -/
  | fullSearchRetry (p at_ : Nat)
  /-- HELLO_RECEIVE (R328): A hello frame is checked against the port's expectation, and the port goes up or is
  quarantined. -/
  | helloReceive (p : Nat) (h : Hello) (at_ : Nat)
  /-- FAB_COMMIT (R335): The commit command schedules the shadow tables into service at the next edge. -/
  | fabCommit
  /-- FAB_RETRAIN (R342): The retrain command takes a port down and retrains it from saved settings. -/
  | fabRetrain (p : Nat)
  /-- FAB_FULL_SEARCH (R342): The full_search command takes a port down and retrains it by full search. -/
  | fabFullSearch (p : Nat)
  /-- FAB_PORT_OFF (R342): The port_off command sets a port to off. -/
  | fabPortOff (p : Nat)
  /-- FAB_PORT_ON (R342): The port_on command starts training an off or quarantined port. -/
  | fabPortOn (p : Nat)
  /-- FAB_DEV_WRITE (R337): A completed FAB_DEV write changes the role at the next edge, or is refused. -/
  | fabDevWrite (value : Nat)
  /-- FAB_JOB_WRITE (R342): A write of a job slot's job_id or epoch is accepted or refused by its row's conditions. -/
  | fabJobWrite (slot : Nat) (epoch : Bool) (value : Nat)
  /-- FAB_CTX_JOB_WRITE (R342): A binding of a context to a job slot is accepted or refused. -/
  | fabCtxJobWrite (c value : Nat)
  /-- ENGINE_SEARCH (R346): The search command runs a full ring search on every bus of an engine. -/
  | engineSearch (e : Nat)
  /-- ENGINE_SEARCH_CACHED (R346): The search_cached command runs a cached ring search, falling back to a full search.
  -/
  | engineSearchCached (e : Nat)
  /-- SEARCH_COMPLETE (R347): A completed search assigns the rings and brings each port's lanes into service. -/
  | searchComplete (e : Nat) (buses : List (List Nat × Nat)) (found : Bool) (temp : Nat)
  /-- LOCK_VISIT (R348): Each 1.6 µs the lock loop visits a ring and corrects its heater. -/
  | lockVisit (b r : Nat) (err : Int)
  /-- LANE_OUT_REQUEST (R350): A lane-out request received from the peer is accepted or refused. -/
  | laneOutRequest (p w : Nat) (fault : Bool)
  /-- LANE_OUT_REPLY (R350): A reply to a lane-out request takes the lane out from edge n + 2, or leaves it in. -/
  | laneOutReply (p w : Nat) (accept : Bool)
  /-- COMB_LINE_LOW (R351): A comb line more than 3 dB below its calibrated level takes its lane out for a fault. -/
  | combLineLow (p w : Nat)
  /-- CAL_CYCLE_START (R352): Every cal_interval_s seconds a calibration cycle starts over every lane. -/
  | calCycleStart (e at_ : Nat)
  /-- CAL_SLOT_END (R352): After cal_ticks ticks a lane's calibration is judged and the lane returns. -/
  | calSlotEnd (e : Nat) (dTx dRx : Int)
  /-- LASER_LOSS (R353): A laser input below its floor stops the transmit buses of two transceivers. -/
  | laserLoss (e L : Nat)
  /-- LASER_RESTORED (R472): A laser fibre above +7 dBm for 1 ms is treated as restored. -/
  | laserRestored (e L : Nat)
  /-- TABLE_MODE_UPDATE (R354): Every 6.4 µs in table mode heaters are set from the temperature tables. -/
  | tableModeUpdate (e : Nat) (t4 : Int)
  /-- TABLE_MODE_WRITE (R354): A write of table_mode is accepted only while every port of the engine is off. -/
  | tableModeWrite (e value : Nat)
  /-- SWITCH_SLOT_WRITE (R355): A map written to a switch slot is stored, or discarded if invalid or in use by a
  released plan. -/
  | switchSlotWrite (i value : Nat)
  /-- MAP_APPLY (R356): The apply command schedules a map slot as the base map at tick apply_at. -/
  | mapApply (e slot : Nat)
  /-- PLAN_ENTRY_WRITE (R357): A plan entry is written or refused with ST_MAP_INVALID. -/
  | planEntryWrite (i word value : Nat)
  /-- CIRCUIT_IDENT_RECEIVE (R358): On receipt of the peer's ident a frozen circuit reopens and resends. -/
  | circuitIdentReceive (p serial gen : Nat) (last : List Nat) (at_ : Nat)
  /-- ADC_SAMPLE_DONE (R359): A monitor ADC completes a sample with its settings and validity. -/
  | adcSampleDone (e code : Nat)
  /-- ADC_SETTINGS_WRITE (R360): A write of manual or of the settings of the service ADC takes effect at the end of
  the sample in progress. -/
  | adcSettingsWrite (e value : Nat)
  /-- PART_ASSIGN_WRITE (R364): A paired PART_ASSIGN write assigns partitions to a context, or is refused. -/
  | partAssignWrite (c mask : Nat)
  /-- NEXT_CONTEXT_WRITE (R365): Naming an incoming context parks the partition at the resident context's next
  barrier. -/
  | nextContextWrite (g value : Nat)
  /-- HANG_DETECTED (R368): quiet_ticks reaching hang_ticks reports a hang and acts as hang_action gives. -/
  | hangDetected (g at_ : Nat)
  /-- PART_FENCE (R372): The fence command cuts the partition off and starts the drain. -/
  | partFence (g at_ : Nat)
  /-- FENCE_DRAIN_COMPLETE (R372): When the drain is done, the tokens are settled and the partition enters fenced. -/
  | fenceDrainComplete (g at_ : Nat)
  /-- DRAIN_LIMIT_EXPIRE (R372): After drain_limit_us, outstanding port reads are quarantined. -/
  | drainLimitExpire (g at_ : Nat)
  /-- PART_RESET (R374): The reset command fences the partition if needed and starts its reset phases. -/
  | partReset (g : Nat) (full : Bool) (at_ : Nat)
  /-- RESET_PHASE_COMPLETE (R374): A reset phase ends and the next begins, or the partition enters failed. -/
  | resetPhaseComplete (g : Nat) (ok : Bool) (at_ : Nat)
  /-- CTX_STOP (R381): The ctx_stop command stops issue of a context in all its partitions. -/
  | ctxStop (c : Nat)
  /-- CTX_ABORT (R381): The ctx_abort command stops a context and abandons its in-flight records. -/
  | ctxAbort (c at_ : Nat)
  /-- LEASE_GRANT (R376): A paired lease grant is accepted or refused by term and duration. -/
  | leaseGrant (value at_ : Nat)
  /-- LEASE_LAPSE (R377): remaining reaching 0 stops every context and raises ST_LEASE_LOST. -/
  | leaseLapse (at_ : Nat)
  /-- SHEEPDOG_ACK (R383): The ack command acknowledges every queued severity-3 entry. -/
  | sheepdogAck
  /-- SHEEPDOG_POP (R383): The pop command removes the entry shown in SHEEPDOG_EV. -/
  | sheepdogPop
  /-- V_AON_VALID (R385): V_AON becomes valid, and the comparator starts below with FAULT_N low. -/
  | vAonValid
  /-- VBUS_ABOVE (R385): VBUS_SENSE above V_rise for 10 ms releases the always-on domain. -/
  | vbusAbove (at_ : Nat)
  /-- BROWN_OUT (R386): A fall below V_fall for 2 µs holds every domain in reset and turns the regulators off. -/
  | brownOut (at_ : Nat)
  /-- PLL_LOCK (R388): The core PLL locks, and the straps are sampled and the fuses checked. -/
  | pllLock (bootSel at_ : Nat)
  /-- PLL_LOCK_TIMEOUT (R388): No lock within 2 ms puts the device in halted with halt_reason 4. -/
  | pllLockTimeout (at_ : Nat)
  /-- BOOT_SLOT_READ (R392): The ROM reads and checks candidate slots and boots one or enters rom_wait. -/
  | bootSlotRead (bad : List (Nat × List Nat)) (c : FlashConfig) (at_ : Nat)
  /-- LEAVE_ROM_WAIT (R392): The leave_rom_wait command retries slot selection with BOOT_SEL taken as 0. -/
  | leaveRomWait (bad : List (Nat × List Nat)) (c : FlashConfig) (at_ : Nat)
  /-- RAIL_SEQUENCE (R394): After the stagger delay the rails are raised group by group and polled into band. -/
  | railSequence (fail : Option Nat) (at_ : Nat)
  /-- BRINGUP_TRAINING (R395): Welt links, bonds, channels, fabric ports and ring searches train in parallel. -/
  | bringupTraining (saved : Bool) (welt chans : List Nat) (at_ : Nat)
  /-- SELF_TEST_START (R396): A partition's self-test starts when the wake budget allows. -/
  | selfTestStart (g at_ : Nat)
  /-- SELF_TEST_COMPLETE (R396): A self-test ends, marking the partition failed on error. -/
  | selfTestComplete (g : Nat) (ok : Bool) (at_ : Nat)
  /-- HOST_INBOUND_REQUEST (R403): An inbound PCIe request to an aperture is performed or answered with an error. -/
  | hostInboundRequest (f : Nat) (write : Bool) (off len : Nat) (bytes : List Byte) (at_ : Nat)
  /-- HOST_COMPLETION_RECEIVE (R402): A completion of a host read is written in or discarded. -/
  | hostCompletionReceive (tag status at_ : Nat) (bs : List Byte)
  /-- HOST_COMPLETION_TIMEOUT (R404): A completion timeout ends the operation and frees the tag. -/
  | hostCompletionTimeout (tag at_ : Nat)
  /-- BUS_MASTER_DISABLE (R404): Clearing Bus Master Enable ends the function's operations with ST_HOST_DISABLED. -/
  | busMasterDisable (f at_ : Nat)
  /-- BUS_MASTER_ENABLE (R404): Setting Bus Master Enable resumes issue and sends held MSI-X messages. -/
  | busMasterEnable (f at_ : Nat)
  /-- FUNCTION_LEVEL_RESET (R405): An FLR acts as a bus-master disable and resets the function's configuration. -/
  | functionLevelReset (f at_ : Nat)
  /-- FLR_COMPLETE (R405): The FLR completes 1 ms after it is received. -/
  | flrComplete (f at_ : Nat)
  /-- HOST_LINK_DOWN (R405): A hot reset, link disable or link-down acts as an FLR of the PF. -/
  | hostLinkDown (at_ : Nat)
  /-- STOR_PACKET_RECEIVE (R407): A received RoCE packet is served or NAKed by the responder. -/
  | storPacketReceive (p q : Nat) (pkt : Roce) (ce : Bool) (at_ : Nat)
  /-- CNP_RECEIVE (R408): A received CNP cuts the QP's rate to seven-eighths. -/
  | cnpReceive (q at_ : Nat)
  /-- RATE_RECOVERY (R408): Every 100 µs with no CNP raises a QP's rate by 4 Gb/s. -/
  | rateRecovery (q at_ : Nat)
  /-- PFC_STUCK (R408): roce_prio paused for pfc_stuck_ms raises ST_STOR_PFC_STUCK. -/
  | pfcStuck (p at_ : Nat)
  /-- ACK_TIMEOUT (R409): An ACK timeout retries, or puts the QP in error after retry_cnt retries. -/
  | ackTimeout (q at_ : Nat)
  /-- STOR_PORT_DOWN_TIMEOUT (R409): A port down for 10 s puts its QPs in error. -/
  | storPortDownTimeout (p at_ : Nat)
  /-- QP_MODIFY (R418): The modify command readies the selected QP from reset. -/
  | qpModify
  /-- QP_RESET (R418): The reset command returns the selected QP to reset. -/
  | qpReset
  /-- USB_READ (R411): A vendor READ request returns control-space words. -/
  | usbRead (addr wLength at_ : Nat)
  /-- USB_WRITE (R411): A vendor WRITE request writes words after its data stage completes. -/
  | usbWrite (addr wLength : Nat) (words : List Nat) (at_ : Nat)
  /-- USB_BUS_RESET (R412): A USB bus reset discards the USB path's pending sequence and resets the port. -/
  | usbBusReset (cut highSpeed : Bool)
  /-- USB_EP1_CHUNK (R432): An EP1 transfer delivers an update download chunk. -/
  | usbEp1Chunk (off len : Nat) (data : List Byte) (ok : Bool)
  /-- SIDEBAND_RECOVERY (R414): A low sideband line triggers bus recovery, and the bus is declared stuck after three
  attempts. -/
  | sidebandRecovery (bus : Nat) (freed : Bool) (at_ : Nat)
  /-- SIDEBAND_RETRY (R414): A stuck bus retries recovery every 1 s. -/
  | sidebandRetry (bus : Nat) (freed : Bool) (at_ : Nat)
  /-- I3C_IBI (R413): An I3C in-band interrupt is accepted and reported. -/
  | i3cIbi
  /-- MGMT_READ (R421): A management read request returns control-space words. -/
  | mgmtRead (peer seq addr count at_ : Nat)
  /-- MGMT_WRITE (R421): A management write request writes control-space words as one path. -/
  | mgmtWrite (peer seq addr : Nat) (words : List Nat) (at_ : Nat)
  /-- MGMT_DOWNLOAD_CHUNK (R434): A download chunk is programmed at its offset or ignored or refused. -/
  | mgmtDownloadChunk (peer seq off : Nat) (data : List Byte) (ok : Bool)
  /-- REPORT_DATAGRAM_SEND (R424): A report datagram carrying unsent entries leaves when the interval or severity
  allows. -/
  | reportDatagramSend (at_ : Nat)
  /-- HEARTBEAT_SEND (R424): A heartbeat datagram leaves every hb_s seconds. -/
  | heartbeatSend (at_ : Nat)
  /-- REPORT_ACK_RECEIVE (R425): A cumulative acknowledgement removes the acknowledged entries. -/
  | reportAckReceive (sink seq : Nat)
  /-- REPORT_RESEND (R425): With no acknowledgement in 4 intervals, the oldest datagram is sent again. -/
  | reportResend (at_ : Nat)
  /-- UPD_BEGIN (R434): The begin command erases the target record and starts a download. -/
  | updBegin (p : Path) (ok : Bool)
  /-- UPD_VERIFY (R435): The verify command reads back and checks the target, then writes stage 2. -/
  | updVerify (p : Path) (bad : List Nat) (ok : Bool)
  /-- UPD_ACTIVATE (R436): The activate command writes stage 3 and activates live or by reboot. -/
  | updActivate (p : Path) (live ok : Bool) (at_ : Nat)
  /-- UPD_CONFIRM (R437): The confirm command writes stage 4 and ends the trial. -/
  | updConfirm (p : Path) (ok : Bool)
  /-- UPD_REVERT (R437): The revert command returns the parts and rewrites the target at stage 2. -/
  | updRevert (p : Path) (ok : Bool) (at_ : Nat)
  /-- UPD_ABORT (R443): The abort command ends a download or verify. -/
  | updAbort (p : Path)
  /-- TRIAL_TIMER_EXPIRE (R437): Expiry of the trial timer reverts the update. -/
  | trialTimerExpire (at_ : Nat)
  /-- METER_HEARTBEAT_SEND (R445): The meter sends a heartbeat to the hub every ms. -/
  | meterHeartbeatSend (at_ : Nat)
  /-- METER_HEARTBEAT_TIMEOUT (R447): No heartbeat for 10 ms raises ST_METER_ABSENT. -/
  | meterHeartbeatTimeout (at_ : Nat)
  /-- ATTRIBUTION_FRAME (R451): The meter accepts or refuses an attribution frame for a tick. -/
  | attributionFrame (tick tickN : Nat) (f : List Nat)
  /-- METER_TICK_CLOSE (R452): At a hub tick edge the meter closes the tick and charges its energy to the accounts. -/
  | meterTickClose (es : List Nat) (ein own ms : Nat)
  /-- METER_SELF_PERIOD (R448): With no edge, the meter closes 16 µs periods on its own timebase as unattributed. -/
  | meterSelfPeriod (es : List Nat) (ein own ms : Nat)
  /-- METER_SNAPSHOT (R450): Each second the accounts are written to the non-volatile store. -/
  | meterSnapshot (ok : Bool) (ms : Nat)
  /-- RECORD_INTERVAL_END (R454): At the end of each interval the meter writes context records and a device record. -/
  | recordIntervalEnd (ms : Nat)
  /-- METER_FETCH (R457): The fetch op returns stored records. -/
  | meterFetch (peer seq first count : Nat)
  /-- METER_NONCE (R457): The nonce op returns the current nonce. -/
  | meterNonce (peer seq : Nat)
  /-- METER_INTERVAL (R457): The interval op sets record_s with an event record. -/
  | meterInterval (peer seq arg : Nat)
  /-- METER_TIME_MARK (R457): The time mark op records a claimed UTC. -/
  | meterTimeMark (peer seq utc : Nat)
  /-- METER_BREAK (R459): A valid break token breaks the seal. -/
  | meterBreak (peer seq : Nat) (tok : List Byte)
  /-- METER_RESTORE (R459): A valid restore token verifies the inactive image and reseals the meter. -/
  | meterRestore (peer seq : Nat) (tok : List Byte)
  /-- METER_CALIBRATION (R460): The calibration op writes constants while the seal is broken. -/
  | meterCalibration (peer seq ch constants : Nat)
  /-- METER_FW_CHUNK (R459): The firmware chunk op writes to the inactive image while the seal is broken. -/
  | meterFwChunk (peer seq off : Nat) (data : List Byte)
  /-- V_MTR_FAIL (R461): V_MTR below threshold makes the meter write its snapshot and a power-down record. -/
  | vMtrFail (ms : Nat)
  /-- V_MTR_RETURN (R461): On V_MTR's return the meter writes a gap record. -/
  | vMtrReturn (ms : Nat)
  /-- THERMAL_THROTTLE (R475): A sensor reaching its throttle point lowers the power ceiling until it cools. -/
  | thermalThrottle (temps : List Int)
  /-- THERMAL_TRIP (R476): A sensor at its trip point acts as a brown-out and sets trip_seen. -/
  | thermalTrip (temps : List Int) (at_ : Nat)
  /-- TRIP_RECOVERY (R476): Sensors 15 °C below trip for 1 s rerun the power-on path. -/
  | tripRecovery (temps : List Int) (at_ : Nat)
  /-- RAIL_POLL (R478): Every 1 ms the rail voltages and currents are read into PWR_RAIL. -/
  | railPoll (reads : List (Nat × Nat × Nat)) (at_ : Nat)
  /-- UNIT_FAULT (R371): A parity error or watchdog in cluster, Cobbler or traffic-generator logic raises a fence of
  the partition with cause 4. -/
  | unitFault (g at_ : Nat)
  /-- V_AON_LOSS (R468): V_AON falls below 1.62 V, clearing trial_boots, trip_seen and every other always-on field. -/
  | vAonLoss
  /-- STORAGE_PORT_DOWN (R409): A storage Ethernet port goes down, stopping its QPs' timers, ending a load fetch and
  pausing checkpoint drains. -/
  | storagePortDown (p at_ : Nat)
  /-- STORAGE_PORT_UP (R320): A storage port comes back up after retraining, restarting QP timers and resuming paused
  checkpoint drains from their progress words. -/
  | storagePortUp (p at_ : Nat)
  /-- HOST_LINK_UP (R400): The PCIe link trains and comes up, setting HOST_LINK up, rate and width so that host
  traffic can flow again. -/
  | hostLinkUp (gen width : Nat) (flit : Bool) (vfs : Nat)
  /-- WELT_LINK_RESTORED (R238): A Welt link returns to service, undoing its rerouting and making the loader repeat
  the tick-fit check of every loaded image. -/
  | weltLinkRestored (l : Nat)
  /-- PFC_PAUSE_RECEIVE (R408): A PFC frame received on a storage port pauses or releases a priority, counts in
  pause_rx and starts the pfc_stuck_ms count for roce_prio. -/
  | pfcPauseReceive (p prio : Nat) (pause : Bool) (at_ : Nat)
  deriving DecidableEq, Repr

end Sys2Proof
end

