-- ==== Sys2Proof/WellFormed.lean ====
section
/-! DEFINITION. Which commands are well formed: every operand lies in the range that the spec gives its field. -/

namespace Sys2Proof

/-- A word of 32 bits, of 64 bits, a code of 8 bits. -/
def isWord (x : Nat) : Bool := decide (x < 2 ^ 32)
def isLong (x : Nat) : Bool := decide (x < 2 ^ 64)
def isCode (x : Nat) : Bool := decide (x < 256)
/-- A byte address of the 2 MiB of BAR0 (R401). -/
def isAddr (x : Nat) : Bool := decide (x < 2 ^ 21)
/-- Global partition, logical cluster, context, global channel (R30, R32). -/
def isPart (x : Nat) : Bool := decide (x < 64)
def isClu (x : Nat) : Bool := decide (x < 18)
def isCtx (x : Nat) : Bool := decide (x < 1024)
def isChan (x : Nat) : Bool := decide (x < 256)
/-- Fabric port (R321), optical engine, lane, host function, unit (R117), address of a peer (R442). -/
def isPort (x : Nat) : Bool := decide (x < 23)
def isEng (x : Nat) : Bool := decide (x < 2)
def isLane (x : Nat) : Bool := decide (x < 16)
def isFn (x : Nat) : Bool := decide (x < 64)
def isUnit (x : Nat) : Bool := decide (x < 8)
def isPeer (x : Nat) : Bool := decide (x < 2 ^ 128)

/-- The fields of a beacon fit (R49). -/
def Beacon.wf (b : Beacon) : Bool :=
  decide (b.turnaround < 2 ^ 16) && decide (b.rootId < 4096) && decide (b.hopCount < 16) && decide (b.periodUs < 128) &&
  isLong b.digest64 && isLong b.tickN && isLong b.tick

/-- The fields of a hello fit (R328). -/
def Hello.wf (h : Hello) : Bool :=
  isLong h.serial && decide (h.dev < 4096) && decide (h.role < 4) && decide (h.port < 64) && isWord h.sysid && isLong h.digest64 &&
  h.bufs.length == 3 && h.last.length == 3

/-- The fields of a header cell fit, and the payload is whole cells (R329). -/
def Packet.wf (k : Packet) : Bool :=
  isCode k.typ && decide (k.group < 4096) && decide (k.phase < 2 ^ 16) && isWord k.epoch && isWord k.job && decide (k.srcDev < 4096) &&
  decide (k.dstDev < 4096) && k.data.length % 64 == 0

/-- The fields of a frame's wrapper fit (R322, R323). -/
def Frame.wf (f : Frame) : Bool := isPort f.port && decide (f.vc < 3) && isCode f.gen && decide (f.seq < 2 ^ 16) && decide (f.ack < 2 ^ 16)

/-- The fields of a vote record fit (R288). -/
def Vote.wf (v : Vote) : Bool :=
  isLong v.step && isLong v.stepN && decide (v.cfg < 2 ^ 256) && decide (v.weights < 2 ^ 128) && decide (v.tripped < 2 ^ 256) &&
  isWord v.job && decide (v.member < 2 ^ 16) && isCode v.status

/-- A command is well formed. -/
def Instr.wf : Instr → Bool
  | .registerWrite _ _ addr value _ => isAddr addr && isWord value
  | .pairedReadLatch _ addr _ => isAddr addr
  | .pairedWriteWord _ addr value _ => isAddr addr && isWord value
  | .weltLinkDown l => decide (l < 12)
  | .tickEdge _ _ _ _ _ => true
  | .beaconReceive port b _ => isPort port && b.wf
  | .echoSend _ => true
  | .echoReceive port b _ => isPort port && b.wf && b.echo
  | .holdoverExpire => true
  | .relock => true
  | .startArm S => isLong S
  | .startDisarm c => isCtx c
  | .governorEnergyCheck _ => true
  | .tickPeriodWrite value => isWord value
  | .arithClear c => isCtx c
  | .recordDispatch g n _ => isPart g && isClu n
  | .recordWaitMet g n u _ => isPart g && isClu n && isUnit u
  | .recordRetire g n _ _ => isPart g && isClu n
  | .stepEndMark g n => isPart g && isClu n
  | .passIssue g n u _ => isPart g && isClu n && decide (u < 2)
  | .awlTileIssue g n _ => isPart g && isClu n
  | .bankDrain g n u _ => isPart g && isClu n && decide (u < 3)
  | .codebookCalibrate c instr _ => isCtx c && isWord instr
  | .driftSample g n _ _ => isPart g && isClu n
  | .windowWrite c value => isCtx c && isWord value
  | .memArbWrite value => isWord value
  | .granuleRead c g n unit space addr _ => isCtx c && isPart g && isClu n && isUnit unit && decide (space < 2) && isLong addr
  | .eccWriteback _ idx => decide (idx < 1152)
  | .granuleWrite c g n unit space addr _ => isCtx c && isPart g && isClu n && isUnit unit && decide (space < 2) && isLong addr
  | .scrubAccess _ idx bank _ _ => decide (idx < 1152) && decide (bank < 8)
  | .retrieverCopy g n _ => isPart g && isClu n
  | .retrieverFillZeros g n _ => isPart g && isClu n
  | .retrieverDefineZero g n _ => isPart g && isClu n
  | .retrieverInvalidate g n _ => isPart g && isClu n
  | .unitAccept g n _ => isPart g && isClu n
  | .tgStart ch _ => isChan ch
  | .tgStop ch => isChan ch
  | .tgRunEnd ch _ => isChan ch
  | .localSendApply _ _ => true
  | .remoteSendApply _ _ => true
  | .sendAckReceive _ _ => true
  | .stepBoundaryCensus c _ => isCtx c
  | .syncReseed c => isCtx c
  | .syncCensus c => isCtx c
  | .loadGo src q c _ => decide (src < 4) && decide (q < 4096) && isCtx c
  | .loadFetchData _ status _ _ => isCode status
  | .loadCheck _ => true
  | .loadAbort c _ => isCtx c
  | .unload c _ => isCtx c
  | .deferredUnload c _ => isCtx c
  | .cobblerQueueEnter ch => isChan ch
  | .cobblerUpdate ch => isChan ch
  | .cobblerEmit ch => isChan ch
  | .fabricPacketReceive p v k => isPort p && decide (v < 3) && k.wf
  | .acceptReceive p v k => isPort p && decide (v < 3) && k.wf
  | .reduceStage g n _ _ _ => isPart g && isClu n
  | .packetRoute _ => true
  | .deterministicWrite value => isWord value
  | .ledgerTransferReceive c kind step _ digest => isCtx c && decide (kind < 4) && isLong step && decide (digest < 2 ^ 128)
  | .voteReceive c v => isCtx c && v.wf
  | .voteTimeout c => isCtx c
  | .decisionReceive c _ _ step _ _ _ => isCtx c && isLong step
  | .decisionTimeout c => isCtx c
  | .mirrorConfirmedReceive c step => isCtx c && isLong step
  | .ledgerRollback c _ => isCtx c
  | .rollbackExchange c target _ _ _ => isCtx c && isLong target
  | .mirrorRestore c role _ _ => isCtx c && decide (role < 2)
  | .tailReplay c _ => isCtx c
  | .spareTakeover c target _ _ _ => isCtx c && isLong target
  | .mirrorSeeding c role step _ _ => isCtx c && decide (role < 2) && isLong step
  | .ledgerHalt c => isCtx c
  | .clearStrikes c => isCtx c
  | .ledgerEnableWrite value => isWord value
  | .ckptTake c => isCtx c
  | .ckptTimerExpire c _ => isCtx c
  | .ckptDrainStart c _ => isCtx c
  | .ckptUnitAccept c _ _ => isCtx c
  | .ckptDigestTreeReceive c _ digest => isCtx c && digest.length == 32
  | .ckptCompletionReceive c step => isCtx c && isLong step
  | .ckptAbort c => isCtx c
  | .ckptRestore c slot port _ _ => isCtx c && decide (slot < 2) && isCode port
  | .frameReceive f _ => f.wf
  | .linkIdleTimeout p _ => isPort p
  | .portDown p _ => isPort p
  | .censusMarkerReceive p v h rs sent _ => isPort p && decide (v < 3) && decide (h < 2 ^ 16) && isWord rs && isWord sent
  | .portTrainingDone p width _ _ => isPort p && decide (width < 32)
  | .fullSearchRetry p _ => isPort p
  | .helloReceive p h _ => isPort p && h.wf
  | .fabCommit => true
  | .fabRetrain p => decide (p < 64)
  | .fabFullSearch p => decide (p < 64)
  | .fabPortOff p => decide (p < 64)
  | .fabPortOn p => decide (p < 64)
  | .fabDevWrite value => isWord value
  | .fabJobWrite slot _ value => decide (slot < 16) && isWord value
  | .fabCtxJobWrite c value => isCtx c && isWord value
  | .engineSearch e => isEng e
  | .engineSearchCached e => isEng e
  | .searchComplete e _ _ _ => isEng e
  | .lockVisit b r _ => decide (b < 32) && decide (r < 18)
  | .laneOutRequest p w _ => isPort p && isLane w
  | .laneOutReply p w _ => isPort p && isLane w
  | .combLineLow p w => isPort p && isLane w
  | .calCycleStart e _ => isEng e
  | .calSlotEnd e _ _ => isEng e
  | .laserLoss e L => isEng e && decide (L < 4)
  | .laserRestored e L => isEng e && decide (L < 4)
  | .tableModeUpdate e _ => isEng e
  | .tableModeWrite e value => isEng e && isWord value
  | .switchSlotWrite i value => decide (i < 16) && isWord value
  | .mapApply e slot => isEng e && decide (slot < 8)
  | .planEntryWrite i word value => decide (i < 64) && decide (word < 2) && isWord value
  | .circuitIdentReceive p serial gen last _ => isPort p && isLong serial && isCode gen && last.length == 3
  | .adcSampleDone e code => isEng e && decide (code < 2048)
  | .adcSettingsWrite e value => isEng e && isWord value
  | .partAssignWrite c mask => isCtx c && isLong mask
  | .nextContextWrite g value => isPart g && isWord value
  | .hangDetected g _ => isPart g
  | .partFence g _ => isPart g
  | .fenceDrainComplete g _ => isPart g
  | .drainLimitExpire g _ => isPart g
  | .partReset g _ _ => isPart g
  | .resetPhaseComplete g _ _ => isPart g
  | .ctxStop c => isCtx c
  | .ctxAbort c _ => isCtx c
  | .leaseGrant value _ => isWord value
  | .leaseLapse _ => true
  | .sheepdogAck => true
  | .sheepdogPop => true
  | .vAonValid => true
  | .vbusAbove _ => true
  | .brownOut _ => true
  | .pllLock bootSel _ => decide (bootSel < 4)
  | .pllLockTimeout _ => true
  | .bootSlotRead _ _ _ => true
  | .leaveRomWait _ _ _ => true
  | .railSequence fail _ => fail.all fun r => decide (r < 14)
  | .bringupTraining _ welt chans _ => (welt.all fun l => decide (l < 12)) && chans.all isChan
  | .selfTestStart g _ => decide (g ≤ 64)
  | .selfTestComplete g _ _ => decide (g ≤ 64)
  | .hostInboundRequest f _ off len _ _ => isFn f && decide (off < 2 ^ 28) && decide (len ≤ 4096)
  | .hostCompletionReceive _ status _ _ => isCode status
  | .hostCompletionTimeout _ _ => true
  | .busMasterDisable f _ => isFn f
  | .busMasterEnable f _ => isFn f
  | .functionLevelReset f _ => isFn f
  | .flrComplete f _ => isFn f
  | .hostLinkDown _ => true
  | .storPacketReceive p q _ _ _ => decide (p < 2) && decide (q < 4096)
  | .cnpReceive q _ => decide (q < 4096)
  | .rateRecovery q _ => decide (q < 4096)
  | .pfcStuck p _ => decide (p < 2)
  | .ackTimeout q _ => decide (q < 4096)
  | .storPortDownTimeout p _ => decide (p < 2)
  | .qpModify => true
  | .qpReset => true
  | .usbRead addr wLength _ => isWord addr && decide (wLength < 2 ^ 16)
  | .usbWrite addr wLength words _ => isWord addr && decide (wLength < 2 ^ 16) && words.all isWord
  | .usbBusReset _ _ => true
  | .usbEp1Chunk off len _ _ => isWord off && isWord len
  | .sidebandRecovery bus _ _ => decide (bus < 2)
  | .sidebandRetry bus _ _ => decide (bus < 2)
  | .i3cIbi => true
  | .mgmtRead peer seq addr count _ => isPeer peer && isWord seq && isWord addr && decide (count < 2 ^ 16)
  | .mgmtWrite peer seq addr words _ => isPeer peer && isWord seq && isWord addr && words.all isWord
  | .mgmtDownloadChunk peer seq off _ _ => isPeer peer && isWord seq && isWord off
  | .reportDatagramSend _ => true
  | .heartbeatSend _ => true
  | .reportAckReceive sink seq => decide (sink < 2) && isWord seq
  | .reportResend _ => true
  | .updBegin _ _ => true
  | .updVerify _ _ _ => true
  | .updActivate _ _ _ _ => true
  | .updConfirm _ _ => true
  | .updRevert _ _ _ => true
  | .updAbort _ => true
  | .trialTimerExpire _ => true
  | .meterHeartbeatSend _ => true
  | .meterHeartbeatTimeout _ => true
  | .attributionFrame tick tickN f => isLong tick && isLong tickN && f.length == 64
  | .meterTickClose es _ _ _ => es.length == 64
  | .meterSelfPeriod es _ _ _ => es.length == 64
  | .meterSnapshot _ _ => true
  | .recordIntervalEnd _ => true
  | .meterFetch peer seq first count => isPeer peer && isWord seq && isLong first && decide (count < 256)
  | .meterNonce peer seq => isPeer peer && isWord seq
  | .meterInterval peer seq arg => isPeer peer && isWord seq && isWord arg
  | .meterTimeMark peer seq utc => isPeer peer && isWord seq && isLong utc
  | .meterBreak peer seq _ => isPeer peer && isWord seq
  | .meterRestore peer seq _ => isPeer peer && isWord seq
  | .meterCalibration peer seq ch constants => isPeer peer && isWord seq && isCode ch && decide (constants < 2 ^ 96)
  | .meterFwChunk peer seq off _ => isPeer peer && isWord seq && isWord off
  | .vMtrFail _ => true
  | .vMtrReturn _ => true
  | .thermalThrottle temps => temps.length == 15
  | .thermalTrip temps _ => temps.length == 15
  | .tripRecovery temps _ => temps.length == 15
  | .railPoll _ _ => true
  | .unitFault g _ => isPart g
  | .vAonLoss => true
  | .storagePortDown p _ => decide (p < 2)
  | .storagePortUp p _ => decide (p < 2)
  | .hostLinkUp gen width _ vfs => decide (1 ≤ gen) && decide (gen ≤ 6) && decide (width ≤ 16) && decide (vfs < 64)
  | .weltLinkRestored l => decide (l < 12)
  | .pfcPauseReceive p prio _ _ => decide (p < 2) && decide (prio < 8)

end Sys2Proof
end

