-- ==== Sys2Proof/Decode.lean ====
section
/-! DEFINITION. The commands of a block come from outside and have no words: no row of spec/opcode_table.json gives bits. -/

namespace Sys2Proof

/-- The command that a word of the table's bits spells: none, since no row has bits. -/
def decodeTableWord (_nbits _w : Nat) : Option Instr := none

end Sys2Proof
end

