-- ==== Sys2Proof/Config.lean ====
section
/-! DEFINITION. What a part or its surroundings fix, and the values the spec leaves open. No constant here has a
body: nothing can prove what it is. -/

namespace Sys2Proof.Config

/-- Free values, numbered by the counter State holds (DESIGN CHOICE, safe: notes/assumptions/3.md). -/
opaque freeValue : Nat → Nat

/-- The status codes of events to which the spec gives none: 0 a hang (R368), 1 a start withheld (R55), 2 a slew
violation (R63), 3 a change of root (R51), 4 a ledger halted (R302), 5 a ledger or checkpoint command refused (R307,
R319), 6 a rail out of its band (R483), 7 a sideband bus that has cleared (R414), 8 an I3C in-band interrupt (R413)
(DESIGN CHOICE, safe: notes/assumptions/22.md). -/
opaque eventStatus : Nat → Nat

/-- A byte beyond the prefix that a progress word names may or may not have been written (spec/08_memory.md R200). -/
opaque freeBool : Nat → Bool

/-- The signature under the device's identity key, r and s of FIPS 186-5 (spec/14_checkpoint.md R311,
spec/20_management_and_updates.md R430): the key never leaves the device. (DESIGN CHOICE, safe: notes/assumptions/29.md.) -/
opaque signature : List Byte → List Byte

/-- The device's serial number, from its fuses (spec/15_fabric_links_and_topology.md R328). -/
opaque serial : Nat

/-- A heater code of the temperature tables as flash has it (spec/16_optical_engines.md R354). -/
opaque tableCode : Nat → Nat

/-- The feed-forward's offset of a ring, in heater codes, for a modelled temperature in nK: its calibration constant
k[r] times T_m (spec/16_optical_engines.md R349). -/
opaque feedForward : Nat → Nat → Int

/-- The meter's nonces, in the order in which it draws them (spec/21_horaro_meter.md R458). -/
opaque nonce : Nat → Nat

/-- The signature under the meter's key, r and s, of FIPS 186-5 (spec/21_horaro_meter.md R455). -/
opaque meterSignature : List Byte → List Byte

/-- The authority keys, uncompressed, whose SHA-256 the meter's two authority fuses hold (spec/21_horaro_meter.md R458). -/
opaque authorityKey : Nat → List Byte

/-- A meter firmware image verifies under the key fused in the meter die, and its version: the image's layout is not in the
spec (spec/21_horaro_meter.md R459). -/
opaque meterImageOk : List Byte → Bool
opaque meterVersion : List Byte → Nat

/-- Word `i` of METER_KEY and of MGMT_IDKEY: public keys and certificates made at manufacture (spec/21_horaro_meter.md R463,
spec/20_management_and_updates.md R442). -/
opaque meterKey : Nat → Nat
opaque idKey : Nat → Nat

end Sys2Proof.Config
end

