-- ==== Sys2Proof/Machine/Bits.lean ====
section
/-! DEFINITION. Bit fields, limits of counts, byte order and sparse tables: the helpers every other file
of the machine uses (spec/00_scope.md R3, R4, R5). -/

namespace Sys2Proof.Machine

/-- Bits [hi:lo] of a number, as R3 numbers them. -/
def fld (x hi lo : Nat) : Nat := (x >>> lo) % 2 ^ (hi + 1 - lo)

/-- Bit `i` of a number is 1. -/
def bitOf (x i : Nat) : Bool := (x >>> i) % 2 == 1

/-- 1 for true, 0 for false. -/
def b2n (b : Bool) : Nat := if b then 1 else 0

/-- A field value placed at bit `lo`. -/
def at' (x lo : Nat) : Nat := x <<< lo

/-- A field of a number read as two's complement of width `w`. -/
def signed (w x : Nat) : Int := if x < 2 ^ (w - 1) then (x : Int) else (x : Int) - (2 ^ w : Nat)

/-- The two's-complement field of width `w` that holds `x`. -/
def unsigned (w : Nat) (x : Int) : Nat := (x % ((2 ^ w : Nat) : Int)).toNat

/-- The complement of a 64-bit value. -/
def not64 (x : Nat) : Nat := 2 ^ 64 - 1 - x % 2 ^ 64

/-- A count that saturates at `lim` (R5). -/
def satAdd (lim x d : Nat) : Nat := min lim (x + d)

/-- A count of `w` bits that wraps (R5). -/
def wrapAdd (w x d : Nat) : Nat := (x + d) % 2 ^ w

/-- A signed value held between `lo` and `hi`. -/
def clampI (lo hi x : Int) : Int := max lo (min hi x)

/-- The ceiling of `a / b`. -/
def ceilDiv (a b : Nat) : Nat := if b == 0 then 0 else (a + b - 1) / b

/-- `n` bytes of `x`, the least significant first (R4). -/
def leBytes : Nat → Nat → List Byte
  | 0, _ => []
  | n + 1, x => BitVec.ofNat 8 x :: leBytes n (x / 256)

/-- The number that little-endian bytes spell (R4). -/
def leNat : List Byte → Nat
  | [] => 0
  | b :: bs => b.toNat + 256 * leNat bs

/-- The number that big-endian bytes spell. -/
def beNat (bs : List Byte) : Nat := bs.foldl (fun a b => a * 256 + b.toNat) 0

/-- `n` bytes of `x`, the most significant first. -/
def beBytes (n x : Nat) : List Byte := (leBytes n x).reverse

/-- `n` zero bytes. -/
def zeros (n : Nat) : List Byte := List.replicate n 0

/-- Bytes `off` to `off + n - 1` of a list. -/
def slice (bs : List Byte) (off n : Nat) : List Byte := (bs.drop off).take n

/-- The little-endian number at bytes `off` to `off + n - 1`. -/
def leAt (bs : List Byte) (off n : Nat) : Nat := leNat (slice bs off n)

/-- A list padded with zero bytes to `n` bytes. -/
def padTo (n : Nat) (bs : List Byte) : List Byte := bs ++ zeros (n - bs.length)

/-- The intact pair of a number, at width `w`. -/
def pairOf (w x : Nat) : Paired w := Paired.of (BitVec.ofNat w x)

/-! ### Sparse tables: lists of keys and values, keys strictly rising -/

/-- A table keyed by number. An unlisted key holds the default that its reader names. -/
abbrev Tab (α : Type) := List (Nat × α)

/-- What a table lists under `k`. -/
def Tab.find {α : Type} : Tab α → Nat → Option α
  | [], _ => none
  | (k, v) :: t, q => if q == k then some v else Tab.find t q

/-- What a table holds under `k`, `d` where it lists nothing. -/
def Tab.get {α : Type} (t : Tab α) (k : Nat) (d : α) : α := (Tab.find t k).getD d

/-- The table with `v` under `k`. -/
def Tab.set {α : Type} : Tab α → Nat → α → Tab α
  | [], q, x => [(q, x)]
  | (k, v) :: t, q, x =>
    if q < k then (q, x) :: (k, v) :: t
    else if q == k then (q, x) :: t
    else (k, v) :: Tab.set t q x

/-- The table with nothing listed under `k`. -/
def Tab.erase {α : Type} : Tab α → Nat → Tab α
  | [], _ => []
  | (k, v) :: t, q => if q == k then t else (k, v) :: Tab.erase t q

/-- The table with `v` under `k`, listing nothing where `v` is the default `d`. -/
def Tab.put {α : Type} [DecidableEq α] (t : Tab α) (k : Nat) (d v : α) : Tab α :=
  if v = d then Tab.erase t k else Tab.set t k v

/-- The table without the keys from `lo` up to `hi - 1`. -/
def Tab.eraseRange {α : Type} (t : Tab α) (lo hi : Nat) : Tab α :=
  t.filter fun e => decide (e.1 < lo) || decide (hi ≤ e.1)

/-- The list with element `i` replaced (unchanged where there is none). -/
def setAt {α : Type} (l : List α) (i : Nat) (x : α) : List α := l.set i x

/-- Fold a step over the numbers 0 to n - 1, in ascending order. -/
def forN {σ : Type} (n : Nat) (s : σ) (f : Nat → σ → σ) : σ :=
  (List.range n).foldl (fun st i => f i st) s

/-- The positions of the 1 bits among bits 0 to n - 1, ascending. -/
def bitsOf (n x : Nat) : List Nat := (List.range n).filter fun i => bitOf x i

/-- How many of bits 0 to n - 1 are 1. -/
def popCount (n x : Nat) : Nat := (bitsOf n x).length

/-- Binary gcd by fuel: the greatest common divisor. -/
def gcdN (a b : Nat) : Nat := Nat.gcd a b

end Sys2Proof.Machine
end

