-- ==== Sys2Proof/Machine/StateBoot.lean ====
section
/-! DEFINITION. The records that State is made of: power-on, fuses and flash, management, updates, rails and sensors
(spec/18_bring_up.md, spec/20_management_and_updates.md, spec/22_electrical_and_package.md). A field's default value is its
value at reset. -/

namespace Sys2Proof.Machine

/-- The fuse maps of R389 that GLB_CLUSTER_MAP does not show. -/
structure Fuses where
  /-- row repair entries, keyed channel × 128 + entry -/
  rows : List (Nat × Paired 32) := []
  /-- Welt spare lanes in use, by link -/
  welt : List (Paired 2) := List.replicate 12 (pairOf 2 0)
  /-- SerDes lanes fused off, one bit each: ports 0 to 2 take 8 lanes each, ports 3 to 6 take 4 each -/
  lanes : Paired 40 := pairOf 40 0
  /-- SHA-256 of the firmware verification keys; 0 is unused -/
  keys : List (Paired 256) := [pairOf 256 0, pairOf 256 0]
  deriving DecidableEq, Repr

/-- BOOT_SLOT of one slot (R398). -/
structure BootSlot where
  stage : Nat := 0
  check : Nat := 0
  gen : Nat := 0
  deriving DecidableEq, Repr

/-- BOOT_STATUS, BOOT_READY, BOOT_WAKE (R398) and the power-on path (R385 to R396). -/
structure Boot where
  /-- V_AON is valid (DESIGN CHOICE, unsafe: notes/assumptions/9.md) -/
  vaon : Bool := true
  /-- the comparator reads "above" (R385) -/
  above : Bool := false
  /-- a trip holds the package in reset (R476) -/
  tripHold : Bool := false
  /-- the core PLL is locked (R388) -/
  locked : Bool := false
  /-- 0 fuses, 1 flash, 2 rails, 3 training, 4 self_test, 5 standby, 6 ready, 7 rom_wait, 8 halted (DESIGN CHOICE, unsafe: notes/assumptions/17.md) -/
  state : Nat := 0
  haltReason : Nat := 0
  slot : Nat := 0
  trial : Bool := false
  fellBack : Bool := false
  fullSearch : Bool := false
  bootSel : Nat := 0
  bringupMs : Nat := 0
  ready : Bool := false
  fail : Nat := 0xFF
  wakeCap : Nat := 650
  /-- wake_cap_w from the next edge -/
  wakeNext : Option Nat := none
  stagger : Nat := 0
  slots : List BootSlot := [{}, {}]
  /-- clk of the reset release, and of the acceptance of the slot -/
  releaseClk : Nat := 0
  acceptClk : Nat := 0
  /-- BOOT_SEL is taken as 0 for this boot (R433) -/
  selZero : Bool := false
  /-- partitions in self-test, and those that are through it (R395) -/
  testing : List Nat := []
  tested : List Nat := []
  /-- power of the self-tests started in this tick, in 0.1 W (R396) -/
  wakeUsed : Nat := 0
  /-- always-on: boots of a stage-3 slot (R438), and a trip since V_AON became valid (R478) -/
  trialBoots : Nat := 0
  tripSeen : Bool := false
  deriving DecidableEq, Repr

/-- UPD_CMD, UPD_STATUS, UPD_PART, UPD_TRIAL and UPD_PROGRESS (R443). -/
structure Upd where
  live : Bool := true
  /-- 0 idle, 1 downloading, 2 downloaded, 3 verifying, 4 verified, 5 activating, 6 trial, 7 confirming, 8 reverting -/
  state : Nat := 0
  target : Nat := 1
  owner : Nat := 0
  lastStatus : Nat := 0
  trialS : Nat := 0x0258
  progress : Paired 32 := pairOf 32 0
  /-- 2 bits per part in UPD_PART: calibration, microcode, dies 0 to 3, hub -/
  parts : List Nat := [0, 0, 0, 0, 0, 0, 0]
  /-- the first 4 KiB of the download, not yet programmed (R434) -/
  head : List Byte := []
  /-- clk at which the trial timer runs out; none where it does not run (R437) -/
  trialEnd : Option Nat := none
  /-- clk at which the activation began -/
  began : Nat := 0
  /-- partitions whose microcode has switched -/
  micro : List Nat := []
  /-- the semantics of the parts that a live switch replaced (R436, R437) -/
  oldSem : Option (List Nat) := none
  deriving DecidableEq, Repr

/-- MGMT_PEER and MGMT_SINK (R442). -/
structure Peer where
  valid : Bool := false
  udpPort : Nat := 0
  addr : List Nat := [0, 0, 0, 0]
  count : Nat := 0
  deriving DecidableEq, Repr

/-- A report datagram sent and not acknowledged (R425). -/
structure Datagram where
  seq : Nat
  clk : Nat
  bytes : List Byte
  deriving DecidableEq, Repr

/-- The MGMT block (R442), the kept responses (R422) and the report path (R424, R425). -/
structure Mgmt where
  up : Bool := false
  rxRefused : Nat := 0
  hbS : Nat := 1
  intervalMs : Nat := 0x32
  sent : Nat := 0
  resends : Nat := 0
  peers : List Peer := [{}, {}, {}, {}]
  sinks : List Peer := [{}, {}]
  /-- the last request executed from each peer: address, its seq and the response -/
  kept : List (Nat × (Nat × List Byte)) := []
  /-- seq of the next datagram -/
  seq : Nat := 0
  /-- clk of the last report datagram and of the last heartbeat -/
  lastReport : Option Nat := none
  lastBeat : Nat := 0
  unacked : List Datagram := []
  deriving DecidableEq, Repr

/-- PWR_RAIL of one rail (R478), and the clk of its last read. -/
structure Rail where
  vout : Nat := 0
  iout : Nat := 0
  inBand : Bool := false
  stale : Bool := false
  word : Nat := 0
  readClk : Nat := 0
  deriving DecidableEq, Repr

/-- PWR_THERM_CTRL, PWR_THERM_STAT, PWR_RAIL and PWR_TEMP (R478). -/
structure Therm where
  throttleC : Nat := 0x69
  throttleNext : Option Nat := none
  throttling : Bool := false
  throttleTicks : Nat := 0
  /-- the lowered power ceiling in 0.1 W (R475); none where it is not lowered -/
  ceiling : Option Nat := none
  rails : List Rail := List.replicate 14 {}
  temps : List Int := List.replicate 15 0
  deriving DecidableEq, Repr

end Sys2Proof.Machine
end

