-- ==== Sys2Proof/Machine/Num.lean ====
section
/-! DEFINITION. Number formats and their conversions: exact values, decoding, one rounding to nearest with
ties to even, GX16 blocks, scales and codebook codes (spec/03_number_formats.md R67 to R96). -/

namespace Sys2Proof.Machine

/-- An exact rational number in sign and magnitude. A zero keeps its sign (R74). -/
structure Q where
  neg : Bool
  num : Nat
  den : Nat
  deriving DecidableEq, Repr

/-- A decoded value: NaN, an infinity, or an exact number (R91 step 1). -/
inductive Val where
  | nan
  | inf (neg : Bool)
  | fin (q : Q)
  deriving DecidableEq, Repr

/-- Arithmetic events of one piece of work, counted by the classes of R114. -/
structure Evs where
  ovf : Nat := 0
  nan : Nat := 0
  inf : Nat := 0
  rsvd : Nat := 0
  deriving DecidableEq, Repr

/-- The events of both. -/
def Evs.add (a b : Evs) : Evs := ⟨a.ovf + b.ovf, a.nan + b.nan, a.inf + b.inf, a.rsvd + b.rsvd⟩

/-- No event at all. -/
def Evs.none : Evs := {}

/-- One event of class OVF, NAN, INF, RSVD (R114). -/
def evOvf : Evs := { ovf := 1 }
/-- One NAN event. -/
def evNan : Evs := { nan := 1 }
/-- One INF event. -/
def evInf : Evs := { inf := 1 }
/-- One RSVD event. -/
def evRsvd : Evs := { rsvd := 1 }

/-- Whether some event of a class whose bit is set in `mask` was raised (R115). -/
def Evs.hits (e : Evs) (mask : Nat) : Bool :=
  (bitOf mask 0 && e.ovf != 0) || (bitOf mask 1 && e.nan != 0) ||
  (bitOf mask 2 && e.inf != 0) || (bitOf mask 3 && e.rsvd != 0)

/-- The lowest class number raised (R116). -/
def Evs.first (e : Evs) : Option Nat :=
  if e.ovf != 0 then some 0 else if e.nan != 0 then some 1
  else if e.inf != 0 then some 2 else if e.rsvd != 0 then some 3 else Option.none

/-- At most one event of each class: R114 counts one per element. -/
def Evs.cap (e : Evs) : Evs := ⟨min 1 e.ovf, min 1 e.nan, min 1 e.inf, min 1 e.rsvd⟩

/-! ### Exact numbers -/

/-- The number n / 1. -/
def Q.ofNat (n : Nat) : Q := ⟨false, n, 1⟩

/-- An integer. -/
def Q.ofInt (i : Int) : Q := ⟨decide (i < 0), i.natAbs, 1⟩

/-- The number m × 2^e with a sign. -/
def Q.dyadic (neg : Bool) (m : Nat) (e : Int) : Q :=
  if 0 ≤ e then ⟨neg, m <<< e.toNat, 1⟩ else ⟨neg, m, 2 ^ (-e).toNat⟩

/-- The number is zero. -/
def Q.isZero (a : Q) : Bool := a.num == 0

/-- The same magnitude with the other sign. -/
def Q.flip (a : Q) : Q := { a with neg := !a.neg }

/-- The magnitude. -/
def Q.abs (a : Q) : Q := { a with neg := false }

/-- Lowest terms, so that long folds stay small. -/
def Q.norm (a : Q) : Q :=
  let g := gcdN a.num a.den
  if g ≤ 1 then a else ⟨a.neg, a.num / g, a.den / g⟩

/-- Product. -/
def Q.mul (a b : Q) : Q := ⟨a.neg != b.neg, a.num * b.num, a.den * b.den⟩

/-- Sum; an exact sum of zero is +0 unless both operands are −0 (R113). -/
def Q.add (a b : Q) : Q :=
  let d := a.den * b.den
  let x := a.num * b.den
  let y := b.num * a.den
  if a.neg == b.neg then ⟨a.neg, x + y, d⟩
  else if x == y then ⟨false, 0, 1⟩
  else if y < x then ⟨a.neg, x - y, d⟩
  else ⟨b.neg, y - x, d⟩

/-- Difference. -/
def Q.sub (a b : Q) : Q := a.add b.flip

/-- Quotient by a number that is not zero. -/
def Q.div (a b : Q) : Q := ⟨a.neg != b.neg, a.num * b.den, a.den * b.num⟩

/-- a < b, zeros of either sign being equal. -/
def Q.lt (a b : Q) : Bool :=
  let x := a.num * b.den
  let y := b.num * a.den
  match a.neg && !a.isZero, b.neg && !b.isZero with
  | false, false => decide (x < y)
  | true, true => decide (y < x)
  | true, false => true
  | false, true => false

/-- a ≤ b. -/
def Q.le (a b : Q) : Bool := !(b.lt a)

/-- a = b as numbers. -/
def Q.eqv (a b : Q) : Bool := a.le b && b.le a

/-- Multiply by a power of two. -/
def Q.scale (a : Q) (e : Int) : Q :=
  if 0 ≤ e then { a with num := a.num <<< e.toNat } else { a with den := a.den <<< (-e).toNat }

/-- The floor of log2 of a magnitude that is not zero. -/
def Q.log2 (a : Q) : Int :=
  let e : Int := (Nat.log2 a.num : Int) - (Nat.log2 a.den : Int)
  let s := (Q.ofNat 1).scale e
  if (a.abs).lt s then e - 1 else e

/-- The ceiling of log2 of a magnitude that is not zero. -/
def Q.ceilLog2 (a : Q) : Int :=
  let f := a.log2
  if ((Q.ofNat 1).scale f).eqv a.abs then f else f + 1

/-- The magnitude rounded to the nearest integer, ties to even. -/
def rneMag (num den : Nat) : Nat :=
  let k := num / den
  let r := num % den
  if 2 * r < den then k else if den < 2 * r then k + 1 else if k % 2 == 0 then k else k + 1

/-- The nearest integer, ties to even (the `rne` of R86 and R92). -/
def Q.rne (a : Q) : Int :=
  let m := rneMag a.num a.den
  if a.neg then -(m : Int) else (m : Int)

/-- The floor. -/
def Q.floor (a : Q) : Int :=
  if a.neg then -((ceilDiv a.num a.den : Nat) : Int) else ((a.num / a.den : Nat) : Int)

/-! ### Floating-point formats (R72) -/

/-- The parameters of a floating-point format. -/
structure FF where
  ebits : Nat
  fbits : Nat
  bias : Nat
  /-- E4M3: no infinity, and exponent 15 with fractions 0 to 6 is finite. -/
  e4m3 : Bool := false
  deriving DecidableEq, Repr

/-- FP32 (R71, R72). -/
def ff32 : FF := { ebits := 8, fbits := 23, bias := 127 }
/-- BF16. -/
def ffBF : FF := { ebits := 8, fbits := 7, bias := 127 }
/-- E4M3. -/
def ffE4 : FF := { ebits := 4, fbits := 3, bias := 7, e4m3 := true }
/-- E5M2. -/
def ffE5 : FF := { ebits := 5, fbits := 2, bias := 15 }

/-- Bits of a storage element. -/
def FF.width (f : FF) : Nat := 1 + f.ebits + f.fbits

/-- The sign bit's weight. -/
def FF.signBit (f : FF) (neg : Bool) : Nat := if neg then 2 ^ (f.ebits + f.fbits) else 0

/-- The canonical NaN (R72, R73). -/
def FF.canonNan (f : FF) : Nat :=
  if f.e4m3 then 0x7F else ((2 ^ f.ebits - 1) <<< f.fbits) + 2 ^ (f.fbits - 1)

/-- The infinity of a sign; E4M3 has none and stores 0x7F (R93). -/
def FF.infBits (f : FF) (neg : Bool) : Nat :=
  if f.e4m3 then 0x7F else f.signBit neg + ((2 ^ f.ebits - 1) <<< f.fbits)

/-- The largest finite value of a sign (R72). -/
def FF.maxBits (f : FF) (neg : Bool) : Nat :=
  f.signBit neg + (if f.e4m3 then 0x7E else ((2 ^ f.ebits - 1) <<< f.fbits) - 1)

/-- Decode an element to its exact value (R72 to R74). -/
def FF.decode (f : FF) (x : Nat) : Val :=
  let neg := bitOf x (f.ebits + f.fbits)
  let e := fld x (f.ebits + f.fbits - 1) f.fbits
  let m := fld x (f.fbits - 1) 0
  if f.e4m3 then
    if e == 15 && m == 7 then .nan
    else if e == 0 then .fin (Q.dyadic neg m (1 - (f.bias : Int) - f.fbits))
    else .fin (Q.dyadic neg (2 ^ f.fbits + m) ((e : Int) - f.bias - f.fbits))
  else if e == 2 ^ f.ebits - 1 then (if m == 0 then .inf neg else .nan)
  else if e == 0 then .fin (Q.dyadic neg m (1 - (f.bias : Int) - f.fbits))
  else .fin (Q.dyadic neg (2 ^ f.fbits + m) ((e : Int) - f.bias - f.fbits))

/-- The overflow result of a finite value (R93), one OVF event. -/
def FF.overflow (f : FF) (sat neg : Bool) : Nat × Evs :=
  (if sat then f.maxBits neg else f.infBits neg, evOvf)

/-- Encode a finite number with one rounding (the `round_to` of R92). -/
def FF.roundQ (f : FF) (sat : Bool) (a : Q) : Nat × Evs :=
  if a.isZero then (f.signBit a.neg, {}) else
  let emin : Int := 1 - (f.bias : Int)
  let e0 := max a.log2 emin
  let q0 : Int := e0 - (f.fbits : Int)
  let s := a.abs.scale (-q0)
  let n0 := rneMag s.num s.den
  let (n, q) := if n0 == 2 ^ (f.fbits + 1) then (2 ^ f.fbits, q0 + 1) else (n0, q0)
  if n < 2 ^ f.fbits then (f.signBit a.neg + n, {})
  else
    let ef := (q + f.fbits + f.bias).toNat
    let top := 2 ^ f.ebits - 1
    let m := n - 2 ^ f.fbits
    let beyond := if f.e4m3 then decide (top < ef) || (ef == top && m == 2 ^ f.fbits - 1) else decide (top ≤ ef)
    if beyond then f.overflow sat a.neg else (f.signBit a.neg + (ef <<< f.fbits) + m, {})

/-- Encode any value (R92, R93): NaN is canonical and raises nothing; an infinity converted to E4M3 raises
one OVF event when saturating and one NAN event otherwise. -/
def FF.encode (f : FF) (sat : Bool) (v : Val) : Nat × Evs :=
  match v with
  | .nan => (f.canonNan, {})
  | .inf neg => if f.e4m3 then (if sat then (f.maxBits neg, evOvf) else (0x7F, evNan)) else (f.infBits neg, {})
  | .fin q => f.roundQ sat q

/-- `fl32`: a value rounded to FP32, as its bit pattern. -/
def enc32 (sat : Bool) (v : Val) : Nat × Evs := ff32.encode sat v

/-- The exact value of an FP32 bit pattern. -/
def dec32 (x : Nat) : Val := ff32.decode x

/-- `fl32` as a value. -/
def fl32 (sat : Bool) (v : Val) : Val × Evs :=
  let r := enc32 sat v
  (dec32 r.1, r.2)

/-- `flBF` as a value. -/
def flBF (sat : Bool) (v : Val) : Val × Evs :=
  let r := ffBF.encode sat v
  (ffBF.decode r.1, r.2)

/-- −0, the start value of every fold (R100). -/
def negZero : Val := .fin ⟨true, 0, 1⟩
/-- +0. -/
def posZero : Val := .fin ⟨false, 0, 1⟩
/-- 1. -/
def oneV : Val := .fin ⟨false, 1, 1⟩

/-- The value is an infinity. -/
def Val.isInf : Val → Bool
  | .inf _ => true
  | _ => false

/-- The value is NaN. -/
def Val.isNan : Val → Bool
  | .nan => true
  | _ => false

/-- The value is neither NaN nor infinite. -/
def Val.isFin : Val → Bool
  | .fin _ => true
  | _ => false

/-- The value is a zero of either sign. -/
def Val.isZero : Val → Bool
  | .fin q => q.isZero
  | _ => false

/-- The sign of a value; NaN has none. -/
def Val.neg : Val → Bool
  | .nan => false
  | .inf n => n
  | .fin q => q.neg

/-- −x, exact (R175). -/
def Val.flip : Val → Val
  | .nan => .nan
  | .inf n => .inf (!n)
  | .fin q => .fin q.flip

/-- |x|, exact (R175). -/
def Val.abs : Val → Val
  | .nan => .nan
  | .inf _ => .inf false
  | .fin q => .fin q.abs

/-- Exact product with the special cases of R113. -/
def Val.mul : Val → Val → Val × Evs
  | .nan, _ => (.nan, {})
  | _, .nan => (.nan, {})
  | .inf a, .inf b => (.inf (a != b), {})
  | .inf a, .fin q => if q.isZero then (.nan, evNan) else (.inf (a != q.neg), {})
  | .fin q, .inf a => if q.isZero then (.nan, evNan) else (.inf (a != q.neg), {})
  | .fin p, .fin q => (.fin (p.mul q), {})

/-- Exact sum with the special cases of R113. -/
def Val.add : Val → Val → Val × Evs
  | .nan, _ => (.nan, {})
  | _, .nan => (.nan, {})
  | .inf a, .inf b => if a == b then (.inf a, {}) else (.nan, evNan)
  | .inf a, .fin _ => (.inf a, {})
  | .fin _, .inf a => (.inf a, {})
  | .fin p, .fin q => (.fin (p.add q).norm, {})

/-- Exact quotient with the special cases of R110 (div as rcp for a zero divisor). -/
def Val.div : Val → Val → Val × Evs
  | .nan, _ => (.nan, {})
  | _, .nan => (.nan, {})
  | .inf _, .inf _ => (.nan, evNan)
  | .inf a, .fin q => (.inf (a != q.neg), {})
  | .fin p, .inf b => (.fin ⟨p.neg != b, 0, 1⟩, {})
  | .fin p, .fin q =>
    if q.isZero then (if p.isZero then (.nan, evNan) else (.inf (p.neg != q.neg), evInf))
    else (.fin (p.div q), {})

/-- a < b for values that are not NaN. -/
def Val.lt : Val → Val → Bool
  | .nan, _ => false
  | _, .nan => false
  | .inf a, .inf b => a && !b
  | .inf a, .fin _ => a
  | .fin _, .inf b => !b
  | .fin p, .fin q => p.lt q

/-- max with NaN canonical and max(+0, −0) = +0 (R112). -/
def Val.max (a b : Val) : Val :=
  if a.isNan || b.isNan then .nan
  else if a.isZero && b.isZero then (if a.neg then b else a)
  else if a.lt b then b else a

/-- min with NaN canonical and min(+0, −0) = −0 (R112). -/
def Val.min (a b : Val) : Val :=
  if a.isNan || b.isNan then .nan
  else if a.isZero && b.isZero then (if a.neg then a else b)
  else if b.lt a then b else a

/-- fl32 of a product: the product point of R97. -/
def mul32 (sat : Bool) (a b : Val) : Val × Evs :=
  let p := a.mul b
  let r := fl32 sat p.1
  (r.1, p.2.add r.2)

/-- fl32 of a sum: the accumulate point of R97. -/
def add32 (sat : Bool) (a b : Val) : Val × Evs :=
  let p := a.add b
  let r := fl32 sat p.1
  (r.1, p.2.add r.2)

/-- fl32 of a quotient. -/
def div32 (sat : Bool) (a b : Val) : Val × Evs :=
  let p := a.div b
  let r := fl32 sat p.1
  (r.1, p.2.add r.2)

/-- fl32(a × b + c) with one rounding (R109). -/
def fma32 (sat : Bool) (a b c : Val) : Val × Evs :=
  let p := a.mul b
  let q := p.1.add c
  let r := fl32 sat q.1
  (r.1, (p.2.add q.2).add r.2)

/-- flBF(a × b + c) with one rounding (R109). -/
def fmaBF (sat : Bool) (a b c : Val) : Val × Evs :=
  let p := a.mul b
  let q := p.1.add c
  let r := flBF sat q.1
  (r.1, (p.2.add q.2).add r.2)

/-! ### Scales (R81, R82) -/

/-- The invalid scale that the device stores (R82). -/
def scInvalid : Nat := 0x7FC0

/-- A stored scale is valid: sign 0 and exponent field below 255 (R81). -/
def scOk (x : Nat) : Bool := !bitOf x 15 && fld x 14 7 != 255

/-- Read a scale: an invalid one is NaN with one RSVD event (R82). -/
def scDecode (x : Nat) : Val × Evs := if scOk x then (ffBF.decode x, {}) else (.nan, evRsvd)

/-- Convert to SC (R82): a zero of either sign is +0; a negative, NaN or infinite result is 0x7FC0 with an
RSVD event. -/
def scEncode (sat : Bool) (v : Val) : Nat × Evs :=
  let r := ffBF.encode sat v
  if r.1 % 0x8000 == 0 then (0, r.2)
  else if scOk r.1 then r
  else (scInvalid, r.2.add evRsvd)

/-! ### Format codes (R67) -/

/-- The twelve formats of R67. -/
inductive Fmt where
  | fp32 | bf16 | e4m3 | e5m2 | w4 | w3 | w2 | tern | gx16 | hi16 | lo16 | sc
  deriving DecidableEq, Repr

/-- The format of a code; codes 0xC to 0xF are reserved (R67). -/
def Fmt.ofCode : Nat → Option Fmt
  | 0 => some .fp32 | 1 => some .bf16 | 2 => some .e4m3 | 3 => some .e5m2
  | 4 => some .w4 | 5 => some .w3 | 6 => some .w2 | 7 => some .tern
  | 8 => some .gx16 | 9 => some .hi16 | 10 => some .lo16 | 11 => some .sc
  | _ => Option.none

/-- The code of a format. -/
def Fmt.code : Fmt → Nat
  | .fp32 => 0 | .bf16 => 1 | .e4m3 => 2 | .e5m2 => 3 | .w4 => 4 | .w3 => 5
  | .w2 => 6 | .tern => 7 | .gx16 => 8 | .hi16 => 9 | .lo16 => 10 | .sc => 11

/-- Bits per element (R69); for GX16 the mantissa. -/
def Fmt.bits : Fmt → Nat
  | .fp32 => 32 | .bf16 => 16 | .e4m3 => 8 | .e5m2 => 8 | .w4 => 4 | .w3 => 3
  | .w2 => 2 | .tern => 2 | .gx16 => 16 | .hi16 => 16 | .lo16 => 16 | .sc => 16

/-- The format is one of the four narrow weight formats. -/
def Fmt.narrow : Fmt → Bool
  | .w4 | .w3 | .w2 | .tern => true
  | _ => false

/-- The bytes of a storage unit (R69). -/
def Fmt.unit : Fmt → Nat
  | .fp32 => 4 | .bf16 => 2 | .e4m3 => 1 | .e5m2 => 1 | .w4 => 1 | .w3 => 3
  | .w2 => 1 | .tern => 1 | .gx16 => 128 | .hi16 => 2 | .lo16 => 2 | .sc => 2

/-- The elements of a storage unit (R69). -/
def Fmt.perUnit : Fmt → Nat
  | .w4 => 2 | .w3 => 8 | .w2 => 4 | .tern => 4 | .gx16 => 64
  | _ => 1

/-- The bytes that a row of `n` elements takes before padding (R69, R70). -/
def Fmt.rowBytes (f : Fmt) (n : Nat) : Nat := ceilDiv n f.perUnit * f.unit

/-- row64 of R168: the bytes of `n` elements rounded up to 64. -/
def row64 (n bits : Nat) : Nat := ceilDiv (n * bits) 512 * 64

/-- Element `k` of a row's bytes, as its bit pattern (R69). -/
def Fmt.elem (f : Fmt) (row : List Byte) (k : Nat) : Nat :=
  let u := k / f.perUnit
  let i := k % f.perUnit
  fld (leAt row (u * f.unit) f.unit) (f.bits * (i + 1) - 1) (f.bits * i)

/-- The byte offset of element `k`'s unit in its row, and the unit's bytes. -/
def Fmt.elemSpan (f : Fmt) (k : Nat) : Nat × Nat := (k / f.perUnit * f.unit, f.unit)

/-- A row's bytes from its elements' bit patterns, in ascending index (R69), padding zero (R70). -/
def Fmt.packRow (f : Fmt) (xs : List Nat) : List Byte :=
  let units := ceilDiv xs.length f.perUnit
  (List.range units).flatMap fun u =>
    let es := (xs.drop (u * f.perUnit)).take f.perUnit
    leBytes f.unit ((es.foldl (fun (acc : Nat × Nat) x => (acc.1 + (x <<< acc.2), acc.2 + f.bits)) (0, 0)).1)

/-- Decode an element of a format whose elements stand alone (R91 step 1). -/
def Fmt.decode (f : Fmt) (x : Nat) : Val × Evs :=
  match f with
  | .fp32 => (dec32 x, {})
  | .bf16 | .hi16 => (ffBF.decode x, {})
  | .e4m3 => (ffE4.decode x, {})
  | .e5m2 => (ffE5.decode x, {})
  | .sc => scDecode x
  | .tern => if x == 1 then (oneV, {}) else if x == 3 then (oneV.flip, {}) else if x == 2 then (posZero, evRsvd) else (posZero, {})
  | .w4 | .w3 | .w2 | .gx16 | .lo16 => (.fin (Q.ofNat x), {})

/-- Encode into a format whose elements stand alone (R91 step 2). HI16 takes the upper half of the FP32
encoding (R88). -/
def Fmt.encode (f : Fmt) (sat : Bool) (v : Val) : Nat × Evs :=
  match f with
  | .fp32 => enc32 sat v
  | .bf16 => ffBF.encode sat v
  | .e4m3 => ffE4.encode sat v
  | .e5m2 => ffE5.encode sat v
  | .sc => scEncode sat v
  | .hi16 => let r := enc32 sat v; (r.1 / 65536, r.2)
  | .lo16 => let r := enc32 sat v; (r.1 % 65536, r.2)
  | .w4 | .w3 | .w2 | .tern | .gx16 => (0, {})

/-! ### GX16 (R84 to R87) -/

/-- A GX16 block: the exponent byte and 64 mantissas. -/
structure Gx where
  e : Nat
  m : List Int
  deriving DecidableEq, Repr

/-- Element `k` of a block (R84, R85, R87), exactly. -/
def Gx.elem (g : Gx) (k : Nat) : Val :=
  if g.e == 0 then posZero
  else if g.e == 0xFF then .nan
  else
    let m := (g.m[k]?).getD 0
    if m == 0 then posZero else .fin (Q.dyadic (decide (m < 0)) m.natAbs ((g.e : Int) - 141))

/-- All 64 elements. -/
def Gx.vals (g : Gx) : List Val := (List.range 64).map g.elem

/-- The scaled mantissas of a block at exponent E. -/
def gxScale (qs : List Q) (E : Int) : List Int := qs.map fun q => (q.scale (14 - E)).rne

/-- Every mantissa lies within ±32,767. -/
def gxFits (ts : List Int) : Bool := ts.all fun t => t.natAbs ≤ 32767

/-- The number a finite value holds, 0 for the others. -/
def Val.q : Val → Q
  | .fin q => q
  | _ => ⟨false, 0, 1⟩

/-- to_gx16 of R86: one conversion of up to 64 values, the missing ones being padding zeros (R70). A block
with an infinity and no NaN raises one NAN event (R96); the clamp raises one OVF event. -/
def toGx (xs : List Val) : Gx × Evs :=
  let xs := (xs ++ List.replicate (64 - xs.length) posZero).take 64
  let none0 : List Int := List.replicate 64 0
  if xs.any Val.isNan then (⟨0xFF, none0⟩, {})
  else if xs.any Val.isInf then (⟨0xFF, none0⟩, evNan)
  else
    let qs := xs.map Val.q
    let a := qs.foldl (fun (m : Q) q => if m.lt q.abs then q.abs else m) ⟨false, 0, 1⟩
    if a.isZero then (⟨0, none0⟩, {})
    else
      let E : Int := min (max a.log2 (-126)) 127
      let t := gxScale qs E
      if gxFits t then (⟨(E + 127).toNat, t⟩, {})
      else if E == 127 then (⟨254, t.map (clampI (-32767) 32767)⟩, evOvf)
      else
        let t1 := gxScale qs (E + 1)
        if gxFits t1 then (⟨(E + 128).toNat, t1⟩, {})
        else (⟨254, t1.map (clampI (-32767) 32767)⟩, evOvf)

/-- The 128 mantissa bytes of a block (R69). -/
def Gx.mantBytes (g : Gx) : List Byte :=
  (List.range 64).flatMap fun k => leBytes 2 (unsigned 16 ((g.m[k]?).getD 0))

/-- A block from its 128 mantissa bytes and its exponent byte. -/
def Gx.ofBytes (e : Nat) (bs : List Byte) : Gx :=
  ⟨e, (List.range 64).map fun k => signed 16 (leAt bs (2 * k) 2)⟩

/-- comb of R268: both blocks decoded exactly, added exactly, encoded once. A non-finite input gives 0xFF
with no event. -/
def Gx.comb (a b : Gx) : Gx × Evs :=
  if a.e == 0xFF || b.e == 0xFF then (⟨0xFF, List.replicate 64 0⟩, {})
  else toGx ((List.range 64).map fun k => ((a.elem k).add (b.elem k)).1)

/-! ### Codebook codes (R76 to R80) -/

/-- The number of codebook entries of a narrow format (R76). -/
def Fmt.entries : Fmt → Nat
  | .w4 => 16 | .w3 => 8 | .w2 => 4
  | _ => 0

/-- The entries of a codebook record (R76), as BF16 bit patterns. -/
def codebookOf (f : Fmt) (bs : List Byte) : List Nat := (List.range f.entries).map fun i => leAt bs (2 * i) 2

/-- The 64-byte record of a codebook (R76). -/
def codebookBytes (v : List Nat) : List Byte := padTo 64 (v.flatMap (leBytes 2))

/-- R77: every entry finite, and the entries strictly ascending. -/
def codebookOk (v : List Nat) : Bool :=
  v.all (fun x => (ffBF.decode x).isFin) &&
  ((List.range (v.length - 1)).all fun i => (ffBF.decode ((v[i]?).getD 0)).lt (ffBF.decode ((v[i+1]?).getD 0)))

/-- The entry a code selects, or the ternary value, with the events of decoding it (R78, R79). -/
def codeVal (f : Fmt) (book : List Nat) (c : Nat) : Val × Evs :=
  match f with
  | .tern => Fmt.tern.decode c
  | _ => (ffBF.decode ((book[c]?).getD 0), {})

/-- The candidates of an encoding: pairs of a code and its entry value (R80). TERN lists t = 0 first, so
that a remaining tie goes to 0. -/
def codeCands (f : Fmt) (book : List Nat) : List (Nat × Val) :=
  match f with
  | .tern => [(0, posZero), (1, oneV), (3, oneV.flip)]
  | _ => (List.range f.entries).map fun i => (i, ffBF.decode ((book[i]?).getD 0))

/-- a is no larger in magnitude than b, a NaN counting as infinite (R80). -/
def magLt (a b : Val) : Bool :=
  match a, b with
  | .fin p, .fin q => p.abs.lt q.abs
  | .fin _, _ => true
  | _, _ => false

/-- The code whose entry has the smallest magnitude, the first in list order on a tie (R80). -/
def smallestCode (cands : List (Nat × Val)) : Nat :=
  match cands with
  | [] => 0
  | c :: cs => (cs.foldl (fun (b : Nat × Val) x => if magLt x.2 b.2 then x else b) c).1

/-- The distance |x − s × v| of R80, `none` for +∞ (an entry that is not finite). -/
def codeDist (x s : Q) (v : Val) : Option Q :=
  match v with
  | .fin q => some (x.sub (s.mul q)).abs
  | _ => Option.none

/-- Candidate `x` beats `b`: it is nearer, or as near and smaller in magnitude (R80). -/
def codeBetter (b x : Option Q × (Nat × Val)) : Bool :=
  match x.1, b.1 with
  | some dx, some db => dx.lt db || (dx.eqv db && magLt x.2.2 b.2.2)
  | some _, Option.none => true
  | Option.none, some _ => false
  | Option.none, Option.none => magLt x.2.2 b.2.2

/-- Encode `x` into a row of scale `s` (R80). `s = none` is the invalid scale: every finite entry is then at
the same distance. A NaN or infinite `x` writes the smallest-magnitude code and raises its event (R114: an
infinity counts as OVF, a NaN as NAN). -/
def codeEncode (f : Fmt) (book : List Nat) (s : Option Q) (x : Val) : Nat × Evs :=
  let cands := codeCands f book
  match x with
  | .nan => (smallestCode cands, evNan)
  | .inf _ => (smallestCode cands, evOvf)
  | .fin q =>
    let sq := s.getD ⟨false, 0, 1⟩
    let ds := cands.map fun c => (codeDist q sq c.2, c)
    match ds with
    | [] => (0, {})
    | d :: rest => ((rest.foldl (fun b y => if codeBetter b y then y else b) d).2.1, {})

/-- The next BF16 value above a finite one (R146). -/
def nextBF (x : Nat) : Nat :=
  if x == 0x8000 then 1 else if bitOf x 15 then x - 1 else x + 1

end Sys2Proof.Machine
end

