-- ==== Sys2Proof/Machine/StateCore.lean ====
section
/-! DEFINITION. The records that State is made of, first part: clock, tick, contexts, partitions, clusters,
channels and the loader (spec/00_scope.md to spec/10_avavo_images_and_loader.md, spec/17_partitions_reset_and_recovery.md).
A field's default value is its value at reset. -/

namespace Sys2Proof.Machine

/-- A pending paired-write sequence of one access path (R16): the pair's address and the words received. -/
structure PairSeq where
  base : Nat
  words : List Nat
  deriving DecidableEq, Repr

/-- A pair latched by an access path (R15): its words and the clk of the latch. -/
structure PairLatch where
  path : Nat
  base : Nat
  words : List Nat
  at_ : Nat
  deriving DecidableEq, Repr

/-- One region's cluster map (R35): the three paired words of GLB_CLUSTER_MAP. Reset: no defect marked. (DESIGN CHOICE, unsafe: notes/assumptions/7.md.) -/
structure RegionMap where
  lo : Paired 32 := pairOf 32 0xFFFFFFFF
  mid : Paired 32 := pairOf 32 0xFFFFFFFF
  hi : Paired 32 := pairOf 32 0x504800FF
  deriving DecidableEq, Repr

/-- GLB: what identifies the device and its configuration (R13, R35, R273, R428, R441). -/
structure Glb where
  maps : List RegionMap := List.replicate 16 {}
  deterministic : Bool := false
  detRefused : Bool := false
  cfgGen : Nat := 0
  ctxSel : Nat := 0
  /-- the configuration digest last computed, as SHA-256 bytes read little-endian -/
  cfgDigest : Nat := 0
  /-- inputs of the digest changed since it was computed (R428) -/
  digestStale : Bool := true
  sem : List Nat := [0, 0, 0]
  deriving DecidableEq, Repr

/-- The TICK block and the alignment (R48 to R64). -/
structure Tick where
  period : Nat := 0x10
  periodNext : Option Nat := none
  holdoverMax : Nat := 0x40
  role : Bool := false
  backupPort : Nat := 0x3F
  upstreamPort : Nat := 0x3F
  /-- role, backup and upstream written and in force from the next edge -/
  ctrlNext : Option (Bool × Nat × Nat) := none
  aligned : Bool := false
  holdover : Bool := false
  periodRefused : Bool := false
  digestDiffers : Bool := false
  hopCount : Nat := 0xF
  holdoverTicks : Nat := 0
  lastError : Int := 0
  drop : Nat := 0
  number : Paired 64 := pairOf 64 0
  slipMax : Nat := 4
  startCtx : Nat := 0
  startAt : Paired 64 := pairOf 64 0
  everAligned : Bool := false
  adoptNext : Bool := false
  rootId : Nat := 0
  onBackup : Bool := false
  lastEdge : Nat := 0
  /-- alignment error still to be applied, in clk (R50) -/
  residual : Int := 0
  /-- correction of the current tick's length, within ±4 clk -/
  corr : Int := 0
  corrections : List Int := []
  delays : List Nat := []
  acceptedThisTick : Bool := false
  configMismatchTold : Bool := false
  ticksSinceEcho : Nat := 0
  /-- beacons sent of late: port, tick number, clk -/
  beaconSent : List (Nat × Nat × Nat) := []
  /-- round-trip delays measured and to be returned in the next beacon of a port -/
  delayBack : List (Nat × Nat) := []
  lastBeaconClk : Nat := 0
  lastBeacon : Option Beacon := none
  deriving DecidableEq, Repr

/-- The power governor and PWR words of R65. Power in units of 0.1 W. -/
structure Gov where
  slew : Nat := 0xC35
  pEst : Nat := 0
  pBallast : Nat := 0
  slewViol : Nat := 0
  /-- running energy of the tick at the last check, as a mean power -/
  running : Nat := 0
  checks : Nat := 0
  /-- clusters whose matrix-unit issue is withheld (R60) -/
  gated : Nat := 0
  /-- the context that the present ballast is charged to; `none` = the device total (R62) -/
  ballastCtx : Option Nat := none
  deriving DecidableEq, Repr

/-- One start of a context (R54 to R56, R64). -/
structure Start where
  /-- 0 idle, 1 armed, 2 ramping, 3 released, 4 refused_late, 5 refused_not_ready, 6 withheld_unaligned -/
  state : Nat := 0
  s : Nat := 0
  p1 : Nat := 0
  deriving DecidableEq, Repr

/-- ARITH sets of one context (R117, R153). -/
structure Arith where
  cnt : List Nat := [0, 0, 0, 0]
  recValid : Bool := false
  recClass : Nat := 0
  recStatus : Nat := 0
  recUnit : Nat := 0
  recLoc : Nat := 0
  recInstr : Nat := 0
  recTick : Nat := 0
  recRow : Nat := 0
  recCol : Nat := 0
  stopMask : Nat := 0
  calibRuns : Nat := 0
  calibKept : Nat := 0
  samplesTotal : Nat := 0
  deriving DecidableEq, Repr

/-- One drift-monitor slot (R153). -/
structure Drift where
  fallen : Bool := false
  fmtNow : Nat := 0
  fallbackFmt : Nat := 0
  trip : Nat := 0
  exceed : Nat := 0
  samples : Nat := 0
  lastRatio : Nat := 0
  limit : Nat := 0
  tripped : Bool := false
  told : Bool := false
  deriving DecidableEq, Repr

/-- MEM sets of one context: window and first fault (R181, R204). -/
structure MemCtx where
  win : Paired 32 := pairOf 32 0
  fValid : Bool := false
  fStatus : Nat := 0
  fUnit : Nat := 0
  fSpace : Nat := 0
  fLoc : Nat := 0
  fAddr : Nat := 0
  fTick : Nat := 0
  deriving DecidableEq, Repr

/-- SYNC_CENSUS of one context (R221). -/
structure Census where
  runs : Nat := 0
  mismatches : Nat := 0
  minted : Nat := 0
  lastTotal : Nat := 0
  recValid : Bool := false
  gpart : Nat := 0
  counter : Nat := 0
  failKind : Nat := 0
  obj : Nat := 0
  found : Nat := 0
  expected : Nat := 0
  deriving DecidableEq, Repr

/-- One section-table entry (R225), offsets and sizes in units of 64 bytes. -/
structure Sec where
  typ : Nat
  size : Nat
  off : Nat
  place : Nat
  deriving DecidableEq, Repr

/-- One buffer declaration (R228). -/
structure Buf where
  addr : Nat
  size : Nat
  cm : Bool
  zeroDef : Bool
  cluster : Nat
  part : Nat
  banks : Nat
  initOff : Nat
  initLen : Nat
  deriving DecidableEq, Repr

/-- What the loader keeps of a loaded image (R223 to R232, R239). -/
structure Image where
  secs : List Sec := []
  partCount : Nat := 0
  period : Nat := 0
  stopMask : Nat := 0
  training : Bool := false
  calibEvery : Nat := 0
  ranksHosted : Nat := 0
  ranksTotal : Nat := 0
  rankBase : Nat := 0
  slew : Nat := 0
  bufs : List Buf := []
  power : List Nat := []
  /-- boundary counts, 2,048 for each partition of the context (R230) -/
  bounds : List Nat := []
  /-- Pack groups: base, stride, count (R231) -/
  groups : List (Nat × Nat × Nat) := []
  /-- the Pack table entries the groups took (R239, R279) -/
  packAt : List Nat := []
  /-- bytes of the image's unplaced sections and streams, kept for the fit repeated after a Welt change (R238) -/
  bytes : List Byte := []
  digest : List Byte := []
  deriving DecidableEq, Repr

/-- PART_LOAD_STATE of one context (R241). -/
structure LoadCtx where
  /-- 0 empty, 1 fetching, 2 checking, 3 committing, 4 loaded, 5 unloading -/
  state : Nat := 0
  status : Nat := 0
  reason : Nat := 0
  section_ : Nat := 0
  index : Nat := 0xFFFFFFFF
  loads : Nat := 0
  fetchStatus : Nat := 0
  digest32 : Nat := 0
  /-- the context configuration digest (R427), as SHA-256 bytes read little-endian -/
  ctxDigest : Nat := 0
  img : Image := {}
  deriving DecidableEq, Repr

/-- How a context runs: its steps, its stops and its boundary. -/
structure CtxRun where
  /-- global partitions assigned, PART_ASSIGN (R364) -/
  assign : Paired 64 := pairOf 64 0
  stopped : Bool := false
  /-- a stop takes effect at the next tick edge (R115) -/
  stopNext : Bool := false
  /-- a census failure holds the context until a rollback or unload (R217) -/
  broken : Bool := false
  /-- tick edge at which the first segment of the step was released -/
  stepBase : Nat := 0
  /-- the step boundary barrier of the last step is complete, and the next step's first segment is due (R47) -/
  boundary : Bool := true
  /-- a step is being run -/
  inStep : Bool := false
  /-- number of the step in progress or next to run (13 R281) -/
  step : Nat := 0
  /-- phases issued in this step on each group, keyed by section index (R266) -/
  phases : List (Nat × Nat) := []
  /-- an unload was asked for and runs at the next barrier (R240) -/
  unloadDue : Bool := false
  /-- the tail of a step is being replayed (R296) -/
  tail : Bool := false
  deriving DecidableEq, Repr

/-- PART_STATE of one partition and its fence and reset (R372, R374, R382). -/
structure PartCtl where
  /-- 0 running, 1 fencing, 2 fenced, 3 resetting, 4 failed -/
  state : Nat := 0
  cause : Nat := 0
  resetResult : Nat := 0
  residentValid : Bool := false
  resident : Nat := 0
  nextValid : Bool := false
  next : Nat := 0
  fences : Nat := 0
  resets : Nat := 0
  quarantined : Nat := 0
  lastResetMs : Nat := 0
  /-- parked for this incoming context (R365) -/
  parkedFor : Option Nat := none
  /-- clk in which the fence was raised -/
  fenceClk : Nat := 0
  /-- a reset runs when the fence is complete (R384), with this full_search -/
  resetAfter : Option Bool := none
  fullSearch : Bool := false
  /-- reset phase 1 to 5 in progress, 0 none (R374) -/
  phase : Nat := 0
  resetClk : Nat := 0
  settleFailed : Bool := false
  /-- saved link and memory settings of the partition were replaced by a full search (R374) -/
  searched : Nat := 0
  deriving DecidableEq, Repr

/-- SHEEPDOG_PART and TICK_PART_OVERRUN of one partition (R64, R366, R383). -/
structure PartMon where
  hangAction : Nat := 1
  hangTicks : Nat := 0x7A12
  quiet : Nat := 0
  hangs : Nat := 0
  /-- the hang of the present quiet spell was reported (R368) -/
  hangTold : Bool := false
  progress : Bool := false
  slip : Nat := 0
  overruns : Nat := 0
  deriving DecidableEq, Repr

/-- Sync state of one partition (R206, R214). Unlisted objects hold 0. -/
structure PartSync where
  objs : List (Nat × Paired 16) := []
  inHand : Paired 16 := pairOf 16 0
  out : Paired 16 := pairOf 16 0
  stranded : Paired 16 := pairOf 16 0
  /-- objects frozen because their pair broke (R217) -/
  frozen : List Nat := []
  deriving DecidableEq, Repr

/-- One partition. -/
structure Part where
  ctl : PartCtl := {}
  mon : PartMon := {}
  sync : PartSync := {}
  deriving DecidableEq, Repr

/-- One unit of at most 64 bytes on its way to a destination (R200): the space, the partition and cluster or
the port, the address and the bytes. -/
structure UnitW where
  space : Nat
  addr : Nat
  bytes : List Byte
  /-- a unit cut short by a stopping event is stored but not counted (R200) -/
  counts : Bool := true
  deriving DecidableEq, Repr

/-- One entry of an accumulator bank or of the partial sums: acc and acc_side as FP32 patterns (R104, R126). -/
structure Acc where
  acc : Nat := 0x80000000
  side : Nat := 0x80000000
  /-- event classes already counted for the element, one bit each (R114) -/
  ev : Nat := 0
  deriving DecidableEq, Repr

/-- An accumulator bank (R126): 0 free, 1 filling, 2 complete. -/
structure Bank where
  state : Nat := 0
  /-- the output tile it holds: record, cluster-tile number, stream origin, column origin -/
  idx : Nat := 0
  tile : Nat := 0
  so : Nat := 0
  co : Nat := 0
  /-- number of the last pass that folds into it -/
  lastPass : Nat := 0
  accs : List (Nat × Acc) := []
  deriving DecidableEq, Repr

/-- A record taken from its unit's queue: started and not yet retired (R159, R172). -/
structure Run where
  /-- index in the cluster's expanded stream -/
  idx : Nat
  unit : Nat
  /-- the 512 bits of the record -/
  rec_ : Nat
  /-- its index in the code section, in units of 64 B (R117) -/
  instr : Nat
  /-- repetition number, for banked buffers (R227) -/
  rep : Nat
  /-- clk of its dispatch -/
  disp : Nat := 0
  /-- tokens taken and held (R172) -/
  taken : Nat := 0
  /-- stop_mask in force when it issued (R119) -/
  mask : Nat := 0
  status : Nat := 0
  /-- next pass, Awl tile or stage of the work -/
  next : Nat := 0
  /-- every pass has been issued: the unit may start its next record (R159) -/
  issued : Bool := false
  /-- its work is complete and it may retire -/
  finished : Bool := false
  /-- ordinal of the first output tile that a failed fetch keeps from being stored (R179) -/
  failTile : Option Nat := none
  /-- output tiles completed so far -/
  tilesDone : Nat := 0
  /-- partial sums of output tiles that wait for later chunks (R167) -/
  partials : List (Nat × Acc) := []
  /-- FP32 rows kept until their token scale is known (R177) -/
  rows : List (Nat × Nat) := []
  units : List UnitW := []
  /-- units accepted (R200) -/
  prog : Nat := 0
  total : Nat := 0
  begun : Bool := false
  /-- infinite elements, invalid scales and table pairs already counted (R114) -/
  seen : List Nat := []
  /-- a stopping event was raised (R115) -/
  stopped : Bool := false
  /-- number of the level-1 cluster tile in progress (R167) -/
  tile : Nat := 0
  /-- phase or slot bookkeeping of Cobbler passes, collective phases and port transfers -/
  aux : List Nat := []
  /-- what a Cobbler pass preloaded (R249), or the bytes in order that a port copy has received and not consumed -/
  blob : List Byte := []
  /-- bytes that a port copy received ahead of their turn: offset in the source stream and bytes (R402) -/
  pieces : List (Nat × List Byte) := []
  /-- counts of a collective phase, keyed by member, stage and kind (R266, R274) -/
  cnts : List (Nat × Nat) := []
  /-- destination bytes of a port copy not yet cut into units -/
  out : List Byte := []
  deriving DecidableEq, Repr

/-- A record waiting in a unit's queue (R159). -/
structure Queued where
  idx : Nat
  unit : Nat
  rec_ : Nat
  instr : Nat
  rep : Nat
  disp : Nat
  deriving DecidableEq, Repr

/-- An outstanding read of a port (R402, R404, R407): what asked for it and which bytes it brings. -/
structure PortTag where
  id : Nat
  /-- 2 host, 3 storage -/
  space : Nat
  /-- host function or queue pair -/
  qp : Nat
  ctx : Nat
  g : Nat
  n : Nat
  idx : Nat
  /-- 0 a Retriever copy, 1 a load, 2 a checkpoint restore -/
  op : Nat
  /-- offset in the source stream, the file or the shard of the first byte it brings -/
  off : Nat
  addr : Nat
  len : Nat
  clk : Nat
  retries : Nat := 0
  quarantined : Bool := false
  /-- it counts in PART_STATE quarantined of partition `g` (R372) -/
  held : Bool := false
  deriving DecidableEq, Repr

/-- One cluster: its stream, its queues, its accumulators (R25, R126, R154, R159, R161). (DESIGN CHOICE, unsafe: notes/assumptions/10.md.) -/
structure Clu where
  pos : Nat := 0
  segOpen : Bool := false
  segEdge : Nat := 0
  /-- the overrun of the segment in progress was counted -/
  segLate : Bool := false
  ended : Bool := false
  queue : List Queued := []
  runs : List Run := []
  /-- banks 0 and 1 of matrix unit 0, 2 and 3 of matrix unit 1, 4 the Awl's accumulators -/
  banks : List Bank := [{}, {}, {}, {}, {}]
  /-- of each matrix unit: clk at which its last pass entered, that pass's length (0: none), its stationary data -/
  lastPass : List (Nat × Nat × Nat) := [(0, 0, 0), (0, 0, 0)]
  /-- scrub: next line of each of the 8 banks and clk of its last access (R197) -/
  scrubNext : List Nat := [0, 0, 0, 0, 0, 0, 0, 0]
  scrubClk : List Nat := [0, 0, 0, 0, 0, 0, 0, 0]
  ce : Nat := 0
  ue : Nat := 0
  deriving DecidableEq, Repr

/-- The traffic generator of one channel (R202, R204). -/
structure TrafGen where
  mode : Nat := 0
  pattern : Nat := 0
  inject : Bool := false
  passes : Nat := 1
  baseK : Nat := 0
  countK : Nat := 0
  seed : Nat := 1
  busy : Bool := false
  done : Bool := false
  mismatch : Bool := false
  lastStatus : Nat := 0
  passesDone : Nat := 0
  errCount : Nat := 0
  errValid : Bool := false
  errRow : Nat := 0
  errXor : Nat := 0
  errWord : Nat := 0
  /-- a stop was written: the run ends with the granule in progress -/
  stopping : Bool := false
  deriving DecidableEq, Repr

/-- A pass waiting in or running on a Cobbler queue (R249). -/
structure CobPass where
  g : Nat
  n : Nat
  idx : Nat
  ctx : Nat
  deriving DecidableEq, Repr

/-- One bulk channel: statistics, scrub, traffic generator, Cobbler (R180, R197, R204, R249, R260). -/
structure Chan where
  ce : Nat := 0
  ue : Nat := 0
  scrubPasses : Nat := 0
  poisoned : Nat := 0
  ueValid : Bool := false
  lastUeRow : Nat := 0
  scrubRow : Nat := 0
  /-- the beat of the granule that scrub reads next, 0 lower, 1 upper -/
  scrubBeat : Nat := 0
  scrubClk : Nat := 0
  tg : TrafGen := {}
  cobPasses : Nat := 0
  cobSkipped : Nat := 0
  cobBusy : Bool := false
  cobPhase : Nat := 0
  cobStatus : Nat := 0
  cobCtx : Nat := 0
  cobElements : Nat := 0
  cobQueue : List CobPass := []
  /-- passes that reached the full queue, in order (R249) -/
  cobWait : List CobPass := []
  deriving DecidableEq, Repr

/-- A corrected word waiting for an unclaimed slot (R196): the granule and the word of it. -/
structure WriteBack where
  granule : Nat
  word : Nat
  deriving DecidableEq, Repr

/-- MEM control words (R204) and the memory arrays. -/
structure MemCtl where
  bulkEn : Bool := true
  cmEn : Bool := true
  interval : Nat := 0x400
  wCluster : Nat := 6
  wCobbler : Nat := 6
  wPort : Nat := 4
  wTg : Nat := 0
  arbNext : Option (Nat × Nat × Nat × Nat) := none
  winRefused : Bool := false
  arbRefused : Bool := false
  lastRefusal : Nat := 0
  refusedCtx : Nat := 0
  writeBacks : List WriteBack := []
  deriving DecidableEq, Repr

/-- A send of a sync-object record on its way (R213). -/
structure Send where
  id : Nat
  src : Nat
  n : Nat
  idx : Nat
  dst : Nat
  obj : Nat
  tokens : Nat
  remote : Bool
  due : Nat
  /-- Welt links crossed (R23) -/
  hops : Nat
  /-- 0 on its way, 1 applied and acknowledgement on its way -/
  phase : Nat
  deriving DecidableEq, Repr

/-- SYNC block registers (R221). -/
structure SyncCtl where
  selPart : Nat := 0
  cmdCtx : Nat := 0
  /-- clk up to which the last command runs (R211, R216) -/
  busyTo : Nat := 0
  cmdRefused : Bool := false
  lastStatus : Nat := 0
  sends : List Send := []
  nextSend : Nat := 0
  deriving DecidableEq, Repr

/-- Loader registers and the load in progress (R233, R234, R241, R242). -/
structure LoadCtl where
  src : Nat := 0
  qp : Nat := 0
  ctx : Nat := 0
  addr : Paired 64 := pairOf 64 0
  len : Nat := 0
  rankCount : Nat := 0
  rankBase : Nat := 0
  /-- the context of the load in progress -/
  busy : Option Nat := none
  curSrc : Nat := 0
  curQp : Nat := 0
  curLen : Nat := 0
  curRankCount : Nat := 0
  curRankBase : Nat := 0
  curAddr : Nat := 0
  /-- the bytes fetched in file order -/
  bytes : List Byte := []
  /-- bytes fetched ahead of their turn: offset and bytes -/
  pieces : List (Nat × List Byte) := []
  /-- offset of the next request -/
  asked : Nat := 0
  /-- MEM_CTX_WIN was rewritten since the go (R242) -/
  winChanged : Bool := false
  deriving DecidableEq, Repr

/-- PART block command registers (R382). -/
structure PartRegs where
  fullSearch : Bool := false
  ctx : Nat := 0
  gpart : Nat := 0
  cmdRefused : Bool := false
  refuseReason : Nat := 0
  lastStatus : Nat := 0
  drainLimit : Nat := 0x3E8
  deriving DecidableEq, Repr

/-- One Sheepdog entry (R370), with whether it was acknowledged (R383) and which datagram carried it (R424). -/
structure Event where
  tickLo : Nat
  detail : Nat
  loc : Nat
  ctx : Nat
  gpart : Nat
  source : Nat
  status : Nat
  severity : Nat
  repeat_ : Nat := 0
  acked : Bool := false
  sent : Bool := false
  dgram : Nat := 0
  /-- clk at which it was queued (R424) -/
  clk : Nat := 0
  deriving DecidableEq, Repr

/-- The package Sheepdog aggregator and the lease (R369, R376, R383). -/
structure Dog where
  queue : List Event := []
  lost : Nat := 0
  lease : Paired 32 := pairOf 32 0
  /-- 0 off, 1 valid, 2 lapsed -/
  leaseState : Nat := 0
  /-- clk at which the lease runs out -/
  leaseEnd : Nat := 0
  lapses : Nat := 0
  grantsRefused : Nat := 0
  deriving DecidableEq, Repr

end Sys2Proof.Machine
end

