-- ==== Sys2Proof/Machine/StateFab.lean ====
section
/-! DEFINITION. The records that State is made of: the Pack table and the fabric
(spec/12_gradient_exchange_and_collectives.md R279, spec/15_fabric_links_and_topology.md). A field's default value is
its value at reset. -/

namespace Sys2Proof.Machine

/-- PACK_ENTRY (R279). -/
structure PackEntry where
  valid : Bool := false
  stride : Nat := 0
  base : Nat := 0
  ctx : Nat := 0
  count : Nat := 0
  deriving DecidableEq, Repr

/-- PACK_CTX (R279). -/
structure PackCtx where
  phases : Nat := 0
  lastStatus : Nat := 0
  lastGroup : Nat := 0
  staleDrops : Nat := 0
  clamps : Nat := 0
  combined : Nat := 0
  deriving DecidableEq, Repr

/-- One virtual channel of a port, both directions (R322 to R326). (DESIGN CHOICE, unsafe: notes/assumptions/11.md.) -/
structure Vc where
  /-- as sender: pool, credits held H, returns received R_s, next sequence number, frames sent -/
  pool : Nat := 0
  h : Paired 16 := pairOf 16 0
  rs : Paired 32 := pairOf 32 0
  seq : Nat := 0
  sent : Nat := 0
  /-- unacknowledged frames, oldest first -/
  kept : List (Nat × Cell) := []
  /-- replays in a row of the oldest of them -/
  replays : Nat := 0
  /-- cells given to the port that wait for a credit -/
  queue : List Cell := []
  /-- as receiver: buffers occupied O, returns sent R_r, next sequence number expected, frames received -/
  o : Paired 16 := pairOf 16 0
  rr : Paired 32 := pairOf 32 0
  rx : Nat := 0
  got : Nat := 0
  /-- the pool that this receiver advertised -/
  rpool : Nat := 0
  /-- buffers freed while the circuit was frozen, whose returns are owed (R358) -/
  owed : Nat := 0
  deriving DecidableEq, Repr

/-- FAB_PORT (R342) and the link behind it. -/
structure FabPort where
  /-- 0 off, 1 training, 2 hello, 3 up, 4 quarantined, 5 failed -/
  state : Nat := 0
  width : Nat := 0
  gen : Nat := 0
  lastStatus : Nat := 0
  degraded : Bool := false
  expDev : Nat := 0xFFF
  expPort : Nat := 0x3F
  expSwitch : Bool := false
  none_ : Bool := false
  dateline : Bool := false
  roleCheck : Bool := false
  peerDev : Nat := 0xFFF
  peerPort : Nat := 0x3F
  peerRole : Nat := 0
  peerSerial : Nat := 0
  crcErrors : Nat := 0
  retrains : Nat := 0
  censusFail : Nat := 0
  dropped : Nat := 0
  foreign : Nat := 0
  noRoute : Nat := 0
  vcs : List Vc := [{}, {}, {}]
  /-- the training in progress is a full search (R327) -/
  search : Bool := false
  /-- clk of the last valid frame, and at which it failed -/
  lastFrame : Nat := 0
  failedAt : Nat := 0
  /-- kinds of discard last reported, with their ticks (R330) -/
  told : List (Nat × Nat) := []
  digestTold : Bool := false
  deriving DecidableEq, Repr

/-- FAB_JOB (R342) and its park (R331): the packets parked, oldest first, with the port each came by. -/
structure FabJob where
  jobId : Nat := 0
  epoch : Paired 32 := pairOf 32 0
  valid : Bool := false
  park : List (Nat × Packet) := []
  deriving DecidableEq, Repr

/-- A packet that waits in the buffers of a port (R266, R330, R331): port (63 none), channel, the generation in
which it arrived. -/
structure HeldPkt where
  port : Nat
  vc : Nat
  gen : Nat
  pkt : Packet
  deriving DecidableEq, Repr

/-- The FAB block (R342). -/
structure Fab where
  dev : Paired 32 := pairOf 32 0xFFF
  devNext : Option Nat := none
  sysid : Nat := 0
  cmdPort : Nat := 0
  pending : Bool := false
  cmdRefused : Bool := false
  lastStatus : Nat := 0
  rmapSlot : Nat := 0
  rmapPage : Nat := 0
  ports : List (Nat × FabPort) := []
  jobs : List (Nat × FabJob) := []
  /-- FAB_ROUTE words: shadow and in service -/
  routeSh : List (Nat × Nat) := []
  route : List (Nat × Nat) := []
  /-- FAB_RMAP words, keyed by slot × 16,384 + rank: shadow and in service -/
  rmapSh : List (Nat × Nat) := []
  rmap : List (Nat × Nat) := []
  /-- packets of the device that have no port yet (R332) -/
  waiting : List Packet := []
  held : List HeldPkt := []
  deriving DecidableEq, Repr

end Sys2Proof.Machine
end

