-- ==== Sys2Proof/Machine/Digest.lean ====
section
/-! DEFINITION. Digests and signature checks: the ledger digest dg of R287 (two CRC-64s), SHA-256 and SHA-384
(FIPS 180-4, named by spec/10 R223, spec/14 R311 and spec/18 R391), and the check of an ECDSA P-384 signature
(FIPS 186-5, named by R311, R391 and spec/21 R458). The constants of the named standards are theirs
(PRESUMED, safe: notes/assumptions/16.md). -/

namespace Sys2Proof.Machine

/-! ### The ledger digest (R287) -/

/-- Eight shifts of the ECMA-182 register. -/
def crcA : Nat → Nat → Nat
  | 0, a => a
  | n + 1, a =>
    crcA n (if bitOf a 63 then ((a <<< 1) % 2 ^ 64) ^^^ 0x42F0E1EBA9EA3693 else (a <<< 1) % 2 ^ 64)

/-- Eight shifts of the reflected ISO 3309 register. -/
def crcZ : Nat → Nat → Nat
  | 0, z => z
  | n + 1, z => crcZ n (if bitOf z 0 then (z >>> 1) ^^^ 0xD800000000000000 else z >>> 1)

/-- A running dg: the two registers. -/
structure Dg where
  a : Nat := 0
  z : Nat := 0xFFFFFFFFFFFFFFFF
  deriving DecidableEq, Repr

/-- One more byte. -/
def Dg.byte (d : Dg) (b : Byte) : Dg := ⟨crcA 8 (d.a ^^^ (b.toNat <<< 56)), crcZ 8 (d.z ^^^ b.toNat)⟩

/-- More bytes. -/
def Dg.bytes (d : Dg) (bs : List Byte) : Dg := bs.foldl Dg.byte d

/-- The 128-bit value. -/
def Dg.value (d : Dg) : Nat := ((d.z ^^^ 0xFFFFFFFFFFFFFFFF) <<< 64) + d.a

/-- dg of a byte list (R287). -/
def dg (bs : List Byte) : Nat := (Dg.bytes {} bs).value

/-! ### SHA-2 -/

/-- The first 64 round constants of SHA-256 are the upper halves of these 80 constants of SHA-384. -/
def shaK : List Nat :=
  [0x428a2f98d728ae22, 0x7137449123ef65cd, 0xb5c0fbcfec4d3b2f, 0xe9b5dba58189dbbc]
  ++ [0x3956c25bf348b538, 0x59f111f1b605d019, 0x923f82a4af194f9b, 0xab1c5ed5da6d8118]
  ++ [0xd807aa98a3030242, 0x12835b0145706fbe, 0x243185be4ee4b28c, 0x550c7dc3d5ffb4e2]
  ++ [0x72be5d74f27b896f, 0x80deb1fe3b1696b1, 0x9bdc06a725c71235, 0xc19bf174cf692694]
  ++ [0xe49b69c19ef14ad2, 0xefbe4786384f25e3, 0xfc19dc68b8cd5b5, 0x240ca1cc77ac9c65]
  ++ [0x2de92c6f592b0275, 0x4a7484aa6ea6e483, 0x5cb0a9dcbd41fbd4, 0x76f988da831153b5]
  ++ [0x983e5152ee66dfab, 0xa831c66d2db43210, 0xb00327c898fb213f, 0xbf597fc7beef0ee4]
  ++ [0xc6e00bf33da88fc2, 0xd5a79147930aa725, 0x6ca6351e003826f, 0x142929670a0e6e70]
  ++ [0x27b70a8546d22ffc, 0x2e1b21385c26c926, 0x4d2c6dfc5ac42aed, 0x53380d139d95b3df]
  ++ [0x650a73548baf63de, 0x766a0abb3c77b2a8, 0x81c2c92e47edaee6, 0x92722c851482353b]
  ++ [0xa2bfe8a14cf10364, 0xa81a664bbc423001, 0xc24b8b70d0f89791, 0xc76c51a30654be30]
  ++ [0xd192e819d6ef5218, 0xd69906245565a910, 0xf40e35855771202a, 0x106aa07032bbd1b8]
  ++ [0x19a4c116b8d2d0c8, 0x1e376c085141ab53, 0x2748774cdf8eeb99, 0x34b0bcb5e19b48a8]
  ++ [0x391c0cb3c5c95a63, 0x4ed8aa4ae3418acb, 0x5b9cca4f7763e373, 0x682e6ff3d6b2b8a3]
  ++ [0x748f82ee5defb2fc, 0x78a5636f43172f60, 0x84c87814a1f0ab72, 0x8cc702081a6439ec]
  ++ [0x90befffa23631e28, 0xa4506cebde82bde9, 0xbef9a3f7b2c67915, 0xc67178f2e372532b]
  ++ [0xca273eceea26619c, 0xd186b8c721c0c207, 0xeada7dd6cde0eb1e, 0xf57d4f7fee6ed178]
  ++ [0x6f067aa72176fba, 0xa637dc5a2c898a6, 0x113f9804bef90dae, 0x1b710b35131c471b]
  ++ [0x28db77f523047d84, 0x32caab7b40c72493, 0x3c9ebe0a15c9bebc, 0x431d67c49c100d4c]
  ++ [0x4cc5d4becb3e42b6, 0x597f299cfc657e2a, 0x5fcb6fab3ad6faec, 0x6c44198c4a475817]

/-- Initial value of SHA-256. -/
def sha256Init : List Nat := [0x6a09e667, 0xbb67ae85, 0x3c6ef372, 0xa54ff53a, 0x510e527f, 0x9b05688c, 0x1f83d9ab, 0x5be0cd19]

/-- Initial value of SHA-384. -/
def sha384Init : List Nat :=
  [0xcbbb9d5dc1059ed8, 0x629a292a367cd507, 0x9159015a3070dd17, 0x152fecd8f70e5939]
  ++ [0x67332667ffc00b31, 0x8eb44a8768581511, 0xdb0c2e0d64f98fa7, 0x47b5481dbefa4fa4]

/-- What differs between the two hashes: word size, block size, rounds, and the rotation amounts. -/
structure Sha where
  w : Nat
  blockBytes : Nat
  rounds : Nat
  big0 : Nat × Nat × Nat
  big1 : Nat × Nat × Nat
  small0 : Nat × Nat × Nat
  small1 : Nat × Nat × Nat

/-- SHA-256. -/
def sha256P : Sha := ⟨32, 64, 64, (2, 13, 22), (6, 11, 25), (7, 18, 3), (17, 19, 10)⟩
/-- SHA-384. -/
def sha384P : Sha := ⟨64, 128, 80, (28, 34, 39), (14, 18, 41), (1, 8, 7), (19, 61, 6)⟩

/-- Rotate right within the word. -/
def Sha.rotr (p : Sha) (x n : Nat) : Nat := ((x >>> n) ||| (x <<< (p.w - n))) % 2 ^ p.w
/-- A sum of three rotations. -/
def Sha.bigS (p : Sha) (r : Nat × Nat × Nat) (x : Nat) : Nat := p.rotr x r.1 ^^^ p.rotr x r.2.1 ^^^ p.rotr x r.2.2
/-- Two rotations and a shift. -/
def Sha.smallS (p : Sha) (r : Nat × Nat × Nat) (x : Nat) : Nat := p.rotr x r.1 ^^^ p.rotr x r.2.1 ^^^ (x >>> r.2.2)

/-- The message schedule, newest word first. -/
def Sha.schedule (p : Sha) : Nat → List Nat → List Nat
  | 0, ws => ws
  | n + 1, ws =>
    let g (i : Nat) : Nat := (ws[i]?).getD 0
    Sha.schedule p n (((p.smallS p.small1 (g 1) + g 6 + p.smallS p.small0 (g 14) + g 15) % 2 ^ p.w) :: ws)

/-- The round constant. -/
def Sha.k (p : Sha) (x : Nat) : Nat := if p.w == 32 then x >>> 32 else x

/-- One compression. -/
def Sha.compress (p : Sha) (h : List Nat) (block : List Byte) : List Nat :=
  let wb := p.w / 8
  let first := (List.range 16).map fun i => beNat (slice block (i * wb) wb)
  let ws := (p.schedule (p.rounds - 16) first.reverse).reverse
  let fin := (ws.zip shaK).foldl (fun (s : List Nat) wk =>
    match s with
    | [a, b, c, d, e, f, g, hh] =>
      let t1 := hh + p.bigS p.big1 e + ((e &&& f) ^^^ ((2 ^ p.w - 1 - e) &&& g)) + p.k wk.2 + wk.1
      let t2 := p.bigS p.big0 a + ((a &&& b) ^^^ (a &&& c) ^^^ (b &&& c))
      [(t1 + t2) % 2 ^ p.w, a, b, c, (d + t1) % 2 ^ p.w, e, f, g]
    | s => s) h
  (h.zip fin).map fun x => (x.1 + x.2) % 2 ^ p.w

/-- The padded message in blocks, by fuel. -/
def blocksOf (n : Nat) : Nat → List Byte → List (List Byte)
  | 0, _ => []
  | k + 1, bs => if bs.isEmpty then [] else bs.take n :: blocksOf n k (bs.drop n)

/-- The padded message. -/
def Sha.pad (p : Sha) (m : List Byte) : List Byte :=
  let lenB := p.blockBytes / 8
  let z := (p.blockBytes - (m.length + 1 + lenB) % p.blockBytes) % p.blockBytes
  m ++ [0x80] ++ zeros z ++ beBytes lenB (8 * m.length)

/-- The hash words. -/
def Sha.run (p : Sha) (init : List Nat) (m : List Byte) : List Nat :=
  let pm := p.pad m
  (blocksOf p.blockBytes (pm.length / p.blockBytes + 1) pm).foldl p.compress init

/-- SHA-256, 32 bytes. -/
def sha256 (m : List Byte) : List Byte := (sha256P.run sha256Init m).flatMap (beBytes 4)

/-- SHA-384, 48 bytes. -/
def sha384 (m : List Byte) : List Byte := ((sha384P.run sha384Init m).take 6).flatMap (beBytes 8)

/-! ### ECDSA P-384, verification -/

/-- The field prime of P-384. -/
def ecP : Nat := 2 ^ 384 - 2 ^ 128 - 2 ^ 96 + 2 ^ 32 - 1
/-- The group order. -/
def ecN : Nat := 0xffffffffffffffffffffffffffffffffffffffffffffffffc7634d81f4372ddf581a0db248b0a77aecec196accc52973
/-- The curve's constant b. -/
def ecB : Nat := 0xb3312fa7e23ee7e4988e056be3f82d19181d9c6efe8141120314088f5013875ac656398d8a2ed19d2a85c8edd3ec2aef
/-- The base point. -/
def ecG : Nat × Nat :=
  (0xaa87ca22be8b05378eb1c71ef320ad746e1d3b628ba79b9859f741e082542a385502f25dbf55296c3a545e3872760ab7,
   0x3617de4a96262c6f5d9e98bf9292dc29f8f41dbd289a147ce9da3113b5f0b8c00a60b1ce1d7e819d7a431d7c90ea0e5f)

/-- Powers modulo m, one bit of the exponent for each unit of fuel. -/
def powModGo (m : Nat) : Nat → Nat → Nat → Nat → Nat
  | 0, _, _, r => r
  | k + 1, b, e, r => powModGo m k (b * b % m) (e / 2) (if e % 2 == 1 then r * b % m else r)

/-- b^e mod m for exponents of up to 384 bits. -/
def powMod (b e m : Nat) : Nat := powModGo m 384 (b % m) e 1

/-- The inverse modulo a prime. -/
def invMod (a m : Nat) : Nat := powMod a (m - 2) m

/-- A point; `none` is the point at infinity. -/
abbrev EcPt := Option (Nat × Nat)

/-- Point addition. -/
def ecAdd (p q : EcPt) : EcPt :=
  match p, q with
  | none, q => q
  | p, none => p
  | some (x1, y1), some (x2, y2) =>
    if x1 == x2 && (y1 + y2) % ecP == 0 then none
    else
      let l := if x1 == x2 && y1 == y2 then (3 * x1 * x1 + ecP - 3) * invMod (2 * y1) ecP % ecP
               else (y2 + ecP - y1) * invMod (x2 + ecP - x1) ecP % ecP
      let x3 := (l * l + 2 * ecP - x1 - x2) % ecP
      some (x3, (l * (x1 + ecP - x3) + ecP - y1) % ecP)

/-- Scalar multiples, one bit for each unit of fuel. -/
def ecMulGo : Nat → Nat → EcPt → EcPt → EcPt
  | 0, _, _, r => r
  | k + 1, e, p, r => ecMulGo k (e / 2) (ecAdd p p) (if e % 2 == 1 then ecAdd r p else r)

/-- k × P. -/
def ecMul (k : Nat) (p : EcPt) : EcPt := ecMulGo 384 k p none

/-- The point is on the curve. -/
def ecOn (x y : Nat) : Bool := x < ecP && y < ecP && (y * y) % ecP == (x * x * x + (ecP - 3) * x + ecB) % ecP

/-- A signature (r then s, 48 bytes each, big-endian) of `msg` verifies under an uncompressed public key
(0x04, x, y). -/
def ecdsaOk (key msg sig : List Byte) : Bool :=
  let x := beNat (slice key 1 48)
  let y := beNat (slice key 49 48)
  let r := beNat (slice sig 0 48)
  let s := beNat (slice sig 48 48)
  if (key.head? == some 4) && ecOn x y && 0 < r && r < ecN && 0 < s && s < ecN then
    let z := beNat (sha384 msg)
    let w := invMod s ecN
    match ecAdd (ecMul (z * w % ecN) (some ecG)) (ecMul (r * w % ecN) (some (x, y))) with
    | none => false
    | some (px, _) => px % ecN == r
  else false

end Sys2Proof.Machine
end

