-- ==== Sys2Proof/Machine/StateLedger.lean ====
section
/-! DEFINITION. The records that State is made of: the Step Ledger and checkpoints
(spec/13_step_ledger_and_replay.md, spec/14_checkpoint.md). A field's default value is its value at reset. -/

namespace Sys2Proof.Machine

/-- LEDGER_CFG, LEDGER_CTX, LEDGER_XFER and LEDGER_CNT of one context (R307), and what the ledger keeps for it
(R281 to R304). -/
structure Led where
  /-- the words of LEDGER_CFG0 to LEDGER_CFG15 -/
  cfg : List Nat := 0x18000000 :: List.replicate 15 0
  /-- 0 off, 1 running, 2 voting, 3 committing, 4 quiescing, 5 restoring, 6 replaying, 7 halted -/
  state : Nat := 0
  mirrorValid : Bool := false
  wardValid : Bool := false
  dirty : Bool := false
  lastStatus : Nat := 0
  haltReason : Nat := 0
  strikes : Nat := 0
  lastVerdict : Nat := 0
  disagree : Nat := 0
  confirmed : Paired 64 := pairOf 64 0
  updated : Paired 32 := pairOf 32 0
  xfer : Paired 32 := pairOf 32 0
  confirmations : Nat := 0
  rollbacks : Nat := 0
  halts : Nat := 0
  replayed : Nat := 0
  ckptRestores : Nat := 0
  seeds : Nat := 0
  /-- the confirmed step written when the ledger was enabled (R288) -/
  c0 : Nat := 0
  /-- steps whose input bank and record are retained (R282) -/
  held : List Nat := []
  /-- steps whose input bank is locked (R286) -/
  inLocks : List Nat := []
  /-- passes of the step in progress: the record's bits and the hyper block read at preload (R283) -/
  passes : List (Nat × List Byte) := []
  /-- the XOR of the shard step digest so far (R287) -/
  stepDg : Nat := 0
  /-- a step of the interval broke a rule of R284 -/
  passBad : Bool := false
  /-- a step of the interval ended in a way that R288 names for ST_NOT_CONFIRMED -/
  bad : Bool := false
  /-- the running weight digest of the interval (R287) -/
  weights : Dg := {}
  /-- the step voted on and the tick of its barrier (R288, R289) -/
  voteStep : Nat := 0
  voteTick : Nat := 0
  /-- vote records collected for it, and those that came before this context's own barrier -/
  votes : List Vote := []
  early : List Vote := []
  /-- the herd verdict, once formed -/
  verdict : Option Bool := none
  /-- the contribution sent into the job tree -/
  own : Option Bool := none
  /-- tree messages of the members below: step, member, yes, due (R290) -/
  ups : List (Nat × Nat × Bool × Bool) := []
  decision : Option Bool := none
  /-- own weight digest at a verdict of no, until a replay of the interval reaches yes (R301) -/
  preW : Option Nat := none
  /-- slots that fall back at the next step (R152) -/
  fallNext : List Nat := []
  /-- ledger sends to the partner not yet accepted: step, kind (0 record, 1 gradient), oldest first (R282) -/
  sends : List (Nat × Nat) := []
  /-- as partner: the ward's step that the mirror stands at, its context rows, records and gradients held -/
  wardStep : Nat := 0
  wardRows : Nat := 0
  wardRecs : List Nat := []
  wardGrads : List Nat := []
  /-- the rollback target (R293), whether the shard has been settled to it, tail replay wanted (R296) -/
  target : Nat := 0
  settled : Bool := false
  needTail : Bool := false
  /-- highest step begun before the rollback (R297) -/
  replayTo : Nat := 0
  /-- restores that failed in a row (R295) -/
  failed : Nat := 0
  /-- the partner has been given a mirror of the shard, which it keeps at the confirmed step (R291, R299) -/
  seeded : Bool := false
  /-- bytes of the stream in progress that have been taken: a restore at the owner, a seeding at the partner -/
  streamed : Nat := 0
  deriving DecidableEq, Repr

/-- LEDGER_SEL, LEDGER_CMD, LEDGER_STATUS and LEDGER_RB_EPOCH (R307). -/
structure LedRegs where
  sel : Nat := 0
  ctx : Nat := 0
  cmdRefused : Bool := false
  lastStatus : Nat := 0
  rbEpoch : Paired 32 := pairOf 32 0
  deriving DecidableEq, Repr

/-- The old content of a held granule (R314): its ordinal in the shard's data, its granule state, its bytes, and the
pool granule that holds the copy; none where the pool was full. -/
structure Saved where
  ord : Nat
  st : Nat
  bytes : List Byte
  pool : Option Nat
  deriving DecidableEq, Repr

/-- CKPT_CFG and CKPT_CTX of one context (R319), and the checkpoint or restore under way (R312 to R317). -/
structure Ckpt where
  everyConf : Nat := 0
  timerS : Nat := 0
  qp : Nat := 0
  staggerSlots : Nat := 0
  staggerMs : Nat := 0
  cowRow : Nat := 0
  cowRows : Nat := 0
  rate : Nat := 0
  rkey : Nat := 0
  slotA : Nat := 0
  slotB : Nat := 0
  slotUnits : Nat := 0
  /-- 0 idle, 1 held, 2 draining, 3 sealing, 4 restoring -/
  state : Nat := 0
  due : Bool := false
  lastSlot : Nat := 0
  lastValid : Bool := false
  lastStatus : Nat := 0
  portStatus : Nat := 0
  skipped : Nat := 0
  seq : Nat := 0
  lastStep : Paired 64 := pairOf 64 0
  progress : Paired 32 := pairOf 32 0
  /-- confirmation points since the last complete checkpoint (R312) -/
  points : Nat := 0
  /-- clk at which the last complete checkpoint began, and at which this one did (R312) -/
  lastBegan : Nat := 0
  began : Nat := 0
  /-- step of the checkpoint, clk at which its drain may start, whether it has (R313, R316) -/
  step : Nat := 0
  startAt : Nat := 0
  started : Bool := false
  /-- the granules of the own and side rows are marked as held -/
  holding : Bool := false
  saved : List Saved := []
  /-- units sent and not yet accepted, and accepted -/
  out : List Nat := []
  done : List Nat := []
  /-- granules that a write waits for, whose units go first (R314) -/
  urgent : List Nat := []
  /-- the bytes of the units sent (R315) -/
  sent : List (Nat × List Byte) := []
  /-- token bucket, in bytes × 1,100, and the clk to which it was filled (R316) -/
  bucket : Int := 0
  bucketAt : Nat := 0
  /-- the drain waits for its storage port (R320) -/
  paused : Bool := false
  /-- digest-tree messages of the members below: member and digest (R315) -/
  tree : List (Nat × List Byte) := []
  deriving DecidableEq, Repr

/-- CKPT_SEL, CKPT_CMD and CKPT_STATUS (R319). -/
structure CkptRegs where
  sel : Nat := 0
  ctx : Nat := 0
  restoreSlot : Nat := 0
  cmdRefused : Bool := false
  lastStatus : Nat := 0
  deriving DecidableEq, Repr

end Sys2Proof.Machine
end

