-- ==== Sys2Proof/Machine/StateMeter.lean ====
section
/-! DEFINITION. The records that State is made of: the Horaro meter (spec/21_horaro_meter.md). Energies are in units of
2⁻¹⁶ µJ. A field's default value is its value at reset. -/

namespace Sys2Proof.Machine

/-- A context account (R450): energy total, shared part, and operation counters with their remainders. -/
structure Acct where
  total : Paired 80 := pairOf 80 0
  shared : Paired 80 := pairOf 80 0
  ops : List (Paired 84) := List.replicate 8 (pairOf 84 0)
  deriving DecidableEq, Repr

/-- The device account (R450). -/
structure DevAcct where
  total : Paired 80 := pairOf 80 0
  unattr : Paired 80 := pairOf 80 0
  ballast : Paired 80 := pairOf 80 0
  lost : Paired 80 := pairOf 80 0
  own : Paired 80 := pairOf 80 0
  deriving DecidableEq, Repr

/-- An attribution frame (R451, R455): the tick and what should be its complement; by partition the owner, the ballast
fraction and the ballast target (a context, none the device); operation counts (context, class, count); the contexts with a
final flag and the job id each had; the job ids of the others. -/
structure AttrFrame where
  tick : Nat
  tickN : Nat
  owners : List (Option Nat)
  f : List Nat
  targets : List (Option Nat)
  ops : List (Nat × Nat × Nat)
  finals : List (Nat × Nat)
  jobs : List (Nat × Nat)
  deriving DecidableEq, Repr

/-- A stored record (R455): its number, its 256 bytes, and whether a fetch has returned it. -/
structure MRec where
  seq : Nat
  bytes : List Byte
  fetched : Bool := false
  deriving DecidableEq, Repr

/-- The calibration constants of a sense channel, stored twice (R460): gain, offset and temperature coefficient, 32 bits
each. -/
structure Cal where
  a : Paired 96
  b : Paired 96
  deriving DecidableEq, Repr

/-- What the non-volatile store holds of the accounts (R450, R461). -/
structure Snapshot where
  accts : List (Nat × Acct) := []
  dev : DevAcct := {}
  deriving DecidableEq, Repr

/-- The meter die (R445 to R464). -/
structure Meter where
  /-- V_MTR is valid (R461) -/
  powered : Bool := true
  /-- meter time in ms since manufacture -/
  ms : Nat := 0
  accts : List (Nat × Acct) := []
  dev : DevAcct := {}
  snap : Snapshot := {}
  sealed_ : Bool := true
  calibFault : Bool := false
  lastStatus : Nat := 0
  recordS : Nat := 60
  sealBreaks : Nat := 0
  calibGen : Nat := 0
  /-- seq of the last record -/
  seq : Paired 64 := pairOf 64 0
  framesLost : Nat := 0
  overwritten : Nat := 0
  /-- how many nonces have been used (R458) -/
  nonces : Nat := 0
  /-- the frame accepted for the tick in progress, and the tick of the last frame accepted; none after a gap -/
  frame : Option AttrFrame := none
  prev : Option Nat := none
  /-- last tick closed -/
  closed : Option Nat := none
  /-- first tick of the interval, contexts whose account changed in it, and when it began -/
  firstTick : Nat := 0
  changed : List Nat := []
  intervalMs : Nat := 0
  /-- the job ids that frames gave -/
  jobs : List (Nat × Nat) := []
  /-- meter times at which a lost frame and a balance error were last reported -/
  frameTold : Option Nat := none
  balanceTold : Option Nat := none
  /-- the last records, oldest first -/
  recs : List MRec := []
  cals : List (Nat × Cal) := []
  /-- constants last loaded, by channel -/
  calUse : List (Nat × Nat) := []
  /-- running firmware: its version and its SHA-256, big-endian; the inactive image as written, by offset -/
  fwVer : Nat := 0
  fwDigest : Nat := 0
  inactive : List (Nat × Byte) := []
  /-- the image that takes over at the next record (R459) -/
  fwNext : Option (List Byte) := none
  /-- tick and meter time at which V_MTR failed -/
  failAt : Nat × Nat := (0, 0)
  deriving DecidableEq, Repr

/-- What the hub keeps for the meter (R447, R451, R453). -/
structure MeterHub where
  present : Bool := false
  lastBeat : Nat := 0
  /-- the present absence was reported -/
  absentTold : Bool := false
  /-- operations of the tick in progress, keyed context × 8 + class -/
  ops : List (Nat × Nat) := []
  /-- contexts unloaded or rebound in the tick, with the job id they had -/
  finals : List (Nat × Nat) := []
  /-- the frame of the tick that ended -/
  frame : Option AttrFrame := none
  deriving DecidableEq, Repr

end Sys2Proof.Machine
end

