-- ==== Sys2Proof/Machine/StateOpt.lean ====
section
/-! DEFINITION. The records that State is made of: the optical engines (spec/16_optical_engines.md). Frequencies and
shifts are in units of 10 MHz, the unit of OPT_RING err, so one channel unit u is 20,000. A field's default value is its
value at reset. -/

namespace Sys2Proof.Machine

/-- OPT_RING (R362) and what R348 keeps of a ring: its visits in a row outside the window. -/
structure Ring where
  /-- 0 unused, 1 in service, 2 bad, 3 out for calibration -/
  role : Nat := 0
  wavelength : Nat := 0
  /-- the code in force, the feed-forward's offset included (R349) -/
  heater : Nat := 0
  err : Nat := 0
  missed : Nat := 0
  deriving DecidableEq, Repr

/-- The stored record of a bus (R346): start ring, bad rings, the heater codes by ring, the engine temperature. -/
structure BusRec where
  start : Nat
  bad : Nat
  heaters : List Nat
  temp : Nat
  deriving DecidableEq, Repr

/-- OPT_BUS (R362) and the stored record of the bus. -/
structure Bus where
  assigned : Bool := false
  start : Nat := 0
  bad : Nat := 0
  lanesIn : Nat := 0
  locked : Nat := 0
  lockLosses : Nat := 0
  calFails : Nat := 0
  stored : Option BusRec := none
  deriving DecidableEq, Repr

/-- A lane (key 16t + w) that is out, or is to leave at an edge (R350 to R352). -/
structure LaneOut where
  key : Nat
  fault : Bool
  /-- edge at which it leaves, and whether it has left -/
  edge : Nat
  gone : Bool
  deriving DecidableEq, Repr

/-- OPT_ENG (R362), the plan and the calibration of an engine (R346 to R357). -/
structure Eng where
  tableMode : Bool := false
  calEn : Bool := true
  calTicks : Nat := 0x40
  calInterval : Nat := 0x00A
  /-- 0 off, 1 searching, 2 closed loop, 3 table, 4 failed -/
  state : Nat := 0
  cmdRefused : Bool := false
  applyPending : Bool := false
  laserOk : Nat := 0
  tempC : Nat := 0
  lastStatus : Nat := 0
  slot : Nat := 0
  applyAt : Paired 64 := pairOf 64 0
  lockLosses : Nat := 0
  searches : Nat := 0
  calDone : Nat := 0
  calFail : Nat := 0
  planFires : Nat := 0
  coldOpens : Nat := 0
  /-- base map and plan overlay, a code of 0xF where the overlay has none (R356, R357) -/
  base : Nat := 0x88888888
  overlay : Nat := 0xFFFFFFFF
  /-- the apply that waits: slot and tick -/
  applySlot : Nat := 0
  applyTick : Nat := 0
  /-- the plan is suspended until its context's next barrier (R356) -/
  suspended : Bool := false
  /-- the overlay is cleared at the next edge (R357) -/
  clearNext : Bool := false
  /-- plan entries whose phase has retired since the last edge -/
  fires : List Nat := []
  /-- the search in progress is a cached one (R346) -/
  cached : Bool := false
  /-- lanes out or leaving -/
  out : List LaneOut := []
  /-- lane-out requests sent and not answered: lane, fault, tick -/
  asked : List (Nat × Bool × Nat) := []
  /-- lanes the calibration cycle has still to visit, and those to retry at its end (R352) -/
  calQueue : List Nat := []
  calRetry : List Nat := []
  /-- lanes out for a fault that wait for a calibration, with the failures so far (R351) -/
  faulty : List (Nat × Nat) := []
  /-- clk at which the last cycle started -/
  calClk : Nat := 0
  /-- the lane in its calibration slot: lane, edge at which the slot ends, sweep abandoned -/
  calLane : Option (Nat × Nat × Bool) := none
  /-- the present excursion out of the tables' range was reported (R354) -/
  rangeTold : Bool := false
  /-- modelled engine temperature T_m in nK (R349) -/
  tm : Nat := 0
  deriving DecidableEq, Repr

/-- OPT_ADC of one engine (R359, R360, R362). -/
structure Adc where
  manual : Bool := false
  filter : Nat := 2
  gain : Nat := 0
  bus : Nat := 0
  sel : Nat := 0
  /-- settings in force: filter, gain, channel -/
  cur : Nat × Nat × Nat := (2, 0, 0)
  /-- settings from the end of the sample in progress -/
  next : Option (Nat × Nat × Nat) := none
  /-- samples still to be marked invalid -/
  invalid : Nat := 3
  valid : Bool := false
  sFilter : Nat := 0
  sGain : Nat := 0
  sChannel : Nat := 0
  code : Nat := 0
  samples : Nat := 0
  deriving DecidableEq, Repr

/-- A frozen circuit of a port (R358). A port's circuits stand in the order in which they were last open. -/
structure Circ where
  serial : Nat
  dev : Nat
  port : Nat
  role : Nat
  gen : Nat
  width : Nat
  vcs : List Vc
  deriving DecidableEq, Repr

/-- The OPT block (R362). -/
structure Opt where
  ttabSel : Nat := 0
  engs : List Eng := [{}, {}]
  adcs : List Adc := [{}, {}]
  /-- OPT_SW_SLOT, 8e + s -/
  slots : List Nat := [0x88888888, 0xFFFFFFFF, 0xFFFFFFFF, 0xFFFFFFFF, 0xFFFFFFFF, 0xFFFFFFFF, 0xFFFFFFFF, 0xFFFFFFFF,
    0x88888888, 0xFFFFFFFF, 0xFFFFFFFF, 0xFFFFFFFF, 0xFFFFFFFF, 0xFFFFFFFF, 0xFFFFFFFF, 0xFFFFFFFF]
  /-- OPT_PLAN: words +0x0 and +0x4 of an entry -/
  plan : List (Nat × (Nat × Nat)) := []
  buses : List (Nat × Bus) := []
  rings : List (Nat × Ring) := []
  /-- OPT_TTAB words written, keyed 288 × bus + 16 × ring + i; an unlisted one is as flash has it (R354) -/
  ttab : List (Nat × Paired 32) := []
  /-- frozen circuits, with their port (R358) -/
  circs : List (Nat × Circ) := []
  deriving DecidableEq, Repr

end Sys2Proof.Machine
end

