-- ==== Sys2Proof/Machine/StatePort.lean ====
section
/-! DEFINITION. The records that State is made of: host, storage, USB and sideband ports
(spec/19_host_and_service_ports.md). A field's default value is its value at reset. -/

namespace Sys2Proof.Machine

/-- One PCIe function: HOST_FN and what R403 to R405 keep of it. -/
structure HostFn where
  bme : Bool := false
  flr : Bool := false
  aperCtx : Nat := 0
  aperValid : Bool := false
  aperBase : Nat := 0
  disabledEnds : Nat := 0
  inboundDrops : Nat := 0
  /-- clk at which the FLR was received -/
  flrClk : Nat := 0
  /-- an MSI-X message is held until Bus Master Enable is set (R404) -/
  msixHeld : Bool := false
  /-- ticks in which ST_OUT_OF_WINDOW and ST_FENCED were last reported for it (R403) -/
  toldOut : Option Nat := none
  toldFence : Option Nat := none
  deriving DecidableEq, Repr

/-- HOST_LINK, HOST_CTRL, HOST_FN and HOST_CTX_FN (R417). -/
structure Host_ where
  up : Bool := false
  gen : Nat := 0
  width : Nat := 0
  flit : Bool := false
  vfEnable : Bool := false
  numVfs : Nat := 0
  cplTimeout : Nat := 0x32
  fns : List (Nat × HostFn) := []
  /-- the words of HOST_CTX_FN -/
  ctxFn : List (Nat × Nat) := []
  deriving DecidableEq, Repr

/-- HOST_USB (R417) and the control transfer under way (R412). -/
structure Usb where
  attached : Bool := false
  highSpeed : Bool := false
  configured : Bool := false
  suspended : Bool := false
  address : Nat := 0
  busResets : Nat := 0
  cutTransfers : Nat := 0
  /-- idVendor, from flash (DESIGN CHOICE, unsafe: notes/assumptions/30.md) -/
  idVendor : Nat := 0
  deriving DecidableEq, Repr

/-- HOST_SB (R417): per bus the attempts made and the clk of the last. Bus 0 is PMBus, bus 1 I3C. -/
structure Sideband where
  pmbusStuck : Bool := false
  i3cStuck : Bool := false
  faultNLow : Bool := false
  faultNExt : Bool := false
  recoveries : Nat := 0
  /-- the external assertion in progress was reported (R415) -/
  extTold : Bool := false
  /-- failed attempts of the recovery in progress, of each bus -/
  attempts : List Nat := [0, 0]
  /-- clk of the last attempt, of each bus -/
  lastTry : List Nat := [0, 0]
  deriving DecidableEq, Repr

/-- STOR_PORT (R418) and what R408 and R409 keep of a port. -/
structure StorPort where
  up : Bool := false
  paused : Bool := false
  prio : Nat := 3
  stuckMs : Nat := 0xC8
  cnpRx : Nat := 0
  cnpTx : Nat := 0
  pauseRx : Nat := 0
  rxDiscard : Nat := 0
  /-- priorities that PFC holds paused, one bit each -/
  pausedMask : Nat := 0
  /-- clk at which roce_prio was paused -/
  pausedSince : Nat := 0
  stuckTold : Bool := false
  /-- clk at which the port went down, while it is down after having been up -/
  downSince : Option Nat := none
  deriving DecidableEq, Repr

/-- STOR_QP of one queue pair (R418) and its rate, timers and retries (R408, R409). -/
structure Qp where
  /-- 0 reset, 1 ready, 2 error -/
  state : Nat := 0
  port : Nat := 0
  mtu : Nat := 2
  ackTo : Nat := 0x0E
  retryCnt : Nat := 7
  ctx : Nat := 0
  lastStatus : Nat := 0
  remoteQpn : Nat := 0
  psn : Nat := 0
  gid : Nat := 0
  retries : Nat := 0
  /-- present rate in Mb/s -/
  rate : Nat := 800000
  /-- clk of the last CNP received, and of the last one that cut the rate -/
  lastCnp : Option Nat := none
  lastCut : Option Nat := none
  /-- clk at which the rate last rose -/
  lastRise : Nat := 0
  /-- clk of the last CNP sent for it -/
  cnpSent : Option Nat := none
  /-- retries of the request in progress -/
  tried : Nat := 0
  /-- clk from which the ACK timeout of the oldest request runs; none where its timer is stopped -/
  timer : Option Nat := none
  deriving DecidableEq, Repr

/-- STOR_MR (R418). -/
structure Mr where
  valid : Bool := false
  rd : Bool := false
  wr : Bool := false
  ctx : Nat := 0
  rkey : Nat := 0
  base : Nat := 0
  len : Nat := 0
  deriving DecidableEq, Repr

/-- The STOR block (R418). -/
structure Stor where
  ports : List StorPort := [{}, {}]
  qpSel : Nat := 0
  qps : List (Nat × Qp) := []
  mrs : List (Nat × Mr) := []
  deriving DecidableEq, Repr

end Sys2Proof.Machine
end

