-- ==== Sys2Proof/Machine/State.lean ====
section
/-! DEFINITION. The block's state as plain data, holding everything the spec gives it, its faults and refusals,
and its value after reset (spec/INDEX.md; each field's docstring names its chapter). -/

namespace Sys2Proof.Machine

/-- A message that leaves the block. -/
inductive Msg where
  /-- a frame on a fabric port (R322): port, channel, generation, sequence number, cell -/
  | frame (port vc gen seq : Nat) (c : Cell)
  /-- returns to the peer of a port (R323): channel, next sequence number expected, credits, replay wanted -/
  | returns (port vc ack credits : Nat) (replay : Bool)
  /-- data answered to a reader of memory (R192): status and bytes -/
  | data (status : Nat) (bytes : List Byte)
  /-- a write into host or storage space (R199, R402): the space, the queue pair or function, address, bytes -/
  | portWrite (space qp addr : Nat) (bytes : List Byte)
  /-- a read of host or storage space (R234, R402): the space, the queue pair or function, the tag, address, length -/
  | portRead (space qp tag addr len : Nat)
  /-- the answer to an inbound host request (R403): function, status (0 done, 1 UR, 2 Completer Abort, 3 EP), bytes -/
  | completion (fn status : Nat) (bytes : List Byte)
  /-- an MSI-X message of a function (R400, R404) -/
  | msix (fn : Nat)
  /-- the answer to a RoCE packet (R407): queue pair, code (0 ACK, 1 response, 2 NAK Invalid Request, 3 NAK Remote
  Access Error, 4 NAK Remote Operational Error, 5 CNP), bytes -/
  | roce (qp code : Nat) (bytes : List Byte)
  /-- the answer to a USB vendor request (R411): a stall, or the words read -/
  | usb (stall : Bool) (bytes : List Byte)
  /-- PMBus OPERATION to the regulator of a rail: on or off (R386, R394) -/
  | pmbus (rail : Nat) (on : Bool)
  /-- a response of the management port to an address, on UDP 5,140 or 5,142 (R421, R457) -/
  | mgmt (peer : Nat) (bytes : List Byte)
  /-- a report or heartbeat datagram to a sink (R423) -/
  | datagram (sink : Nat) (bytes : List Byte)
  deriving DecidableEq, Repr

/-- Why the block stops with a fault. -/
inductive Fault where
  /-- Raised by nothing: the spec gives every command an effect. Safe. -/
  | none_
  deriving DecidableEq, Repr

/-- Why a command has no meaning. -/
inductive Refusal where
  /-- Raised by an arm of Dispatch.lean whose command has no meaning yet. Safe: nothing can be proved of it. -/
  | notModelled (mnemonic : String)
  deriving DecidableEq, Repr

/-- The state of the block. -/
structure State where
  /-- core clocks since power-on (R41) -/
  clk : Nat := 0
  /-- how many free values have been drawn (DESIGN CHOICE, safe: notes/assumptions/3.md) -/
  freeCtr : Nat := 0
  /-- the commands that wait, first in first out -/
  pending : List Instr := []
  /-- what has left the block, oldest first -/
  tx : List Msg := []
  pairSeqs : List (Nat × PairSeq) := []
  latches : List PairLatch := []
  glb : Glb := {}
  /-- Welt links up (R22, R24) (DESIGN CHOICE, unsafe: notes/assumptions/8.md) -/
  weltUp : List Bool := List.replicate 12 true
  /-- Welt changes in force from the next edge (R24) -/
  weltNext : List (Nat × Bool) := []
  tick : Tick := {}
  gov : Gov := {}
  starts : List (Nat × Start) := []
  ariths : List (Nat × Arith) := []
  driftSel : Nat := 0
  /-- drift slots, keyed by context × 256 + slot -/
  drifts : List (Nat × Drift) := []
  memCtxs : List (Nat × MemCtx) := []
  census : List (Nat × Census) := []
  loads : List (Nat × LoadCtx) := []
  ctxRuns : List (Nat × CtxRun) := []
  parts : List (Nat × Part) := []
  /-- clusters, keyed by global partition × 18 + logical cluster in the partition -/
  clus : List (Nat × Clu) := []
  chans : List (Nat × Chan) := []
  memc : MemCtl := {}
  /-- all cells of bulk and cluster memory, in canonical form (Memory.wf) -/
  mem : List Host.Cell := []
  /-- granule and line states (R191); an unlisted one is unwritten -/
  gran : List (Nat × Paired 2) := []
  /-- words with an upset: 1 correctable, 2 not (R195) -/
  ecc : List (Nat × Nat) := []
  sync : SyncCtl := {}
  loader : LoadCtl := {}
  partRegs : PartRegs := {}
  dog : Dog := {}
  /-- outstanding reads of the ports (R402, R404, R407) -/
  tags : List PortTag := []
  /-- the words of FAB_CTX_JOB (R342) -/
  ctxJobs : List (Nat × Nat) := []
  fab : Fab := {}
  /-- PACK_ENTRY and PACK_CTX (R279) -/
  packs : List (Nat × PackEntry) := []
  packCtx : List (Nat × PackCtx) := []
  host : Host_ := {}
  usb : Usb := {}
  sb : Sideband := {}
  stor : Stor := {}
  leds : List (Nat × Led) := []
  ledRegs : LedRegs := {}
  ckpts : List (Nat × Ckpt) := []
  ckptRegs : CkptRegs := {}
  opt : Opt := {}
  fuses : Fuses := {}
  /-- the bytes of the flash slots A and B; what lies beyond is erased (R390, DESIGN CHOICE, unsafe: notes/assumptions/40.md) -/
  flash : List (List Byte) := [[], []]
  boot : Boot := {}
  upd : Upd := {}
  mgmt : Mgmt := {}
  therm : Therm := {}
  meter : Meter := {}
  meterHub : MeterHub := {}
  deriving DecidableEq, Repr

/-- The block right after reset: every field at its default. (DESIGN CHOICE, unsafe: notes/assumptions/6.md.) -/
def State.reset : State := {}

end Sys2Proof.Machine
end

