-- ==== Sys2Proof/Machine/Ops.lean ====
section
/-! DEFINITION. The named operations over registers, events, partitions and memory that every family uses
(spec/00_scope.md R17, R18; spec/01_package_and_hierarchy.md R23, R30; spec/08_memory.md R180 to R196;
spec/17_partitions_reset_and_recovery.md R369, R370). -/

namespace Sys2Proof.Machine

/-! ### Status codes (R18, R19) -/

def stOk : Nat := 0x00
def stAlreadyDone : Nat := 0x01
def stAborted : Nat := 0x02
def stFenced : Nat := 0x03
def stEpochStale : Nat := 0x04
def stUnwritten : Nat := 0x05
def stPairBroken : Nat := 0x06
def stCensus : Nat := 0x07
def stTickOverrun : Nat := 0x08
def stLoaderReject : Nat := 0x09
def stDigestMismatch : Nat := 0x0A
def stHostDisabled : Nat := 0x0B
def stEcc : Nat := 0x0C
def stArith : Nat := 0x0D
def stLinkDown : Nat := 0x0E
def stNotConfirmed : Nat := 0x0F
def stConfigMismatch : Nat := 0x10
def stLeaseLost : Nat := 0x11
def stSeal : Nat := 0x12
def stPortDenied : Nat := 0x70
def stHostCompletion : Nat := 0x71
def stStorQp : Nat := 0x72
def stPfcStuck : Nat := 0x73
def stSideband : Nat := 0x74
def stUsbReset : Nat := 0x75
def stFaultN : Nat := 0x76
def stOutOfWindow : Nat := 0x30
def stTgBusy : Nat := 0x31
def stTgMismatch : Nat := 0x32
def stWindowRefused : Nat := 0x33
def stRsvdEncoding : Nat := 0x90
def stDriftFallback : Nat := 0x91
def stCalibKept : Nat := 0x92
def stHyperInvalid : Nat := 0x93

/-- The event entry's "no context" (R370). -/
def noCtx : Nat := 0x3FF
/-- The event entry's "no partition" (R370). -/
def noPart : Nat := 0x3F

/-! ### Pairs, clock and free values -/

/-- The tick number (R48). -/
def State.tickNo (s : State) : Nat := s.tick.number.v.toNat

/-- The clock moved on to `at_`, never back (DESIGN CHOICE, safe: notes/assumptions/2.md). -/
def State.atClk (s : State) (at_ : Nat) : State := { s with clk := max s.clk at_ }

/-- A free value below `bound`, and the state with the counter advanced (DESIGN CHOICE, safe: notes/assumptions/3.md). -/
def State.free (s : State) (bound : Nat) : Nat × State :=
  (Config.freeValue s.freeCtr % bound, { s with freeCtr := s.freeCtr + 1 })

/-- The status codes that the spec defines: the shared ones and those of each owner's range (R18 to R20). -/
def definedCodes : List Nat :=
  [(0x00, 0x12), (0x20, 0x2F), (0x30, 0x33), (0x40, 0x45), (0x50, 0x56), (0x60, 0x66), (0x70, 0x76), (0x80, 0x88), (0x90, 0x93)].flatMap
    fun e => (List.range (e.2 + 1 - e.1)).map (e.1 + ·)

/-- A defined code, picked by a value that nothing constrains: the device returns no other code (R20). -/
def anyCode (x : Nat) : Nat := (definedCodes[x % definedCodes.length]?).getD 0

/-- The code of an event to which the spec gives none (DESIGN CHOICE, safe: notes/assumptions/22.md). -/
def openStatus (k : Nat) : Nat := anyCode (Config.eventStatus k)

/-- A status that the spec leaves open, different each time. -/
def State.freeStatus (s : State) : Nat × State := (anyCode (Config.freeValue s.freeCtr), { s with freeCtr := s.freeCtr + 1 })

/-- A message leaves the block. (DEDUCED, unsafe: notes/assumptions/81.md.) -/
def State.send (s : State) (m : Msg) : State := { s with tx := s.tx ++ [m] }

/-! ### Tables of State -/

def State.part (s : State) (g : Nat) : Part := Tab.get s.parts g {}
def State.setPart (s : State) (g : Nat) (p : Part) : State := { s with parts := Tab.set s.parts g p }
def State.modCtl (s : State) (g : Nat) (f : PartCtl → PartCtl) : State :=
  s.setPart g { s.part g with ctl := f (s.part g).ctl }
def State.modMon (s : State) (g : Nat) (f : PartMon → PartMon) : State :=
  s.setPart g { s.part g with mon := f (s.part g).mon }
def State.modSync (s : State) (g : Nat) (f : PartSync → PartSync) : State :=
  s.setPart g { s.part g with sync := f (s.part g).sync }
def State.clu (s : State) (k : Nat) : Clu := Tab.get s.clus k {}
def State.setClu (s : State) (k : Nat) (c : Clu) : State := { s with clus := Tab.set s.clus k c }
def State.modClu (s : State) (k : Nat) (f : Clu → Clu) : State := s.setClu k (f (s.clu k))
def State.chan (s : State) (ch : Nat) : Chan := Tab.get s.chans ch {}
def State.modChan (s : State) (ch : Nat) (f : Chan → Chan) : State :=
  { s with chans := Tab.set s.chans ch (f (s.chan ch)) }
def State.run (s : State) (c : Nat) : CtxRun := Tab.get s.ctxRuns c {}
def State.modRun (s : State) (c : Nat) (f : CtxRun → CtxRun) : State :=
  { s with ctxRuns := Tab.set s.ctxRuns c (f (s.run c)) }
def State.start (s : State) (c : Nat) : Start := Tab.get s.starts c {}
def State.modStart (s : State) (c : Nat) (f : Start → Start) : State :=
  { s with starts := Tab.set s.starts c (f (s.start c)) }
def State.arith (s : State) (c : Nat) : Arith := Tab.get s.ariths c {}
def State.modArith (s : State) (c : Nat) (f : Arith → Arith) : State :=
  { s with ariths := Tab.set s.ariths c (f (s.arith c)) }
def State.load (s : State) (c : Nat) : LoadCtx := Tab.get s.loads c {}
def State.modLoad (s : State) (c : Nat) (f : LoadCtx → LoadCtx) : State :=
  { s with loads := Tab.set s.loads c (f (s.load c)) }
def State.memCtx (s : State) (c : Nat) : MemCtx := Tab.get s.memCtxs c {}
def State.modMemCtx (s : State) (c : Nat) (f : MemCtx → MemCtx) : State :=
  { s with memCtxs := Tab.set s.memCtxs c (f (s.memCtx c)) }
def State.cens (s : State) (c : Nat) : Census := Tab.get s.census c {}
def State.modCens (s : State) (c : Nat) (f : Census → Census) : State :=
  { s with census := Tab.set s.census c (f (s.cens c)) }
def State.drift (s : State) (c slot : Nat) : Drift := Tab.get s.drifts (c * 256 + slot) {}
def State.modDrift (s : State) (c slot : Nat) (f : Drift → Drift) : State :=
  { s with drifts := Tab.set s.drifts (c * 256 + slot) (f (s.drift c slot)) }

/-! ### Partitions and contexts (R30, R32, R181) -/

/-- The partitions of a context, ascending (R364). -/
def State.partsOf (s : State) (c : Nat) : List Nat := bitsOf 64 (s.run c).assign.v.toNat

/-- The channel list of a context, ascending (R181): channels 4g to 4g + 3 of each partition (R30). -/
def State.chList (s : State) (c : Nat) : List Nat :=
  (s.partsOf c).flatMap fun g => [4 * g, 4 * g + 1, 4 * g + 2, 4 * g + 3]

/-- The context resident in partition `g`. -/
def State.residentOf (s : State) (g : Nat) : Option Nat :=
  if (s.part g).ctl.residentValid then some (s.part g).ctl.resident else none

/-- Context `c` is resident in every partition assigned to it, and has at least one (R365). -/
def State.residentAll (s : State) (c : Nat) : Bool :=
  !(s.partsOf c).isEmpty && (s.partsOf c).all fun g => s.residentOf g == some c

/-- The partition is cut off: fencing, fenced, resetting or failed (R372, R375). -/
def State.cutOff (s : State) (g : Nat) : Bool := (s.part g).ctl.state != 0

/-- Some partition of a context is cut off: new requests into its bulk space from outside the package are refused (R372). -/
def State.fencedOff (s : State) (c : Nat) : Bool := (s.partsOf c).any s.cutOff

/-- A context's start state is idle, refused_late or refused_not_ready (R182, R233). -/
def State.notStarted (s : State) (c : Nat) : Bool :=
  (s.start c).state == 0 || (s.start c).state == 4 || (s.start c).state == 5

/-- A context is released (R64). -/
def State.released (s : State) (c : Nat) : Bool := (s.start c).state == 3

/-- The job slot that a context is bound to (R342). -/
def State.jobOf (s : State) (c : Nat) : Option Nat :=
  let w := Tab.get s.ctxJobs c 0
  if bitOf w 31 then some (w % 16) else none

/-- Contexts 0 to 1,023. -/
def allCtx : List Nat := List.range 1024

/-- The partition index of `g` in the context's list (R227). -/
def State.partIndex (s : State) (c g : Nat) : Nat := ((s.partsOf c).filter fun h => decide (h < g)).length

/-! ### Welt paths (R22 to R24) -/

/-- Welt link `i` is in service. -/
def State.welt (s : State) (i : Nat) : Bool := (s.weltUp[i]?).getD false

/-- The link that joins two neighbouring dies (R22). -/
def dieLink (a b : Nat) : Option Nat :=
  match min a b, max a b with
  | 0, 1 => some 0
  | 2, 3 => some 1
  | 0, 2 => some 2
  | 1, 3 => some 3
  | _, _ => none

/-- The clockwise neighbour: 0 → 1 → 3 → 2 → 0 (R23). -/
def clockwise (d : Nat) : Nat := match d with | 0 => 1 | 1 => 3 | 3 => 2 | _ => 0
/-- The other neighbour. -/
def anticlockwise (d : Nat) : Nat := match d with | 0 => 2 | 2 => 3 | 3 => 1 | _ => 0

/-- The links from die `a` to die `b` going round one way; `none` where a link of it is down. -/
def State.ringPath (s : State) (next : Nat → Nat) : Nat → Nat → Nat → Option (List Nat)
  | 0, a, b => if a == b then some [] else none
  | k + 1, a, b =>
    if a == b then some []
    else match dieLink a (next a) with
      | some l => if s.welt l then (s.ringPath next k (next a) b).map (l :: ·) else none
      | none => none

/-- The Welt links crossed from die `a` to die `b`: the direct link between neighbours, the clockwise path
between diagonal dies, the other way round where a link is down (R23, R24). -/
def State.weltPath (s : State) (a b : Nat) : Option (List Nat) :=
  let cw := s.ringPath clockwise 3 a b
  let ac := s.ringPath anticlockwise 3 a b
  match cw, ac with
  | some p, some q => if q.length < p.length then some q else some p
  | some p, none => some p
  | none, some q => some q
  | none, none => none

/-- The die of a partition (R30). -/
def dieOf (g : Nat) : Nat := g / 16

/-! ### Sheepdog events (R369, R370, R484) -/

/-- Two entries are the same event (R369). -/
def Event.same (a b : Event) : Bool :=
  a.status == b.status && a.source == b.source && a.gpart == b.gpart && a.ctx == b.ctx && a.loc == b.loc

/-- The first unsent entry equal to `e` counts one more repeat; `none` where there is none. -/
def foldEvent (e : Event) : List Event → Option (List Event)
  | [] => none
  | x :: xs => if !x.sent && x.same e then some ({ x with repeat_ := satAdd 0xFFFF x.repeat_ 1 } :: xs)
    else (foldEvent e xs).map (x :: ·)

/-- The queue without its oldest severity-0 entry; `none` where there is none. -/
def dropNote : List Event → Option (List Event)
  | [] => none
  | x :: xs => if x.severity == 0 then some xs else (dropNote xs).map (x :: ·)

/-- Enter an event into the aggregator's queue of 256 (R369). -/
def Dog.enter (d : Dog) (e : Event) : Dog :=
  match foldEvent e d.queue with
  | some q => { d with queue := q }
  | none =>
    if d.queue.length < 256 then { d with queue := d.queue ++ [e] }
    else if e.severity == 3 then
      match dropNote d.queue with
      | some q => { d with queue := q ++ [e] }
      | none => { d with lost := satAdd 0xFFFF d.lost 1 }
    else { d with lost := satAdd 0xFFFF d.lost 1 }

/-- HOST_FN of function `f`. -/
def State.fn (s : State) (f : Nat) : HostFn := Tab.get s.host.fns f {}
def State.modFn (s : State) (f : Nat) (h : HostFn → HostFn) : State :=
  { s with host := { s.host with fns := Tab.set s.host.fns f (h (s.fn f)) } }

/-- The functions that exist: the PF, and the VFs while VF Enable is set (R400). -/
def Host_.functions (h : Host_) : List Nat := List.range (1 + if h.vfEnable then h.numVfs else 0)

/-- The MSI-X message of function `f` is sent, or held while Bus Master Enable is 0 (R404). -/
def State.interrupt (s : State) (f : Nat) : State :=
  if (s.fn f).bme then s.send (.msix f) else s.modFn f fun h => { h with msixHeld := true }

/-- The Sheepdog queue has become non-empty: every function signals it (R400). -/
def State.signal (s : State) : State :=
  if s.host.up then s.host.functions.foldl State.interrupt s else s

/-- Report an event through the Sheepdog (R369, R370). -/
def State.report (s : State) (severity source status : Nat) (gpart : Nat := noPart) (ctx : Nat := noCtx)
    (loc : Nat := 0) (detail : Nat := 0) : State :=
  let s1 := { s with dog := s.dog.enter { tickLo := s.tickNo % 2 ^ 32, detail, loc, ctx, gpart, source, status, severity, clk := s.clk } }
  if s.dog.queue.isEmpty then s1.signal else s1

/-- FAULT_N is driven low by the aggregator: an unacknowledged severity-3 entry is queued (R369). -/
def Dog.faultN (d : Dog) : Bool := d.queue.any fun e => e.severity == 3 && !e.acked

/-- The entry as its 128 bits (R370). -/
def Event.bits (e : Event) : Nat :=
  at' e.tickLo 96 + at' (e.detail % 2 ^ 32) 64 + at' (e.loc % 2 ^ 11) 53 + at' (e.ctx % 1024) 43 +
  at' (e.gpart % 64) 37 + at' (e.source % 32) 32 + at' (e.status % 256) 24 + at' (e.severity % 4) 22 + e.repeat_

/-- A broken pair outside the stores that R484 names for severity 3 is a note (R17). -/
def State.pairNote (s : State) (source : Nat) (gpart : Nat := noPart) (ctx : Nat := noCtx) (loc : Nat := 0) : State :=
  s.report 0 source stPairBroken gpart ctx loc

/-- Stop a context: nothing further of it issues in any of its partitions from the next tick edge (R115 step 3). -/
def State.stopCtx (s : State) (c : Nat) : State := s.modRun c fun r => { r with stopNext := true }

/-- Operations performed by a context, for the meter's frame of the tick (R453). -/
def State.countOps (s : State) (c cls n : Nat) : State :=
  if n == 0 then s
  else { s with meterHub := { s.meterHub with
    ops := Tab.set s.meterHub.ops (c * 8 + cls) (Tab.get s.meterHub.ops (c * 8 + cls) 0 + n) } }

/-- A context was unloaded or its job binding changes: the frame of the tick carries its final flag, with the job id it
had (R451, R464). -/
def State.finalFlag (s : State) (c : Nat) : State :=
  let w := Tab.get s.ctxJobs c 0
  let job := if bitOf w 31 then (Tab.get s.fab.jobs (w % 16) {}).jobId else 0
  if s.meterHub.finals.any fun e => e.1 == c then s
  else { s with meterHub := { s.meterHub with finals := s.meterHub.finals ++ [(c, job)] } }

/-! ### Configuration digests (R426 to R428) -/

/-- GLB_ID of a B1 part (R13). -/
def glbId : Nat := 0x0C020021

/-- The device configuration digest (R426). -/
def State.deviceDigest (s : State) : Nat :=
  leNat (sha256 (leBytes 4 0x44474643 ++ leBytes 4 glbId ++ s.glb.sem.flatMap (leBytes 4) ++ leBytes 1 s.tick.period ++
    leBytes 1 (b2n s.glb.deterministic) ++ leBytes 2 s.gov.slew ++ leBytes 4 s.fab.sysid ++ zeros 36))

/-- The context configuration digest (R427). -/
def State.contextDigest (s : State) (c : Nat) : Nat :=
  let w := ((Tab.get s.leds c {}).cfg[0]?).getD 0
  leNat (sha256 (leBytes 4 0x44585443 ++ leBytes 32 s.glb.cfgDigest ++ padTo 32 ((s.load c).img.digest.take 32) ++
    leBytes 1 (fld w 30 27) ++ leBytes 1 (fld w 31 31) ++ leBytes 2 (fld w 26 15) ++ leBytes 2 (fld w 14 3) ++ zeros 54))

/-- At an edge after an input changed, the device digest and every context digest are formed again (R428). -/
def State.digestEdge (s : State) : State :=
  if !s.glb.digestStale then s
  else
    let s1 := { s with glb := { s.glb with cfgDigest := s.deviceDigest, cfgGen := wrapAdd 16 s.glb.cfgGen 1, digestStale := false } }
    { s1 with loads := s1.loads.map fun e => if e.2.state == 4 then (e.1, { e.2 with ctxDigest := s1.contextDigest e.1 }) else e }

/-! ### Memory: keys, cells and granule states (R180 to R196) -/

/-- Rows of a channel (R180). -/
def rowsPerChan : Nat := 393216
/-- Bytes of a channel. -/
def chanBytes : Nat := rowsPerChan * 256
/-- The first cell key of cluster memory: keys below are bulk. -/
def cmBase : Nat := 256 * chanBytes
/-- The first granule key of cluster-memory lines. -/
def lineBase : Nat := 256 * rowsPerChan
/-- Bytes of one cluster's memory (R185). -/
def cmBytes : Nat := 2 * 1024 * 1024

/-- The key of a bulk byte. -/
def bulkKey (ch off : Nat) : Nat := ch * chanBytes + off
/-- The key of a cluster-memory byte; `k` is the cluster key. -/
def cmKey (k a : Nat) : Nat := cmBase + k * cmBytes + a
/-- The granule or line of a byte key. -/
def granOf (key : Nat) : Nat := if key < cmBase then key / 256 else lineBase + (key - cmBase) / 64
/-- The bytes of a granule or line: 256 or 64. -/
def granSize (gk : Nat) : Nat := if gk < lineBase then 256 else 64
/-- The first byte key of a granule or line. -/
def granKey (gk : Nat) : Nat := if gk < lineBase then gk * 256 else cmBase + (gk - lineBase) * 64
/-- The granule key of a row of a channel. -/
def rowGran (ch row : Nat) : Nat := ch * rowsPerChan + row

/-- The canonical form: keys strictly rising, no listed cell equal to what an unlisted one reads as (0). -/
def Memory.wf : List Host.Cell → Bool
  | [] => true
  | [c] => c.2 != 0
  | c :: d :: t => c.2 != 0 && decide (c.1 < d.1) && Memory.wf (d :: t)

/-- The cell under a key; an unlisted one holds 0 (DESIGN CHOICE, unsafe: notes/assumptions/4.md). -/
def Memory.get (m : List Host.Cell) (k : Nat) : Byte := Tab.get m k 0

/-- The memory with one cell written. -/
def Memory.put (m : List Host.Cell) (k : Nat) (b : Byte) : List Host.Cell := Tab.put m k 0 b

/-- The memory with bytes written from key `k` up. -/
def Memory.putAll (m : List Host.Cell) (k : Nat) : List Byte → List Host.Cell
  | [] => m
  | b :: bs => Memory.putAll (Memory.put m k b) (k + 1) bs

/-- Bytes from key `k` up. -/
def Memory.getAll (m : List Host.Cell) (k n : Nat) : List Byte := (List.range n).map fun i => Memory.get m (k + i)

/-- The stored pair of a granule's state (R191): 0 unwritten, 1 zero-defined, 2 written, 3 poisoned. -/
def State.granPair (s : State) (gk : Nat) : Paired 2 := Tab.get s.gran gk (pairOf 2 0)

/-- The state a granule is read as: a broken pair is poisoned (R191). (DESIGN CHOICE, unsafe: notes/assumptions/38.md.) -/
def State.granState (s : State) (gk : Nat) : Nat :=
  let p := s.granPair gk
  if p.ok then p.v.toNat else 3

/-- Set a granule's state, keeping the channel's count of poisoned granules (R204). -/
def State.setGran (s : State) (gk st : Nat) : State :=
  let was := s.granState gk
  let s1 := { s with gran := Tab.put s.gran gk (pairOf 2 0) (pairOf 2 st) }
  if gk < lineBase && (was == 3) != (st == 3) then
    s1.modChan (gk / rowsPerChan) fun c =>
      { c with poisoned := if st == 3 then c.poisoned + 1 else c.poisoned - 1 }
  else s1

/-- Set the state of every granule of a list. -/
def State.setGrans (s : State) (gks : List Nat) (st : Nat) : State := gks.foldl (fun t g => t.setGran g st) s

/-- Set granules `lo` to `hi - 1` to unwritten, which is what an unlisted granule is. -/
def State.clearGrans (s : State) (lo hi : Nat) : State :=
  let s1 := { s with gran := Tab.eraseRange s.gran lo hi }
  (List.range 256).foldl (fun t ch =>
    let a := max lo (ch * rowsPerChan)
    let b := min hi ((ch + 1) * rowsPerChan)
    let k := (s.gran.filter fun e => decide (a ≤ e.1) && decide (e.1 < b) && s.granState e.1 == 3).length
    if k == 0 then t else t.modChan ch fun c => { c with poisoned := c.poisoned - k }) s1

/-- Clear the upset marks of words `lo` to `hi - 1`. -/
def State.clearEcc (s : State) (lo hi : Nat) : State := { s with ecc := Tab.eraseRange s.ecc lo hi }

/-- Count corrected errors of a granule (R196). -/
def State.countCe (s : State) (gk n : Nat) : State :=
  if n == 0 then s
  else if gk < lineBase then s.modChan (gk / rowsPerChan) fun c => { c with ce := satAdd 0xFFFFFFFF c.ce n }
  else s.modClu ((gk - lineBase) / 32768) fun c => { c with ce := satAdd 0xFFFFFFFF c.ce n }

/-- Poison a granule and count the uncorrectable error (R196, R204). -/
def State.poison (s : State) (gk : Nat) : State :=
  let s1 := s.setGran gk 3
  if gk < lineBase then s1.modChan (gk / rowsPerChan) fun c =>
    { c with ue := satAdd 0xFFFF c.ue 1, ueValid := true, lastUeRow := gk % rowsPerChan }
  else s1.modClu ((gk - lineBase) / 32768) fun c => { c with ue := satAdd 0xFFFF c.ue 1 }

/-- The upset words of a granule: their word keys (byte key ÷ 8) and kinds. -/
def State.upsets (s : State) (gk : Nat) : List (Nat × Nat) :=
  let w := granKey gk / 8
  s.ecc.filter fun e => decide (w ≤ e.1) && decide (e.1 < w + granSize gk / 8)

/-- Read one granule or line (R192, R196): the status, with corrected words counted and queued for write-back.
0 = the data may be read; zero-defined granules read as zeros with no access to the cells. -/
def State.readGran (s : State) (gk : Nat) : Nat × State :=
  match s.granState gk with
  | 0 => (stUnwritten, s)
  | 1 => (stOk, s)
  | 3 => (stEcc, if (s.granPair gk).ok then s else s.pairNote 3)
  | _ =>
    let ups := s.upsets gk
    if ups.any fun e => e.2 == 2 then (stEcc, s.poison gk)
    else
      let wbs := ups.map fun e => (⟨gk, e.1⟩ : WriteBack)
      let s1 := s.countCe gk ups.length
      (stOk, { s1 with memc := { s1.memc with writeBacks := s1.memc.writeBacks ++
        (wbs.filter fun w => !s1.memc.writeBacks.contains w) } })

/-- A byte as a reader of a readable granule sees it (R192): 0 in a zero-defined granule. -/
def State.peek (s : State) (key : Nat) : Byte :=
  if s.granState (granOf key) == 1 then 0 else Memory.get s.mem key

/-! ### Ledger and checkpoint configuration (R307, R319) and held granules (R314) -/

def State.led (s : State) (c : Nat) : Led := Tab.get s.leds c {}
def State.modLed (s : State) (c : Nat) (f : Led → Led) : State := { s with leds := Tab.set s.leds c (f (s.led c)) }
def State.ckpt (s : State) (c : Nat) : Ckpt := Tab.get s.ckpts c {}
def State.modCkpt (s : State) (c : Nat) (f : Ckpt → Ckpt) : State := { s with ckpts := Tab.set s.ckpts c (f (s.ckpt c)) }

/-- Word `i` of LEDGER_CFG. -/
def Led.word (l : Led) (i : Nat) : Nat := (l.cfg[i]?).getD 0
/-- K (R288). -/
def Led.k (l : Led) : Nat := fld (l.word 0) 30 27 + 1
def Led.herd (l : Led) : Nat := fld (l.word 0) 26 15
def Led.jobGroup (l : Led) : Nat := fld (l.word 0) 14 3
def Led.partnerDev (l : Led) : Nat := fld (l.word 1) 31 20
def Led.wardDev (l : Led) : Nat := fld (l.word 2) 31 20
def Led.sideRows (l : Led) : Nat := fld (l.word 3) 31 24
def Led.ownRow (l : Led) : Nat := fld (l.word 3) 18 0
def Led.ownRows (l : Led) : Nat := fld (l.word 4) 18 0
def Led.mirRow (l : Led) : Nat := fld (l.word 5) 18 0
def Led.gRow (l : Led) : Nat := fld (l.word 6) 18 0
def Led.dcount (l : Led) : Nat := fld (l.word 7) 31 20
def Led.gRows (l : Led) : Nat := fld (l.word 7) 18 0
def Led.retRow (l : Led) : Nat := fld (l.word 8) 18 0
def Led.dlist (l : Led) : Nat := l.word 9
def Led.tailTick (l : Led) : Nat := fld (l.word 10) 23 0
def Led.inBase (l : Led) : Nat := l.word 11
def Led.inUnits (l : Led) : Nat := l.word 12
def Led.recBase (l : Led) : Nat := l.word 13
def Led.seedAddr (l : Led) : Nat := l.word 14
def Led.jobSeed (l : Led) : Nat := l.word 15

/-- The interval of a ledger context holds a step that ended with a stopping event, a census failure, ST_UNWRITTEN or
ST_ECC_UNCORRECTABLE (R288). -/
def State.markBad (s : State) (c : Nat) : State :=
  if (s.led c).state == 0 then s else s.modLed c fun l => { l with bad := true }

/-- A checkpoint under way ends as an abort (R320): nothing more is sent, the held marks and the pool are released. -/
def State.ckptEnd (s : State) (c status port : Nat) : State :=
  (s.modCkpt c fun k => { k with
    state := 0, started := false, holding := false, saved := [], out := [], done := [], urgent := [], sent := [], tree := [],
    paused := false, lastStatus := status, portStatus := port }).report 1 8 status noPart c

/-- rot of R183 for a context row. -/
def rotOf (row C : Nat) : Nat :=
  let x0 := row ^^^ (row >>> 7)
  let x1 := (x0 * 0x2C1B3C6D) % 2 ^ 32
  let x2 := x1 ^^^ (x1 >>> 16)
  (x2 * C) >>> 32

/-- First row of a context's window in each of its channels. -/
def State.winRow (s : State) (c : Nat) : Nat := fld (s.memCtx c).win.v.toNat 17 9 * 1024

/-- The place of a bulk granule in the data of a context's shard object: own rows, then side rows, each row's granules
in ascending context address (R310). -/
def State.shardOrd (s : State) (c gk : Nat) : Option Nat :=
  let chs := s.chList c
  let C := chs.length
  let l := s.led c
  let ch := gk / rowsPerChan
  let row := gk % rowsPerChan
  if !chs.contains ch || row < s.winRow c + l.ownRow then none
  else
    let rho := row - s.winRow c
    if l.ownRow + l.ownRows + l.sideRows ≤ rho then none
    else
      let j := (chs.takeWhile (· != ch)).length
      some ((rho - l.ownRow) * C + (j + C - rotOf rho C) % C)

/-- The context whose checkpoint holds a granule, and the granule's place in its data (R313, R314). -/
def State.heldAt (s : State) (gk : Nat) : Option (Nat × Nat) :=
  if lineBase ≤ gk then none
  else s.ckpts.findSome? fun e =>
    if !e.2.holding then none
    else match s.shardOrd e.1 gk with
      | some o => if e.2.done.contains (o / 16) || e.2.saved.any (·.ord == o) then none else some (e.1, o)
      | none => none

/-- A free granule of a context's copy-on-write pool in the channel of `gk` (R314). -/
def State.poolFor (s : State) (c gk : Nat) : Option Nat :=
  let k := s.ckpt c
  ((List.range k.cowRows).map fun r => rowGran (gk / rowsPerChan) (s.winRow c + k.cowRow + r)).find? fun pg =>
    !(k.saved.any fun x => x.pool == some pg)

/-- COW_COPY (R314): before the first write to a held granule its old content goes to the pool of its channel. -/
def State.cow (s : State) (gk : Nat) : State :=
  match s.heldAt gk with
  | none => s
  | some (c, o) =>
    let bytes := Memory.getAll s.mem (granKey gk) 256
    let st := s.granState gk
    let pool := s.poolFor c gk
    let s1 := s.modCkpt c fun k => { k with saved := k.saved ++ [⟨o, st, bytes, pool⟩] }
    match pool with
    | some pg => { s1 with mem := Memory.putAll s1.mem (granKey pg) bytes }.setGran pg st
    | none => s1

/-- A write must wait for a pool granule (R314). -/
def State.cowFull (s : State) (gk : Nat) : Bool :=
  match s.heldAt gk with
  | some (c, _) => (s.poolFor c gk).isNone
  | none => false

/-- A write waits for a pool granule: the drain sends that granule's unit next (R314). -/
def State.urge (s : State) (gk : Nat) : State :=
  match s.heldAt gk with
  | some (c, o) => s.modCkpt c fun k => { k with urgent := if k.urgent.contains (o / 16) then k.urgent else k.urgent ++ [o / 16] }
  | none => s

/-- Write bytes that lie in one granule (R192). A part write that finds a broken state is reported (R191, R17). -/
def State.writeGran (s0 : State) (key : Nat) (bs : List Byte) : State :=
  let s := s0.cow (granOf key)
  let gk := granOf key
  let base := granKey gk
  let size := granSize gk
  let st := s.granState gk
  let s1 := { s with memc := { s.memc with writeBacks := s.memc.writeBacks.filter fun w => w.granule != gk } }
  if bs.length == size then
    ({ s1 with mem := Memory.putAll s1.mem key bs }.clearEcc (base / 8) ((base + size) / 8)).setGran gk 2
  else
    let s2 := if st == 0 || st == 1 then
        { s1 with mem := Memory.putAll s1.mem base (zeros size) }.clearEcc (base / 8) ((base + size) / 8)
      else s1.clearEcc (ceilDiv key 8) ((key + bs.length) / 8)
    let s3 := { s2 with mem := Memory.putAll s2.mem key bs }
    if st == 3 then (if (s.granPair gk).ok then s3 else s3.pairNote 3) else s3.setGran gk 2

/-- The byte key of a context's bulk address (R183); `none` at or beyond the end of its space (R184). -/
def State.bulkLoc (s : State) (c addr : Nat) : Option Nat :=
  let w := (s.memCtx c).win.v.toNat
  let chs := s.chList c
  let C := chs.length
  let base := fld w 17 9
  let count := fld w 8 0
  if !bitOf w 31 || C == 0 then none
  else if C * count * 262144 ≤ addr then none
  else
    let g := addr / 256
    let row := g / C
    let col := g % C
    match chs[(col + rotOf row C) % C]? with
    | some ch => some (bulkKey ch ((base * 1024 + row) * 256 + addr % 256))
    | none => none

/-- The end of a context's bulk space (R181). -/
def State.bulkEnd (s : State) (c : Nat) : Nat :=
  let w := (s.memCtx c).win.v.toNat
  if bitOf w 31 then (s.chList c).length * fld w 8 0 * 262144 else 0

/-- Who makes an access: context, cluster key, unit as R117, instruction word, whether a cluster record. -/
structure Agent where
  ctx : Nat
  loc : Nat
  unit : Nat
  instr : Nat
  gpart : Nat := noPart
  deriving DecidableEq, Repr

/-- Record a memory fault of a context and report it (R184, R193, R204). -/
def State.memFault (s : State) (ag : Agent) (status space addr : Nat) : State :=
  let m := s.memCtx ag.ctx
  let s1 := if m.fValid then s else s.modMemCtx ag.ctx fun m =>
    { m with
      fValid := true, fStatus := status, fUnit := ag.unit, fSpace := space, fLoc := ag.loc, fAddr := addr,
      fTick := s.tickNo % 2 ^ 32 }
  let s2 := if status == stUnwritten || status == stEcc then s1.markBad ag.ctx else s1
  s2.report 1 3 status ag.gpart ag.ctx ag.loc ag.instr

/-- The byte key of an address of a space: 0 the context's bulk space, 1 the memory of cluster `ag.loc`. -/
def State.locOf (s : State) (ag : Agent) (space addr : Nat) : Option Nat :=
  if space == 1 then (if addr < cmBytes then some (cmKey ag.loc addr) else none) else s.bulkLoc ag.ctx addr

/-- A request aimed at a partition that a fence has cut off, from outside that partition, is refused; what the partition
issued itself keeps its place (R372). -/
def State.walled (s : State) (ag : Agent) (key : Nat) : Bool :=
  decide (key < cmBase) && ag.gpart != key / chanBytes / 4 && s.cutOff (key / chanBytes / 4)

/-- A refused request ends at once with ST_FENCED at its issuer (R372). -/
def State.wallFault (s : State) (ag : Agent) : State := s.report 1 3 stFenced ag.gpart ag.ctx ag.loc ag.instr

/-- The granule starts that a range of addresses meets, ascending: address of each and its length inside. -/
def granPieces (space addr n : Nat) : List (Nat × Nat) :=
  if n == 0 then []
  else
    let sz := if space == 1 then 64 else 256
    let a0 := addr / sz
    let a1 := (addr + n - 1) / sz
    (List.range (a1 + 1 - a0)).map fun i =>
      let lo := max addr ((a0 + i) * sz)
      let hi := min (addr + n) ((a0 + i + 1) * sz)
      (lo, hi - lo)

/-- Read every granule that a range meets, once each, ascending, stopping at the first failure, which is
recorded (R193): the status and the address that failed. -/
def State.touch (s : State) (ag : Agent) (space addr n : Nat) : Nat × State :=
  (granPieces space addr n).foldl (fun (acc : Nat × State) pc =>
    if acc.1 != 0 then acc
    else match acc.2.locOf ag space pc.1 with
      | none => (stOutOfWindow, acc.2.memFault ag stOutOfWindow space pc.1)
      | some key =>
        if acc.2.walled ag key then (stFenced, acc.2.wallFault ag)
        else
          let r := acc.2.readGran (granOf key)
          if r.1 == 0 then r else (r.1, r.2.memFault ag r.1 space pc.1)) (0, s)

/-- The bytes of a range whose granules have been touched. -/
def State.peekRange (s : State) (ag : Agent) (space addr n : Nat) : List Byte :=
  (List.range n).map fun i => match s.locOf ag space (addr + i) with
    | some k => s.peek k
    | none => 0

/-- Read a range: its granules are touched and its bytes delivered. -/
def State.readRange (s : State) (ag : Agent) (space addr n : Nat) : Nat × List Byte × State :=
  let r := s.touch ag space addr n
  if r.1 == 0 then (0, r.2.peekRange ag space addr n, r.2) else (r.1, [], r.2)

/-- Write a range, piece by piece in ascending granules; a piece outside the space writes nothing and faults
(R184). -/
def State.writeRange (s : State) (ag : Agent) (space addr : Nat) (bs : List Byte) : Nat × State :=
  (granPieces space addr bs.length).foldl (fun (acc : Nat × State) pc =>
    if acc.1 != 0 then acc
    else match acc.2.locOf ag space pc.1 with
      | none => (stOutOfWindow, acc.2.memFault ag stOutOfWindow space pc.1)
      | some key =>
        if acc.2.walled ag key then (stFenced, acc.2.wallFault ag)
        else (0, acc.2.writeGran key (slice bs (pc.1 - addr) pc.2))) (0, s)

/-- Set the state of whole granules of a range (define-zero, invalidate: R192). -/
def State.rangeState (s : State) (ag : Agent) (space addr n st : Nat) : Nat × State :=
  (granPieces space addr n).foldl (fun (acc : Nat × State) pc =>
    if acc.1 != 0 then acc
    else match acc.2.locOf ag space pc.1 with
      | none => (stOutOfWindow, acc.2.memFault ag stOutOfWindow space pc.1)
      | some key =>
        let gk := granOf key
        let s1 := (acc.2.cow gk).clearEcc (granKey gk / 8) ((granKey gk + granSize gk) / 8)
        if acc.2.walled ag key then (stFenced, acc.2.wallFault ag)
        else (0, { s1 with memc := { s1.memc with writeBacks := s1.memc.writeBacks.filter fun w => w.granule != gk } }.setGran gk st))
    (0, s)

/-! ### Progress words (R200) -/

/-- Write a paired 32-bit progress word at prog_cm × 64 of a cluster's memory. -/
def State.writeProg (s : State) (ag : Agent) (progCm v : Nat) : State :=
  (s.writeRange ag 1 (progCm * 64) (leBytes 4 v ++ leBytes 4 (0xFFFFFFFF - v % 2 ^ 32))).2

/-- A progress event of a partition (R366). -/
def State.progress (s : State) (g : Nat) : State := s.modMon g fun m => { m with progress := true }

end Sys2Proof.Machine
end

