-- ==== Sys2Proof/Machine/Link.lean ====
section
/-! DEFINITION. The link layer of the fabric ports: frames, credits, down events, hello and training
(spec/15_fabric_links_and_topology.md R321 to R328, R341 to R343). -/

namespace Sys2Proof.Machine

def stRetryLimit : Nat := 0x40
def stTopoMismatch : Nat := 0x41
def stNoRoute : Nat := 0x42
def stCollarForeign : Nat := 0x43
def stLinkDegraded : Nat := 0x44
def stFabRefused : Nat := 0x45

def State.port (s : State) (p : Nat) : FabPort := Tab.get s.fab.ports p {}
def State.modPort (s : State) (p : Nat) (f : FabPort → FabPort) : State :=
  { s with fab := { s.fab with ports := Tab.set s.fab.ports p (f (s.port p)) } }
def FabPort.vc (x : FabPort) (v : Nat) : Vc := (x.vcs[v]?).getD {}
def FabPort.modVc (x : FabPort) (v : Nat) (f : Vc → Vc) : FabPort := { x with vcs := x.vcs.set v (f (x.vc v)) }

/-- The fabric ports (R321). -/
def fabPorts : List Nat := List.range 23

/-- The class of a port (R321): 1 board, 2 rack copper, 3 optical. -/
def portClass (p : Nat) : Nat := if p < 3 then 1 else if p < 7 then 2 else 3

/-- The buffers that a port advertises, by channel (R322). -/
def portBufs (p : Nat) : List Nat :=
  match portClass p with | 1 => [64, 1024, 256] | 2 => [64, 4096, 1024] | _ => [128, 20480, 5120]

/-- Lanes or wavelengths of a port at full width (R321). -/
def portLanes (p : Nat) : Nat := match portClass p with | 1 => 8 | 2 => 4 | _ => 16

/-- The widths at which a port may come up (R327). -/
def widthOk (p w : Nat) : Bool :=
  match portClass p with
  | 1 => w == 8 || w == 4
  | 2 => w == 4 || w == 2 || w == 1
  | _ => decide (1 ≤ w) && decide (w ≤ 16)

/-- The device's own number and role (R337). -/
def Fab.role (f : Fab) : Nat := fld f.dev.v.toNat 31 30
def Fab.num (f : Fab) : Nat := fld f.dev.v.toNat 11 0

/-- The ports in state up. -/
def State.upPorts (s : State) : List Nat := fabPorts.filter fun p => (s.port p).state == 3

/-- A status of a port: kept in last_status and reported (R342, R484). -/
def State.portStatus (s : State) (p status : Nat) : State :=
  (s.modPort p fun x => { x with lastStatus := status }).report 0 9 status noPart noCtx p

/-! ### Sending (R323, R324) -/

/-- A census marker carries what the sender holds when it is inserted (R325). -/
def Vc.fill (y : Vc) : Cell → Cell
  | .marker _ _ _ => .marker y.h.nat y.rs.nat y.sent
  | c => c

/-- Send waiting cells of a channel while it holds credits. -/
def State.pumpVc (s : State) (p v : Nat) : State :=
  ((s.port p).vc v).queue.foldl (fun t c =>
    let x := t.port p
    let y := x.vc v
    if x.state != 3 || y.h.nat == 0 then t
    else (t.modPort p fun x => x.modVc v fun y => { y with
      h := pairOf 16 (y.h.nat - 1), seq := wrapAdd 16 y.seq 1, sent := wrapAdd 32 y.sent 1,
      kept := y.kept ++ [(y.seq, y.fill c)], queue := y.queue.drop 1 }).send (.frame p v x.gen y.seq (y.fill c))) s

/-- Give a cell to a port's channel. -/
def State.giveCell (s : State) (p v : Nat) (c : Cell) : State :=
  (s.modPort p fun x => x.modVc v fun y => { y with queue := y.queue ++ [c] }).pumpVc p v

/-- Give a packet to a port's channel: its header cell and its payload cells. -/
def State.givePacket (s : State) (p v : Nat) (k : Packet) : State :=
  (List.range (k.data.length / 64)).foldl (fun t i => t.giveCell p v (.payload i)) (s.giveCell p v (.packet k))

/-- The code of fibre port `t` in a switch map (R355). -/
def mapCode (m t : Nat) : Nat := fld m (4 * t + 3) (4 * t)

/-- Map slot `i` of engine `e`. -/
def Opt.slot (o : Opt) (e i : Nat) : Nat := (o.slots[8 * e + i]?).getD 0xFFFFFFFF

/-- A valid plan entry changes an optical port (R358). -/
def State.planPort (s : State) (p : Nat) : Bool :=
  decide (7 ≤ p) && s.opt.plan.any fun x =>
    bitOf x.2.1 31 && x.1 / 32 == (p - 7) / 8 && mapCode (s.opt.slot (x.1 / 32) (fld x.2.1 30 28)) ((p - 7) % 8) != 0xF

/-- The buffers that a port advertises by channel (R322, R358). -/
def State.advertise (s : State) (p : Nat) : List Nat := (portBufs p).map fun b => if s.planPort p then b / 4 else b

/-- The hello frame of a port (R328). -/
def State.sendHello (s : State) (p serial digest : Nat) : State :=
  let x := s.port p
  s.send (.frame p 0 x.gen 0 (.hello {
    serial := serial, dev := s.fab.num, role := s.fab.role, port := p, sysid := s.fab.sysid, digest64 := digest,
    bufs := s.advertise p, last := x.vcs.map fun y => (y.rx + 65535) % 65536 }))

/-! ### Going down and coming up (R324, R327) -/

/-- Frames kept are discarded (R324). -/
def State.dropKept (s : State) (p : Nat) : State :=
  let n := (s.port p).vcs.foldl (fun a v => a + v.kept.length) 0
  if n == 0 then s
  else (s.modPort p fun x => { x with
    dropped := satAdd 0xFFFFFFFF x.dropped n, vcs := x.vcs.map fun v => { v with kept := [], replays := 0 } }).portStatus p stLinkDown

/-- The down event: the sender keeps its unacknowledged frames, the generation rises, and the port trains again
(R324). -/
def State.portDown (s : State) (p : Nat) : State :=
  s.modPort p fun x => { x with
    state := 1, width := 0, gen := wrapAdd 8 x.gen 1, search := false, retrains := satAdd 0xFFFF x.retrains 1 }

/-- The port is carrying frames: hello, up or quarantined. -/
def FabPort.live (x : FabPort) : Bool := x.state == 2 || x.state == 3 || x.state == 4

/-- Training gave up (R327). -/
def State.portFailed (s : State) (p : Nat) : State :=
  ((s.modPort p fun x => { x with state := 5, width := 0, search := false, failedAt := s.clk }).dropKept p).portStatus p stLinkDown

/-- Lanes of a port that are not fused off (R389): of board and rack-copper ports; a fibre port has none fused. -/
def State.lanesLeft (s : State) (p : Nat) : Nat :=
  let lo := if p < 3 then 8 * p else 24 + 4 * (p - 3)
  if 6 < p then portLanes p
  else ((List.range (portLanes p)).filter fun i => !bitOf s.fuses.lanes.nat (lo + i)).length

/-- PORT_TRAINING_DONE's body: training of a port in state training ends; failing on the saved settings it goes on
as a full search (R327). -/
def State.trained (s : State) (p width serial digest : Nat) (ok : Bool) : State :=
  let x := s.port p
  if x.state != 1 || (ok && s.lanesLeft p < width) then s
  else if ok && widthOk p width then
    let low := decide (width < portLanes p)
    let s1 := s.modPort p fun y => { y with state := 2, width := width, degraded := low, search := false, lastFrame := s.clk }
    let s2 := if low then s1.portStatus p stLinkDegraded else s1
    s2.sendHello p serial digest
  else if x.search then s.portFailed p
  else s.modPort p fun y => { y with search := true }

/-! ### Frames (R323) -/

/-- Sequence number `a` lies in the 2^15 numbers before `b`. -/
def seqBefore (a b : Nat) : Bool := decide (0 < (b + 65536 - a) % 65536) && decide ((b + 65536 - a) % 65536 < 32768)

/-- The returns that came with a frame: what the peer has accepted leaves the kept frames, credits come back. -/
def State.takeReturns (s : State) (f : Frame) : State :=
  (s.modPort f.port fun x => x.modVc f.vc fun y =>
    let kept := y.kept.filter fun e => !(seqBefore e.1 f.ack)
    { y with
      kept := kept, replays := if kept.length < y.kept.length then 0 else y.replays,
      h := pairOf 16 (min 0xFFFF (y.h.nat + f.credits)), rs := pairOf 32 (wrapAdd 32 y.rs.nat f.credits) }).pumpVc f.port f.vc

/-- The peer asks for a replay: every unacknowledged frame of the channel goes again; the eighth replay in a row
takes the port down (R323). -/
def State.replay (s : State) (p v : Nat) : State :=
  let y := (s.port p).vc v
  if y.kept.isEmpty then s
  else if 8 ≤ y.replays + 1 then
    ((s.modPort p fun x => x.modVc v fun y => { y with replays := 0 }).portDown p).portStatus p stRetryLimit
  else
    let s1 := s.modPort p fun x => x.modVc v fun y => { y with replays := y.replays + 1 }
    y.kept.foldl (fun t e => t.send (.frame p v (t.port p).gen e.1 e.2)) s1

/-- FRAME_RECEIVE: a link frame is accepted and acknowledged, or a replay is requested (R323). A port that is not up
carries no sequenced frames. -/
def execFrameReceive (f : Frame) (at_ : Nat) (s0 : State) : Host.Outcome State Fault Refusal :=
  let s := s0.atClk at_
  let x := s.port f.port
  if 22 < f.port || 2 < f.vc || !x.live then .next s
  else if !f.crcOk then
    .next ((s.modPort f.port fun x => { x with crcErrors := satAdd 0xFFFFFFFF x.crcErrors 1 }).send
      (.returns f.port f.vc (x.vc f.vc).rx 0 true))
  else if f.gen != x.gen then .next s
  else
    let s1 := s.modPort f.port fun x => { x with lastFrame := s.clk }
    if x.state != 3 then .next s1
    else
      let s2 := s1.takeReturns f
      let s3 := if f.replay then s2.replay f.port f.vc else s2
      if f.idle then .next s3
      else if f.seq != (x.vc f.vc).rx then .next s3
      else
        let s4 := s3.modPort f.port fun x => x.modVc f.vc fun y => { y with
          rx := wrapAdd 16 y.rx 1, got := wrapAdd 32 y.got 1, o := pairOf 16 (y.o.nat + 1) }
        .next (s4.send (.returns f.port f.vc ((s4.port f.port).vc f.vc).rx 0 false))

/-- Buffers freed at the receiver: their credits go back (R323), or are owed to a frozen circuit (R358). A buffer of an
earlier generation has none. -/
def State.freeBufs (s : State) (p v gen n : Nat) : State :=
  if 22 < p || n == 0 then s
  else if (s.port p).gen != gen then
    { s with opt := { s.opt with circs := s.opt.circs.map fun (x : Nat × Circ) => if x.1 == p && x.2.gen == gen then
        (p, { x.2 with vcs := x.2.vcs.set v { (x.2.vcs[v]?).getD {} with owed := ((x.2.vcs[v]?).getD {}).owed + n } }) else x } }
  else
    let s1 := s.modPort p fun x => x.modVc v fun y => { y with o := pairOf 16 (y.o.nat - n), rr := pairOf 32 (wrapAdd 32 y.rr.nat n) }
    s1.send (.returns p v ((s1.port p).vc v).rx n false)

/-- A beacon, echo or tree message taken from VC0 of a port frees its buffers. -/
def State.takeVc0 (s : State) (p n : Nat) : State :=
  if n ≤ ((s.port p).vc 0).o.nat then s.freeBufs p 0 (s.port p).gen n else s

/-- LINK_IDLE_TIMEOUT: no valid frame for 4,096 clk takes the port down (R324). -/
def execLinkIdleTimeout (p at_ : Nat) (s0 : State) : Host.Outcome State Fault Refusal :=
  let s := s0.atClk at_
  if !(s.port p).live || s.clk < (s.port p).lastFrame + 4096 then .next s else .next (s.portDown p)

/-- PORT_DOWN: a port goes down on loss of lane lock (R324). -/
def execPortDown (p at_ : Nat) (s0 : State) : Host.Outcome State Fault Refusal :=
  let s := s0.atClk at_
  if !(s.port p).live then .next s else .next (s.portDown p)

/-! ### The credit census (R325, R326) -/

/-- CENSUS_MARKER_INSERT of one channel (R325). -/
def State.sendMarker (s : State) (p v : Nat) : State := s.giveCell p v (.marker 0 0 0)

/-- CENSUS_MARKER_RECEIVE: the receiver takes a marker in order, checks the credit pool sum and the frame count, and
retrains the port on a mismatch (R326). The marker's own buffer is freed first. -/
def execCensusMarkerReceive (p v h rs sent at_ : Nat) (s0 : State) : Host.Outcome State Fault Refusal :=
  let s := s0.atClk at_
  let x := s.port p
  let y := x.vc v
  if x.state != 3 || 2 < v || y.o.nat == 0 then .next s
  else
    let pool := y.rpool
    let inFlight := (y.rr.nat + 2 ^ 32 - rs % 2 ^ 32) % 2 ^ 32
    if h + (y.o.nat - 1) + inFlight == pool && (y.got + 2 ^ 32 - 1) % 2 ^ 32 == sent then .next (s.freeBufs p v x.gen 1)
    else
      let s1 := s.modPort p fun x => { x with censusFail := satAdd 0xFFFF x.censusFail 1 }
      .next ((s1.portDown p).portStatus p stCensus)

/-! ### Hello (R328) -/

/-- The peer meets the port's expectation (R328). -/
def State.helloOk (s : State) (x : FabPort) (h : Hello) : Bool :=
  h.sysid == s.fab.sysid && !x.none_ && (x.expDev == 0xFFF || x.expDev == h.dev) &&
  (x.expPort == 0x3F || x.expPort == h.port) && (!x.roleCheck || x.expSwitch == (h.role == 3))

/-- A channel starts with a fresh pool (R326); the frames after the peer's last accepted one remain to be resent. -/
def Vc.fresh (y : Vc) (pool last mine : Nat) : Vc :=
  let kept := y.kept.filter fun e => seqBefore last e.1
  { y with
    pool := pool, h := pairOf 16 (pool - kept.length), rs := pairOf 32 0, sent := kept.length, kept := kept, replays := 0,
    o := pairOf 16 0, rr := pairOf 32 0, got := 0, rpool := mine, owed := 0 }

/-- The channels of a port that comes up, with the pools that the peer advertises. -/
def FabPort.fresh (x : FabPort) (h : Hello) (mine : List Nat) : FabPort :=
  { x with vcs := (List.range 3).map fun v => (x.vc v).fresh ((h.bufs[v]?).getD 0) ((h.last[v]?).getD 0) ((mine[v]?).getD 0) }

/-- Resend the kept frames of a port that came up again, then what waits. -/
def State.resend (s : State) (p : Nat) : State :=
  [0, 1, 2].foldl (fun t v =>
    (((t.port p).vc v).kept.foldl (fun u e => u.send (.frame p v (u.port p).gen e.1 e.2)) t).pumpVc p v) s

/-- HELLO_RECEIVE: a hello frame is checked against the port's expectation, and the port goes up or is quarantined
(R328); frames kept for another peer are discarded (R324). (DEDUCED, unsafe: notes/assumptions/56.md.) -/
def execHelloReceive (p : Nat) (h : Hello) (at_ : Nat) (s0 : State) : Host.Outcome State Fault Refusal :=
  let s := s0.atClk at_
  let x := s.port p
  if !x.live then .next s
  else
    let same := h.serial == x.peerSerial
    let s1 := if same then s else s.dropKept p
    let s2 := s1.modPort p fun x => { x with
      peerDev := h.dev, peerPort := h.port, peerRole := h.role, peerSerial := h.serial, lastFrame := s.clk }
    let s3 := if h.digest64 != s.glb.cfgDigest % 2 ^ 64 && !x.digestTold then
        (s2.modPort p fun x => { x with digestTold := true }).portStatus p stConfigMismatch
      else s2
    if s3.helloOk x h then
      if x.state == 3 then .next s3
      else .next ((s3.modPort p fun x => { x.fresh h (s.advertise p) with state := 3 }).resend p)
    else .next ((s3.modPort p fun x => { x with state := 4 }).portStatus p stTopoMismatch)

/-! ### Commands (R327, R335, R337, R342) -/

/-- A refusal in the FAB block (R342). -/
def State.fabRefuse (s : State) : State :=
  { s with fab := { s.fab with cmdRefused := true, lastStatus := stFabRefused } }

/-- FAB_CMD's port field, and its refusal above 22. -/
def State.fabCmd (s : State) (p : Nat) (act : State → State) : State :=
  let s1 := { s with fab := { s.fab with cmdPort := p } }
  if 22 < p then s1.fabRefuse else act s1

/-- FULL_SEARCH_RETRY: a failed port repeats its full search every 60 s (R327). -/
def execFullSearchRetry (p at_ : Nat) (s0 : State) : Host.Outcome State Fault Refusal :=
  let s := s0.atClk at_
  let x := s.port p
  if x.state != 5 || s.clk < x.failedAt + 60 * 1100000000 then .next s
  else .next (s.modPort p fun x => { x with state := 1, search := true, retrains := satAdd 0xFFFF x.retrains 1 })

/-- FAB_RETRAIN: the retrain command takes a port down and trains it from its saved settings (R342). A port that is
off stays off. -/
def execFabRetrain (p : Nat) (s : State) : Host.Outcome State Fault Refusal :=
  .next (s.fabCmd p fun t => if (t.port p).state == 0 then t else t.portDown p)

/-- FAB_FULL_SEARCH: the full_search command takes a port down and trains it by full search (R342). -/
def execFabFullSearch (p : Nat) (s : State) : Host.Outcome State Fault Refusal :=
  .next (s.fabCmd p fun t => if (t.port p).state == 0 then t else (t.portDown p).modPort p fun x => { x with search := true })

/-- FAB_PORT_OFF: the port goes to off (R342), and its circuits are forgotten (R358). -/
def execFabPortOff (p : Nat) (s : State) : Host.Outcome State Fault Refusal :=
  .next (s.fabCmd p fun t => { t.modPort p fun x => { x with
      state := 0, width := 0, search := false, gen := if x.live then wrapAdd 8 x.gen 1 else x.gen } with
    opt := { t.opt with circs := t.opt.circs.filter fun (y : Nat × Circ) => y.1 != p } })

/-- FAB_PORT_ON: an off or quarantined port starts training (R342). -/
def execFabPortOn (p : Nat) (s : State) : Host.Outcome State Fault Refusal :=
  .next (s.fabCmd p fun t =>
    let x := t.port p
    if x.state == 0 then t.modPort p fun x => { x with state := 1, search := false }
    else if x.state == 4 then t.portDown p
    else t)

/-- FAB_COMMIT: the commit command schedules the shadow tables into service at the next edge; refused while one is
pending (R335). -/
def execFabCommit (s : State) : Host.Outcome State Fault Refusal :=
  if s.fab.pending then .next s.fabRefuse else .next { s with fab := { s.fab with pending := true } }

/-- The shadow tables in service (R335). -/
def Fab.commit (f : Fab) : Fab := if f.pending then { f with route := f.routeSh, rmap := f.rmapSh, pending := false } else f

/-- FAB_DEV_WRITE: a completed FAB_DEV write changes the role at the next edge, or is refused (R337, R342). -/
def execFabDevWrite (value : Nat) (s : State) : Host.Outcome State Fault Refusal :=
  let role := fld value 31 30
  let dev := fld value 11 0
  let now := s.fab.role
  let ok := (now == 0 && role == 1 && dev != 0xFFF) || (now == 0 && role == 2) || (now == 2 && role == 1 && dev != 0xFFF) ||
    (now == 1 && role == 2 && !(s.ctxJobs.any fun e => bitOf e.2 31))
  if ok then .next { s with fab := { s.fab with devNext := some (at' role 30 + if role == 1 then dev else 0xFFF) } }
  else .next s.fabRefuse

/-- A device sends a fresh hello on every port when its FAB_DEV changes (R328). -/
def State.devEdge (s : State) (serial digest : Nat) : State :=
  match s.fab.devNext with
  | none => s
  | some v =>
    (fabPorts.filter fun p => (s.port p).live).foldl (fun t p => t.sendHello p serial digest)
      { s with fab := { s.fab with dev := pairOf 32 v, devNext := none } }

/-- The contexts bound to a job slot. -/
def State.boundTo (s : State) (slot : Nat) : List Nat :=
  (s.ctxJobs.filter fun e => bitOf e.2 31 && e.2 % 16 == slot).map (·.1)

def State.job_ (s : State) (slot : Nat) : FabJob := Tab.get s.fab.jobs slot {}
def State.modJob (s : State) (slot : Nat) (f : FabJob → FabJob) : State :=
  { s with fab := { s.fab with jobs := Tab.set s.fab.jobs slot (f (s.job_ slot)) } }

/-- FAB_CTX_JOB_WRITE: a binding of a context to a job slot is accepted while the context's load state is empty and
FAB_DEV is active, and otherwise refused (R342). -/
def execFabCtxJobWrite (c value : Nat) (s : State) : Host.Outcome State Fault Refusal :=
  if (s.load c).state == 0 && s.fab.role == 1 then
    .next { s.finalFlag c with ctxJobs := Tab.put s.ctxJobs c 0 (at' (fld value 31 31) 31 + fld value 3 0) }
  else .next s.fabRefuse

/-- A packet that the device sends waits for its port. -/
def State.emit (s : State) (k : Packet) : State := { s with fab := { s.fab with waiting := s.fab.waiting ++ [k] } }

/-- The device that hosts a rank of a slot's job (R263). -/
def State.devOfRank (s : State) (slot rank : Nat) : Nat :=
  let w := Tab.get s.fab.rmap (slot * 16384 + rank) 0
  if bitOf w 31 then fld w 11 0 else 0xFFF

end Sys2Proof.Machine
end

