-- ==== Sys2Proof/Machine/Flags.lean ====
section
/-! DEFINITION. Arithmetic events: counting, the first-event record and stopping
(spec/04_rounding_overflow_accumulation.md R114 to R117). -/

namespace Sys2Proof.Machine

/-- Add to counter `i` of a list, saturating at 2^32 − 1 (R117). -/
def bumpAt (l : List Nat) (i n : Nat) : List Nat := l.set i (satAdd 0xFFFFFFFF ((l[i]?).getD 0) n)

/-- The counters with the events of one piece of work added. -/
def Evs.count (e : Evs) (l : List Nat) : List Nat :=
  bumpAt (bumpAt (bumpAt (bumpAt l 0 e.ovf) 1 e.nan) 2 e.inf) 3 e.rsvd

/-- The status a class reports (R114): the arithmetic exception, or for RSVD the reserved encoding. -/
def classStatus (cls : Nat) : Nat := if cls == 3 then stRsvdEncoding else stArith

/-- Raise the events of one element: count them, write the first-event record if none is valid, and stop the
context where a class of them is in `mask` (R114 to R116). Answers whether the work stops, and with what. -/
def State.raise (s : State) (ag : Agent) (mask row col : Nat) (e : Evs) (st3 : Nat := stRsvdEncoding) :
    Option Nat × State :=
  match e.first with
  | none => (none, s)
  | some cls =>
    let status := if cls == 3 then st3 else classStatus cls
    let s1 := s.modArith ag.ctx fun a =>
      let a1 := { a with cnt := e.count a.cnt }
      if a1.recValid then a1
      else { a1 with
        recValid := true, recClass := cls, recStatus := status, recUnit := ag.unit, recLoc := ag.loc,
        recInstr := ag.instr, recTick := s.tickNo % 2 ^ 32, recRow := min 0xFFFF row, recCol := min 0xFFFF col }
    if e.hits mask then
      let stopSt := if (e.ovf != 0 && bitOf mask 0) || (e.nan != 0 && bitOf mask 1) || (e.inf != 0 && bitOf mask 2)
        then stArith else st3
      (some stopSt, ((s1.stopCtx ag.ctx).markBad ag.ctx).report 1 5 stopSt ag.gpart ag.ctx ag.loc ag.instr)
    else (none, s1)

/-- The clear command of ARITH_CTX_CTRL (R117): the four counters and the record's valid bit and fields. -/
def Arith.clear (a : Arith) : Arith :=
  { a with
    cnt := [0, 0, 0, 0], recValid := false, recClass := 0, recStatus := 0, recUnit := 0, recLoc := 0, recInstr := 0,
    recTick := 0, recRow := 0, recCol := 0 }

end Sys2Proof.Machine
end

