-- ==== Sys2Proof/Machine/Operands.lean ====
section
/-! DEFINITION. The operand forms: stream records, tensor descriptors, Last descriptors, weight-set records,
play lists and banked addresses (spec/05_matrix_array.md R131; spec/06_narrow_weights.md R138;
spec/07_tile_instructions.md R158 to R164; spec/08_memory.md R198; spec/09_sync_objects_and_conservation.md R212;
spec/10_avavo_images_and_loader.md R225 to R228). -/

namespace Sys2Proof.Machine

/-! ### Tensor descriptors (R162, R163) -/

/-- A tensor descriptor. -/
structure Tensor where
  scaleBase : Nat
  pstride : Nat
  pitch : Nat
  fmt : Nat
  pshare : Nat
  hasScale : Bool
  cm : Bool
  tstore : Bool
  rsvd : Nat
  base : Nat
  deriving DecidableEq, Repr

/-- Decode the 128 bits of R162. -/
def Tensor.of (x : Nat) : Tensor :=
  ⟨fld x 127 96, fld x 95 64, fld x 63 48, fld x 47 44, fld x 43 38, bitOf x 37, bitOf x 36, bitOf x 35, fld x 34 32,
    fld x 31 0⟩

/-- The element format; a reserved code reads as FP32 (the loader refuses it). -/
def Tensor.format (t : Tensor) : Fmt := (Fmt.ofCode t.fmt).getD .fp32

/-- The space of a tensor: 0 bulk, 1 cluster memory. -/
def Tensor.space (t : Tensor) : Nat := b2n t.cm

/-- The byte address of row `i` of problem `p` (R163). -/
def Tensor.rowAddr (t : Tensor) (p i : Nat) : Nat := t.base * 64 + 64 * t.pstride * (p / t.pshare) + 64 * t.pitch * i

/-- The byte address of the scale of row `i`, with `rows` rows named (R163). -/
def Tensor.scaleAddr (t : Tensor) (rows p i : Nat) : Nat := t.scaleBase * 64 + 2 * ((p / t.pshare) * rows + i)

/-! ### Tile instructions (R164) -/

/-- A tile instruction. -/
structure TileI where
  r : Nat
  deriving DecidableEq, Repr

def TileI.unit (t : TileI) : Nat := fld t.r 9 8
def TileI.sat (t : TileI) : Bool := bitOf t.r 10
def TileI.transposed (t : TileI) : Bool := bitOf t.r 11
def TileI.ord1 (t : TileI) : Nat := fld t.r 14 12
def TileI.ord2 (t : TileI) : Nat := fld t.r 17 15
def TileI.ord3 (t : TileI) : Nat := fld t.r 19 18
def TileI.tokScaleOut (t : TileI) : Bool := bitOf t.r 20
def TileI.vred (t : TileI) : Nat := fld t.r 22 21
def TileI.m (t : TileI) : Nat := fld t.r 51 32
def TileI.n (t : TileI) : Nat := fld t.r 75 52
def TileI.k (t : TileI) : Nat := fld t.r 93 76
def TileI.p (t : TileI) : Nat := fld t.r 109 94
def TileI.mc (t : TileI) : Nat := fld t.r 121 110
def TileI.nc (t : TileI) : Nat := fld t.r 133 122
def TileI.kc (t : TileI) : Nat := fld t.r 145 134
def TileI.sLen (t : TileI) : Nat := fld t.r 155 146
def TileI.lastIdx (t : TileI) : Nat := fld t.r 167 156
def TileI.ws (t : TileI) : Nat := fld t.r 179 168
def TileI.a (t : TileI) : Nat := fld t.r 191 180
def TileI.b (t : TileI) : Nat := fld t.r 203 192
def TileI.d (t : TileI) : Nat := fld t.r 215 204
def TileI.res (t : TileI) : Nat := fld t.r 227 216
def TileI.bias (t : TileI) : Nat := fld t.r 239 228
def TileI.stage (t : TileI) : Nat := fld t.r 254 240
def TileI.lastPair (t : TileI) : Bool := bitOf t.r 255
def TileI.pad (t : TileI) : Nat := fld t.r 287 256
/-- op_i, i from 1 to 8 (R164). -/
def TileI.op (t : TileI) (i : Nat) : Nat := fld t.r (352 + 5 * (i - 1) + 4) (352 + 5 * (i - 1))
def TileI.c0 (t : TileI) : Nat := fld t.r 423 392
def TileI.c1 (t : TileI) : Nat := fld t.r 455 424
def TileI.kh (t : TileI) : Nat := fld t.r 458 456 + 1
def TileI.kw (t : TileI) : Nat := fld t.r 461 459 + 1
def TileI.stride (t : TileI) : Nat := fld t.r 464 462 + 1
def TileI.dil (t : TileI) : Nat := fld t.r 467 465 + 1
def TileI.padH (t : TileI) : Nat := fld t.r 470 468
def TileI.padW (t : TileI) : Nat := fld t.r 473 471
def TileI.inW (t : TileI) : Nat := fld t.r 487 474
def TileI.inH (t : TileI) : Nat := fld t.r 501 488

/-- "None" in an index field (R162). -/
def idxNone : Nat := 0xFFF

/-- The operations of the chain, up to the first end (R174). -/
def TileI.chain (t : TileI) : List Nat := ((List.range 8).map fun i => t.op (i + 1)).takeWhile (· != 0)

/-- Output width of a window walk (R170). -/
def TileI.outW (t : TileI) : Nat := (t.inW + 2 * t.padW - t.dil * (t.kw - 1) - 1) / t.stride + 1
/-- Output height of a window walk (R170). -/
def TileI.outH (t : TileI) : Nat := (t.inH + 2 * t.padH - t.dil * (t.kh - 1) - 1) / t.stride + 1

/-- The reduction extent of an instruction: n_len in the transposed path (R103). -/
def TileI.red (t : TileI) : Nat := if t.transposed then t.n else t.k
/-- The output columns: k_len in the transposed path (R163). -/
def TileI.outCols (t : TileI) : Nat := if t.transposed then t.k else t.n

/-! ### Last descriptors (R131) -/

/-- One band. -/
structure Band where
  rowStart : Nat
  rowLen : Nat
  colStart : Nat
  colLen : Nat
  k0 : Nat
  col0 : Nat
  str0 : Nat
  deriving DecidableEq, Repr

/-- Decode a band entry: rows and columns in physical units; `none` where it is not valid. -/
def Band.of (x : Nat) : Option Band :=
  if bitOf x 63 then
    some ⟨8 * fld x 62 61, 8 * (fld x 60 59 + 1), 8 * fld x 58 57, 8 * (fld x 56 55 + 1), fld x 54 37, fld x 36 19,
      fld x 18 0⟩
  else none

/-- The valid bands of a 32-byte Last descriptor. -/
def lastOf (bs : List Byte) : List Band := (List.range 4).filterMap fun b => Band.of (leAt bs (8 * b) 8)

/-- κ(D) of R485. -/
def lastKappa (d : List Band) : Nat := d.foldl (fun m b => max m (b.k0 + b.rowLen)) 0

/-- Columns of the output that one physical column carries: 1 in BF16, 2 in FP8, 4 tokens in narrow modes. -/
inductive MMode where
  | bf16 | fp8 | narrow
  deriving DecidableEq, Repr

def MMode.perCol : MMode → Nat
  | .bf16 => 1 | .fp8 => 2 | .narrow => 4

/-- χ(D) of R485. -/
def lastChi (md : MMode) (d : List Band) : Nat := d.foldl (fun m b => max m (b.col0 + md.perCol * b.colLen)) 0

/-! ### Weight-set records (R138) -/

/-- A weight-set record. -/
structure WSet where
  r : Nat
  deriving DecidableEq, Repr

def WSet.code (w : WSet) : Nat := fld w.r 31 0
def WSet.scale (w : WSet) : Nat := fld w.r 63 32
def WSet.book (w : WSet) : Nat := fld w.r 95 64
def WSet.side (w : WSet) : Nat := fld w.r 127 96
def WSet.fallback (w : WSet) : Nat := fld w.r 159 128
def WSet.k (w : WSet) : Nat := fld w.r 177 160
def WSet.n (w : WSet) : Nat := fld w.r 201 178
def WSet.fmtCode (w : WSet) : Nat := fld w.r 205 202
def WSet.fbCode (w : WSet) : Nat := fld w.r 209 206
def WSet.groupCode (w : WSet) : Nat := fld w.r 213 210
def WSet.outliers (w : WSet) : Nat := fld w.r 225 214
def WSet.slot (w : WSet) : Nat := fld w.r 233 226
def WSet.trip (w : WSet) : Nat := fld w.r 237 234
def WSet.limit (w : WSet) : Nat := fld w.r 253 238
def WSet.fmt (w : WSet) : Fmt := (Fmt.ofCode w.fmtCode).getD .w4
/-- G = 2^(group_code + 7) rows. -/
def WSet.group (w : WSet) : Nat := 2 ^ (w.groupCode + 7)
/-- Bytes of one code row (R138). -/
def WSet.rowBytes (w : WSet) : Nat := row64 w.k w.fmt.bits
/-- Address of code row `n`. -/
def WSet.codeRow (w : WSet) (n : Nat) : Nat := w.code * 64 + n * w.rowBytes
/-- Address of the codebook record of row `n` (R139). -/
def WSet.bookRow (w : WSet) (n : Nat) : Nat := w.book * 64 + 64 * (n / w.group)
/-- Bytes of the outlier list, padded to 64 (R144). -/
def WSet.listBytes (w : WSet) : Nat := ceilDiv (4 * w.outliers) 64 * 64
/-- Address of the side weights of row `n` (R144). -/
def WSet.sideRow (w : WSet) (n : Nat) : Nat := w.side * 64 + w.listBytes + n * row64 w.outliers 16
/-- Address of row `n` of the fallback copy in `f` (R152). -/
def WSet.fbRow (w : WSet) (f : Fmt) (n : Nat) : Nat := w.fallback * 64 + n * row64 w.k f.bits

/-! ### Retriever descriptors (R198) -/

/-- A Retriever descriptor. -/
structure RetD where
  r : Nat
  deriving DecidableEq, Repr

def RetD.sat (d : RetD) : Bool := bitOf d.r 8
def RetD.srcSpace (d : RetD) : Nat := fld d.r 10 9
def RetD.dstSpace (d : RetD) : Nat := fld d.r 12 11
def RetD.srcFmtC (d : RetD) : Nat := fld d.r 16 13
def RetD.dstFmtC (d : RetD) : Nat := fld d.r 20 17
def RetD.op (d : RetD) : Nat := fld d.r 22 21
def RetD.src (d : RetD) : Nat := fld d.r 95 32
def RetD.dst (d : RetD) : Nat := fld d.r 159 96
def RetD.elems (d : RetD) : Nat := fld d.r 183 160
def RetD.rows (d : RetD) : Nat := fld d.r 203 184
def RetD.srcPitch (d : RetD) : Nat := fld d.r 235 204
def RetD.dstPitch (d : RetD) : Nat := fld d.r 267 236
def RetD.qp (d : RetD) : Nat := fld d.r 279 268
def RetD.progCm (d : RetD) : Nat := fld d.r 294 280
def RetD.srcFmt (d : RetD) : Fmt := (Fmt.ofCode d.srcFmtC).getD .fp32
def RetD.dstFmt (d : RetD) : Fmt := (Fmt.ofCode d.dstFmtC).getD .fp32
/-- Bytes of a destination row (R199). -/
def RetD.dstRowBytes (d : RetD) : Nat := d.dstFmt.rowBytes d.elems
/-- Bytes of a source row. -/
def RetD.srcRowBytes (d : RetD) : Nat := d.srcFmt.rowBytes d.elems
/-- Units of one destination row (R200). -/
def RetD.rowUnits (d : RetD) : Nat := ceilDiv d.dstRowBytes 64
/-- Units of the descriptor. -/
def RetD.units (d : RetD) : Nat := d.rows * d.rowUnits

/-! ### Kinds, units, waits and signals -/

/-- The kind of a record (R158). -/
def recKind (r : Nat) : Nat := fld r 7 0

/-- The queue of a record (R159, R213): 0 and 1 matrix units, 2 Awl, 3 vector unit, 4 Retriever. -/
def recUnit (r : Nat) : Nat := if recKind r == 1 then fld r 9 8 else 4

/-- The unit number of R117 for a queue. -/
def unit117 (u : Nat) : Nat := match u with | 0 => 0 | 1 => 0 | 2 => 1 | 3 => 2 | _ => 4

/-- The 16-bit wait or signal group whose object is at `lo` (R164, R198, R212). -/
def wsAt (r lo : Nat) : Nat × Nat := (fld r (lo + 10) lo, fld r (lo + 15) (lo + 11))

/-- Waits of a record, wait0 first: object and count. -/
def recWaits (r : Nat) : List (Nat × Nat) :=
  match recKind r with
  | 1 => [wsAt r 288, wsAt r 304]
  | 3 => [wsAt r 296, wsAt r 312]
  | 4 => [wsAt r 316, wsAt r 332]
  | 5 => [wsAt r 396, wsAt r 412]
  | 6 => [wsAt r 20, wsAt r 36]
  | _ => []

/-- Signals of a record: object and count. -/
def recSigs (r : Nat) : List (Nat × Nat) :=
  match recKind r with
  | 1 => [wsAt r 320, wsAt r 336]
  | 3 => [wsAt r 328, wsAt r 344]
  | 4 => [wsAt r 348, wsAt r 364]
  | 5 => [wsAt r 428, wsAt r 444]
  | _ => []

/-- Sends of a sync-object record: object, count, destination partition index (R212). -/
def recSends (r : Nat) : List (Nat × Nat × Nat) :=
  if recKind r == 6 then [(fld r 62 52, fld r 67 63, fld r 73 68), (fld r 84 74, fld r 89 85, fld r 95 90)] else []

/-- The needs of a record's waits: one entry for each object, both counts summed where they name one object
(R172). -/
def waitNeeds (r : Nat) : List (Nat × Nat) :=
  match (recWaits r).filter fun w => w.2 != 0 with
  | [a, b] => if a.1 == b.1 then [(a.1, a.2 + b.2)] else [a, b]
  | l => l

/-- The fields of a segment mark (R160). -/
def markRel (r : Nat) : Nat := fld r 55 32
def markEnd (r : Nat) : Bool := bitOf r 8
def markLen (r : Nat) : Nat := fld r 72 56

/-! ### Images in memory -/

/-- The section of a type, if the image has one (R225). -/
def Image.sec (im : Image) (typ : Nat) : Option Sec := im.secs.find? fun x => x.typ == typ

/-- The context bulk address of a placed section. -/
def Image.place (im : Image) (typ : Nat) : Nat := match im.sec typ with | some x => x.place * 64 | none => 0

/-- Entries of a placed table of `n`-byte entries. -/
def Image.entries (im : Image) (typ n : Nat) : Nat := match im.sec typ with | some x => x.size * 64 / n | none => 0

/-- The image of a context. -/
def State.image (s : State) (c : Nat) : Image := (s.load c).img

/-- Tensor `i` of a context, as its table holds it. -/
def State.tensor (s : State) (ag : Agent) (i : Nat) : Tensor :=
  Tensor.of (leNat (s.peekRange ag 0 ((s.image ag.ctx).place 2 + 16 * i) 16))

/-- Last descriptor `i`. -/
def State.last (s : State) (ag : Agent) (i : Nat) : List Band :=
  lastOf (s.peekRange ag 0 ((s.image ag.ctx).place 3 + 32 * i) 32)

/-- Weight-set record `i`. -/
def State.wset (s : State) (ag : Agent) (i : Nat) : WSet :=
  ⟨leNat (s.peekRange ag 0 ((s.image ag.ctx).place 4 + 32 * i) 32)⟩

/-- The address in bank (rep mod banks) of the buffer that holds an address in its bank 0 (R228). `part` and `n`
name the cluster for cluster-memory addresses. -/
def Image.subst (im : Image) (cm : Bool) (part n rep addr : Nat) : Nat :=
  match im.bufs.find? fun b => b.cm == cm && (!cm || (b.part == part && b.cluster == n)) &&
      decide (b.addr ≤ addr) && decide (addr < b.addr + b.size) with
  | some b => addr + (rep % b.banks) * b.size
  | none => addr

/-- A play-list entry (R227). -/
structure Play where
  repeat_ : Nat
  stride : Nat
  tickBase : Nat
  len : Nat
  off : Nat
  rsvd : Bool
  deriving DecidableEq, Repr

/-- Decode the 256 bits of a play-list entry. -/
def Play.of (x : Nat) : Play :=
  ⟨fld x 131 116, fld x 115 92, fld x 91 68, fld x 55 32, fld x 31 0,
    fld x 255 132 != 0 || fld x 67 56 != 0⟩

/-- Where a position of the expanded stream lies: code index (64 B units in the section), repetition, ticks
added. -/
structure Where where
  instr : Nat
  rep : Nat
  ticks : Nat
  deriving DecidableEq, Repr

/-- Position `pos` of the expanded stream of a play list (R227). -/
def findPos : List Play → Nat → Option Where
  | [], _ => none
  | e :: es, pos =>
    let n := e.len * e.repeat_
    if pos < n then
      let rep := pos / e.len
      some ⟨e.off + pos % e.len, rep, e.tickBase + rep * e.stride⟩
    else findPos es (pos - n)

/-- The play list of a cluster, read from the context's bulk space: partition index `j`, cluster `n` (R227). -/
def State.playList (s : State) (ag : Agent) (j n : Nat) : Nat × List Play × State :=
  let base := (s.image ag.ctx).place 1
  let r := s.readRange ag 0 (base + 16 * (18 * j + n)) 16
  if r.1 != 0 then (r.1, [], r.2.2)
  else
    let d := leNat r.2.1
    let len := fld d 95 80
    let q := r.2.2.readRange ag 0 (base + 64 * fld d 127 96) (32 * len)
    if q.1 != 0 then (q.1, [], q.2.2)
    else (0, (List.range len).map fun i => Play.of (leAt q.2.1 (32 * i) 32), q.2.2)

/-- The record at a position of a cluster's expanded stream: its place and its 512 bits. -/
def State.fetchRec (s : State) (ag : Agent) (j n pos : Nat) : Nat × Option (Where × Nat) × State :=
  let r := s.playList ag j n
  if r.1 != 0 then (r.1, none, r.2.2)
  else match findPos r.2.1 pos with
    | none => (0, none, r.2.2)
    | some w =>
      let q := r.2.2.readRange { ag with instr := w.instr } 0 ((s.image ag.ctx).place 1 + 64 * w.instr) 64
      if q.1 != 0 then (q.1, none, q.2.2) else (0, some (w, leNat q.2.1), q.2.2)

/-! ### Cobbler passes (R248) -/

/-- A Cobbler pass. -/
structure CobP where
  r : Nat
  deriving DecidableEq, Repr

def CobP.sat (p : CobP) : Bool := bitOf p.r 8
def CobP.op (p : CobP) : Nat := fld p.r 10 9
def CobP.decay (p : CobP) : Bool := bitOf p.r 11
def CobP.biasCorr (p : CobP) : Bool := bitOf p.r 12
def CobP.clip (p : CobP) : Bool := bitOf p.r 13
def CobP.epsInside (p : CobP) : Bool := bitOf p.r 14
def CobP.skip (p : CobP) : Bool := bitOf p.r 15
def CobP.emitC (p : CobP) : Nat := fld p.r 19 16
def CobP.ws (p : CobP) : Nat := fld p.r 31 20
def CobP.n0 (p : CobP) : Nat := fld p.r 55 32
def CobP.rows (p : CobP) : Nat := fld p.r 79 56
def CobP.k (p : CobP) : Nat := fld p.r 97 80
def CobP.hiRow (p : CobP) : Nat := fld p.r 116 98
def CobP.loRow (p : CobP) : Nat := fld p.r 135 117
def CobP.mRow (p : CobP) : Nat := fld p.r 154 136
def CobP.vRow (p : CobP) : Nat := fld p.r 173 155
def CobP.gRow (p : CobP) : Nat := fld p.r 192 174
def CobP.geRow (p : CobP) : Nat := fld p.r 211 193
def CobP.eRow (p : CobP) : Nat := fld p.r 230 212
def CobP.esRow (p : CobP) : Nat := fld p.r 249 231
def CobP.hyper (p : CobP) : Nat := fld p.r 281 250
def CobP.monRow (p : CobP) : Nat := fld p.r 300 282
def CobP.progCm (p : CobP) : Nat := fld p.r 315 301
def CobP.narrow (p : CobP) : Bool := p.ws != idxNone

end Sys2Proof.Machine
end

