-- ==== Sys2Proof/Machine/Sync.lean ====
section
/-! DEFINITION. Sync objects, tokens, sends and the census (spec/09_sync_objects_and_conservation.md R206 to R222). -/

namespace Sys2Proof.Machine

/-- The pair of an object (R206). -/
def PartSync.obj (p : PartSync) (o : Nat) : Paired 16 := Tab.get p.objs o (pairOf 16 0)

/-- Set an object's pair; a count of zero is not listed. -/
def PartSync.setObj (p : PartSync) (o : Nat) (v : Paired 16) : PartSync :=
  { p with objs := Tab.put p.objs o (pairOf 16 0) v }

/-- A 16-bit paired count raised by `n`, held at its limit (R214). -/
def raise16 (p : Paired 16) (n : Nat) : Paired 16 := pairOf 16 (min 0xFFFF (p.nat + n))

/-- A 16-bit paired count lowered by `n`. -/
def lower16 (p : Paired 16) (n : Nat) : Paired 16 := pairOf 16 (p.nat - n)

/-- What a census records of its first failure (R221). -/
structure CensusFail where
  gpart : Nat
  counter : Nat
  kind : Nat
  obj : Nat
  found : Nat
  expected : Nat
  deriving DecidableEq, Repr

/-- A failure of conservation (R217): counted, recorded if no record is valid, reported; the context stops. -/
def State.censusFail (s : State) (c : Nat) (f : CensusFail) : State :=
  let s1 := s.modCens c fun r =>
    let r1 := { r with mismatches := satAdd 0xFFFF r.mismatches 1 }
    if r1.recValid then r1
    else { r1 with
      recValid := true, gpart := f.gpart, counter := f.counter, failKind := f.kind, obj := f.obj, found := f.found,
      expected := f.expected }
  let s2 := (s1.modRun c fun r => { r with broken := true, stopNext := true }).markBad c
  s2.report 1 4 stCensus f.gpart c

/-- A broken object pair was found (R17, R217): the object is frozen and the context stops. -/
def State.breakObj (s : State) (c g o : Nat) : State :=
  let s1 := s.modSync g fun p => { p with frozen := if p.frozen.contains o then p.frozen else p.frozen ++ [o] }
  (s1.pairNote 4 g c).censusFail c ⟨g, 0, 2, o, 0, 0⟩

/-- A count of a partition (1 in_hand, 2 out, 3 stranded) that would rise to `n`, above 65,535, is held there: a fault of the
context resident in it (R207, R214). -/
def State.limitFault (s : State) (g counter n : Nat) : State :=
  if n ≤ 0xFFFF then s
  else match s.residentOf g with
    | some c => s.censusFail c ⟨g, counter, 3, 0, 0xFFFF, 0xFFFF⟩
    | none => s

/-- Tokens to the stranded count of a partition (R215). -/
def State.strand (s : State) (g n : Nat) : State :=
  if n == 0 then s
  else (s.modSync g fun p => { p with stranded := raise16 p.stranded n }).limitFault g 3 ((s.part g).sync.stranded.nat + n)

/-- in_hand of a partition up by `n`. -/
def State.handUp (s : State) (g n : Nat) : State :=
  if n == 0 then s
  else (s.modSync g fun p => { p with inHand := raise16 p.inHand n }).limitFault g 1 ((s.part g).sync.inHand.nat + n)

/-- out of a partition up by `n` (R213). -/
def State.outUp (s : State) (g n : Nat) : State :=
  (s.modSync g fun p => { p with out := raise16 p.out n }).limitFault g 2 ((s.part g).sync.out.nat + n)

/-- in_hand of a partition down by `n`. -/
def State.handDown (s : State) (g n : Nat) : State :=
  if n == 0 then s else s.modSync g fun p => { p with inHand := lower16 p.inHand n }

/-- Give `n` tokens to object `o` of partition `g` for context `c` (R172, R207, R215): to stranded where the pair
is broken or frozen; the excess above 65,535 to stranded, with the fault of R207. -/
def State.give (s : State) (c g o n : Nat) : State :=
  if n == 0 then s
  else
    let p := (s.part g).sync
    let v := p.obj o
    if p.frozen.contains o then s.strand g n
    else if !v.ok then (s.breakObj c g o).strand g n
    else
      let t := v.nat + n
      let s1 := s.modSync g fun p => p.setObj o (pairOf 16 (min 0xFFFF t))
      if 0xFFFF < t then (s1.strand g (t - 0xFFFF)).censusFail c ⟨g, 0, 3, o, 0xFFFF, 0xFFFF⟩ else s1

/-- The waits of a record are met in partition `g` (R172, R173): every waited object holds enough, none frozen. -/
def State.waitsMet (s : State) (g : Nat) (needs : List (Nat × Nat)) : Bool :=
  needs.all fun w =>
    let p := (s.part g).sync
    (p.obj w.1).ok && !p.frozen.contains w.1 && decide (w.2 ≤ (p.obj w.1).nat)

/-- The first waited object whose pair is found broken when the wait is tested (R17, R222). -/
def State.brokenWait (s : State) (g : Nat) (needs : List (Nat × Nat)) : Option Nat :=
  (needs.find? fun w => !(((s.part g).sync.obj w.1).ok) && !((s.part g).sync.frozen.contains w.1)).map (·.1)

/-- Take the tokens of met waits in one action, into in_hand (R172, R213). -/
def State.takeTokens (s : State) (g : Nat) (needs : List (Nat × Nat)) : State :=
  let s1 := needs.foldl (fun t w => t.modSync g fun p => p.setObj w.1 (lower16 (p.obj w.1) w.2)) s
  s1.handUp g ((needs.map (·.2)).foldl (· + ·) 0)

/-- The boundary count of an object of the context's partition `j` (R230). -/
def Image.bound (im : Image) (j o : Nat) : Nat := (im.bounds[2048 * j + o]?).getD 0

/-- The sum of the boundary counts of one partition (R214). -/
def Image.boundSum (im : Image) (j : Nat) : Nat := ((im.bounds.drop (2048 * j)).take 2048).foldl (· + ·) 0

/-- Set the objects of a partition to a context's boundary counts, and clear in_hand, out and stranded: the
reseed of R211. -/
def State.reseed (s : State) (c g : Nat) : State :=
  let im := s.image c
  let j := s.partIndex c g
  let objs := (List.range 2048).filterMap fun o => if im.bound j o == 0 then none else some (o, pairOf 16 (im.bound j o))
  s.modSync g fun _ => { objs := objs }

/-- Every object and count of a partition at 0 (R211 burn, R374). -/
def State.emptySync (s : State) (g : Nat) : State := s.modSync g fun _ => {}

/-- The first broken pair of a partition, or at a step boundary the first count that differs from its boundary
(R216). -/
def State.objFail (s : State) (c g : Nat) (boundary : Bool) : Option CensusFail :=
  let p := (s.part g).sync
  let im := s.image c
  let j := s.partIndex c g
  (List.range 2048).findSome? fun o =>
    let v := p.obj o
    if !v.ok then some ⟨g, 0, 2, o, 0, 0⟩
    else if boundary && v.nat != im.bound j o then some ⟨g, 0, 0, o, v.nat, im.bound j o⟩
    else none

/-- A nonzero or broken in_hand, out or stranded (R216), in that order. -/
def State.handFail (s : State) (g : Nat) (boundary : Bool) : Option CensusFail :=
  let p := (s.part g).sync
  [(1, p.inHand), (2, p.out), (3, p.stranded)].findSome? fun e =>
    if !e.2.ok then some ⟨g, e.1, 2, 0, 0, 0⟩
    else if boundary && e.2.nat != 0 then some ⟨g, e.1, 4, 0, e.2.nat, 0⟩
    else none

/-- What a pair counts in T: a broken one nothing, since neither half is used (R17). -/
def soundNat {w : Nat} (p : Paired w) : Nat := if p.ok then p.nat else 0

/-- What a partition holds of T (R214): its counts, in_hand, out and stranded where the context is resident, the
boundary counts where it is not. -/
def State.partTotal (s : State) (c g : Nat) : Nat :=
  if s.residentOf g == some c then
    let p := (s.part g).sync
    (p.objs.foldl (fun a e => a + soundNat e.2) 0) + soundNat p.inHand + soundNat p.out + soundNat p.stranded
  else (s.image c).boundSum (s.partIndex c g)

/-- T of a context (R214). -/
def State.total (s : State) (c : Nat) : Nat := (s.partsOf c).foldl (fun a g => a + s.partTotal c g) 0

/-- The first failure of a census (R216): by partition in ascending order, then T against the minted total. -/
def State.firstFail (s : State) (c : Nat) (boundary : Bool) : Option CensusFail :=
  let res := (s.partsOf c).filter fun g => s.residentOf g == some c
  match res.findSome? fun g => (s.objFail c g boundary).orElse fun _ => s.handFail g boundary with
  | some f => some f
  | none =>
    let t := s.total c
    let m := (s.cens c).minted
    if t == m then none else some ⟨((s.partsOf c).head?).getD 0, 0, 1, 0, min 0xFFFF t, m⟩

/-- The objects of a partition whose pairs are broken. -/
def PartSync.brokenObjs (p : PartSync) : List Nat := (p.objs.filter fun e => !e.2.ok).map (·.1)

/-- Every pair of a partition that a census reads broken is reported, and a broken object is frozen (R17, R217). -/
def State.readPairs (s : State) (c g : Nat) : State :=
  let p := (s.part g).sync
  let bad := p.brokenObjs
  let s1 := s.modSync g fun q => { q with frozen := q.frozen ++ bad.filter fun o => !q.frozen.contains o }
  if bad.isEmpty && p.inHand.ok && p.out.ok && p.stranded.ok then s else s1.pairNote 4 g c

/-- Take a census of a context (R216, R217): counted, its total recorded; answers whether it passed. (DEDUCED, unsafe: notes/assumptions/64.md.) -/
def State.takeCensus (s : State) (c : Nat) (boundary : Bool) : Bool × State :=
  let f := s.firstFail c boundary
  let s1 := s.modCens c fun r => { r with runs := wrapAdd 16 r.runs 1, lastTotal := min 0xFFFF (s.total c) }
  let s2 := ((s.partsOf c).filter fun g => s.residentOf g == some c).foldl (fun t g => t.readPairs c g) s1
  match f with
  | none => (true, s2)
  | some f => (false, s2.censusFail c f)

/-- Settle the books of the context of a fenced partition (R218): T must equal the minted total. -/
def State.settle (s : State) (c : Nat) : Bool × State :=
  if s.total c == (s.cens c).minted then (true, s)
  else
    (false, s.modCens c fun r =>
      let r1 := { r with mismatches := satAdd 0xFFFF r.mismatches 1, lastTotal := min 0xFFFF (s.total c) }
      if r1.recValid then r1
      else { r1 with
        recValid := true, gpart := ((s.partsOf c).head?).getD 0, counter := 0, failKind := 1, obj := 0,
        found := min 0xFFFF (s.total c), expected := r1.minted })

/-- The latency of a send from one partition to another and the links it crosses (R213, R23). -/
def State.sendHops (s : State) (a b : Nat) : Nat := ((s.weltPath (dieOf a) (dieOf b)).getD []).length

/-- Start the sends of a sync-object record whose tokens are in hand (R213 step 2). -/
def State.startSends (s : State) (c g n idx r : Nat) : State :=
  let ps := s.partsOf c
  (recSends r).foldl (fun t sd =>
    if sd.2.1 == 0 then t
    else
      let dst := (ps[sd.2.2]?).getD g
      let remote := dst != g
      let hops := s.sendHops g dst
      let t1 := if remote then (t.handDown g sd.2.1).outUp g sd.2.1 else t
      let e : Send := {
        id := t1.sync.nextSend, src := g, n := n, idx := idx, dst := dst, obj := sd.1, tokens := sd.2.1, remote := remote,
        due := t1.clk + 1 + (if remote then 32 + 24 * hops else 4), hops := hops, phase := 0 }
      { t1 with sync := { t1.sync with sends := t1.sync.sends ++ [e], nextSend := t1.sync.nextSend + 1 } }) s

/-- The send numbered `id`. -/
def State.sendOf (s : State) (id : Nat) : Option Send := s.sync.sends.find? fun e => e.id == id

/-- The sends without number `id`. -/
def State.dropSend (s : State) (id : Nat) : State :=
  { s with sync := { s.sync with sends := s.sync.sends.filter fun e => e.id != id } }

/-- Change the run of index `idx` of a cluster. -/
def Clu.modRun (c : Clu) (idx : Nat) (f : Run → Run) : Clu :=
  { c with runs := c.runs.map fun r => if r.idx == idx then f r else r }

/-- A sync-object record with no send left has done its work (R213 step 4). -/
def State.sendsDone (s : State) (e : Send) : State :=
  if s.sync.sends.any fun x => x.src == e.src && x.n == e.n && x.idx == e.idx then s
  else s.modClu (18 * e.src + e.n) fun c => c.modRun e.idx fun r => { r with finished := true, taken := 0 }

/-- The context that a send's tokens belong to: the one resident at its source or its destination. -/
def State.sendCtx (s : State) (e : Send) : Nat := ((s.residentOf e.src).orElse fun _ => s.residentOf e.dst).getD noCtx

/-- LOCAL_SEND_APPLY: a send to the record's own partition reaches its object 4 clk after it started, and its
tokens leave in_hand in that clk (R213 step 2). -/
def execLocalSendApply (id at_ : Nat) (s0 : State) : Host.Outcome State Fault Refusal :=
  let s := s0.atClk at_
  match s.sendOf id with
  | none => .next s
  | some e =>
    if e.remote || s.clk < e.due then .next s
    else
      let s1 := (s.dropSend id).handDown e.src e.tokens
      .next ((s1.give (s.sendCtx e) e.src e.obj e.tokens).sendsDone e)

/-- REMOTE_SEND_APPLY: the destination partition applies a remote send, or strands it where it is cut off, and
returns the acknowledgement over the same path (R213 step 3, R215, R222). -/
def execRemoteSendApply (id at_ : Nat) (s0 : State) : Host.Outcome State Fault Refusal :=
  let s := s0.atClk at_
  match s.sendOf id with
  | none => .next s
  | some e =>
    if !e.remote || e.phase != 0 || s.clk < e.due then .next s
    else
      let s1 := if s.cutOff e.dst then s.strand e.dst e.tokens else s.give (s.sendCtx e) e.dst e.obj e.tokens
      let back := s1.clk + 32 + 24 * e.hops
      .next { s1 with sync := { s1.sync with
        sends := s1.sync.sends.map fun x => if x.id == id then { x with phase := 1, due := back } else x } }

/-- SEND_ACK_RECEIVE: on arrival of the acknowledgement the source reduces out by n (R213 step 3). -/
def execSendAckReceive (id at_ : Nat) (s0 : State) : Host.Outcome State Fault Refusal :=
  let s := s0.atClk at_
  match s.sendOf id with
  | none => .next s
  | some e =>
    if !e.remote || e.phase != 1 || s.clk < e.due then .next s
    else
      let s1 := (s.dropSend id).modSync e.src fun p => { p with out := lower16 p.out e.tokens }
      .next (s1.sendsDone e)

/-- No issued record of the context is unretired (R221). -/
def State.noRecords (s : State) (c : Nat) : Bool :=
  (s.partsOf c).all fun g => (s.residentOf g != some c) ||
    ((List.range 18).all fun n => (s.clu (18 * g + n)).runs.isEmpty && (s.clu (18 * g + n)).queue.isEmpty)

/-- A SYNC_CMD command is refused (R221): a record is in flight, or the start state is ramping, or one runs. -/
def State.syncRefused (s : State) (c : Nat) : Bool :=
  !s.noRecords c || (s.start c).state == 2 || decide (s.clk < s.sync.busyTo)

/-- The status a census command reports (R221). -/
def censusStatus (ok : Bool) : Nat := if ok then stOk else stCensus

/-- SYNC_CENSUS: the census command checks the pairs and the total of a context; it runs for the 289 clk of R216 (R221). (DEDUCED, unsafe: notes/assumptions/13.md.) -/
def execSyncCensus (c : Nat) (s0 : State) : Host.Outcome State Fault Refusal :=
  let s := { s0 with sync := { s0.sync with cmdCtx := c } }
  if s.syncRefused c then .next { s with sync := { s.sync with cmdRefused := true } }
  else
    let r := s.takeCensus c false
    .next { r.2 with sync := { r.2.sync with lastStatus := censusStatus r.1, busyTo := s.clk + 289 } }

/-- Reseed every partition in which a context is resident (R211). -/
def State.reseedAll (s : State) (c : Nat) : State :=
  (s.partsOf c).foldl (fun t g => if t.residentOf g == some c then t.reseed c g else t) s

/-- SYNC_RESEED: the reseed command takes a census and then reseeds every partition of the context; the reseed adds 256 clk
(R211, R221). -/
def execSyncReseed (c : Nat) (s0 : State) : Host.Outcome State Fault Refusal :=
  let s := { s0 with sync := { s0.sync with cmdCtx := c } }
  if s.syncRefused c then .next { s with sync := { s.sync with cmdRefused := true } }
  else
    let r := s.takeCensus c false
    let s1 := r.2.reseedAll c
    .next { s1 with sync := { s1.sync with lastStatus := censusStatus r.1, busyTo := s.clk + 545 } }

end Sys2Proof.Machine
end

