-- ==== Sys2Proof/Machine/Mem.lean ====
section
/-! DEFINITION. Memory commands: windows, arbitration weights, granule reads and writes, write-back and scrub
(spec/08_memory.md R180 to R197, R204, R205). -/

namespace Sys2Proof.Machine

/-- The bits of a MEM_CTX_WIN word that are not rsvd (R204). -/
def winMask (v : Nat) : Nat := at' (fld v 31 31) 31 + fld v 17 0

/-- Two ranges of row units meet. -/
def unitsMeet (b1 c1 b2 c2 : Nat) : Bool := decide (b1 < b2 + c2) && decide (b2 < b1 + c1)

/-- A window's units: base and count, `none` where it is not valid. -/
def State.window (s : State) (c : Nat) : Option (Nat × Nat) :=
  let w := (s.memCtx c).win.v.toNat
  if bitOf w 31 then some (fld w 17 9, fld w 8 0) else none

/-- Another context that shares a partition has a window whose rows meet these (R182). -/
def State.windowMeets (s : State) (c base count : Nat) : Bool :=
  s.memCtxs.any fun e => e.1 != c && match s.window e.1 with
    | some w => unitsMeet base count w.1 w.2 && (s.partsOf e.1).any fun g => (s.partsOf c).contains g
    | none => false

/-- A destructive traffic-generator run covers some of the rows in a channel of the list (R182). -/
def State.tgCovers (s : State) (chs : List Nat) (base count : Nat) : Bool :=
  chs.any fun ch =>
    let t := (s.chan ch).tg
    t.busy && t.mode != 1 && unitsMeet base count t.baseK t.countK

/-- The reason a window write is refused, `none` where it is accepted (R182). -/
def State.windowRefusal (s : State) (c v : Nat) : Option Nat :=
  let base := fld v 17 9
  let count := fld v 8 0
  if !s.notStarted c then some stWindowRefused
  else if bitOf v 31 && (count == 0 || 384 < count || 384 < base + count) then some stWindowRefused
  else if bitOf v 31 && s.windowMeets c base count then some stWindowRefused
  else if bitOf v 31 && s.tgCovers (s.chList c) base count then some stTgBusy
  else none

/-- Every granule of a range of row units of some channels to unwritten. -/
def State.clearRows (s : State) (chs : List Nat) (base count : Nat) : State :=
  chs.foldl (fun t ch => t.clearGrans (rowGran ch (base * 1024)) (rowGran ch ((base + count) * 1024))) s

/-- WINDOW_WRITE: the final word of MEM_CTX_WIN sets or refuses a context's bulk window; an accepted one makes
its granules unwritten (R182). -/
def execWindowWrite (c value : Nat) (s : State) : Host.Outcome State Fault Refusal :=
  let v := winMask value
  match s.windowRefusal c v with
  | some st => .next { s with memc := { s.memc with winRefused := true, lastRefusal := st, refusedCtx := c % 1024 } }
  | none =>
    let s0 := if s.loader.busy == some c then { s with loader := { s.loader with winChanged := true } } else s
    let s1 := s0.modMemCtx c fun m => { m with win := pairOf 32 v }
    .next (if bitOf v 31 then s1.clearRows (s1.chList c) (fld v 17 9) (fld v 8 0) else s1)

/-- MEM_ARB_WRITE: weights that sum to 16 take effect at the next edge; others are discarded (R204). -/
def execMemArbWrite (value : Nat) (s : State) : Host.Outcome State Fault Refusal :=
  let w := (fld value 15 12, fld value 11 8, fld value 7 4, fld value 3 0)
  if w.1 + w.2.1 + w.2.2.1 + w.2.2.2 == 16 then .next { s with memc := { s.memc with arbNext := some w } }
  else .next { s with memc := { s.memc with arbRefused := true } }

/-- Upsets reach a written granule before an access (R195): word and kind, 1 correctable, 2 not, 3 the pair of the
granule's state. An upset of a word already upset cannot be corrected. -/
def State.upset (s : State) (gk : Nat) (ups : List (Nat × Nat)) : State :=
  ups.foldl (fun t u =>
    if u.2 == 3 then
      let p := t.granPair gk
      { t with gran := Tab.set t.gran gk ⟨p.v, p.n ^^^ 1⟩ }
    else if t.granState gk == 2 && u.1 < granSize gk / 8 then
      let w := granKey gk / 8 + u.1
      { t with ecc := Tab.set t.ecc w (if u.2 == 1 && Tab.get t.ecc w 0 == 0 then 1 else 2) }
    else t) s

/-- The agent of a request. -/
def reqAgent (c g n unit : Nat) : Agent := { ctx := c, loc := if unit == 7 then 0 else 18 * g + n, unit := unit, instr := 0, gpart := if unit == 7 then noPart else g }

/-- GRANULE_READ: a read request to the granule or line at an address acts by its state and is corrected by ECC;
the requester receives the data, or a status and no data (R192, R193, R196, R372). -/
def execGranuleRead (c g n unit space addr : Nat) (ups : List (Nat × Nat)) (s : State) : Host.Outcome State Fault Refusal :=
  let ag := reqAgent c g n unit
  match s.locOf ag space addr with
  | none => .next ((s.memFault ag stOutOfWindow space addr).send (.data stOutOfWindow []))
  | some key =>
    let gk := granOf key
    let r := (s.upset gk ups).readGran gk
    if s.walled ag key then .next ((s.wallFault ag).send (.data stFenced []))
    else if r.1 == 0 then
      .next (r.2.send (.data stOk ((List.range (granSize gk)).map fun i => r.2.peek (granKey gk + i))))
    else .next ((r.2.memFault ag r.1 space addr).send (.data r.1 []))

/-- A write of a whole or part granule updates the cells and the granule state; nothing is written
outside the space (R184, R192). -/
def State.granuleWrite (s : State) (c g n unit space addr : Nat) (bytes : List Byte) : State :=
  (s.writeRange (reqAgent c g n unit) space addr bytes).2

/-- ECC_WRITEBACK: the first corrected word waiting at a channel (`cm` false) or cluster is written back in an
unclaimed slot (R196); a word that can no longer be corrected poisons its granule. -/
def execEccWriteback (cm : Bool) (idx : Nat) (s : State) : Host.Outcome State Fault Refusal :=
  let mine (w : WriteBack) : Bool :=
    if cm then decide (lineBase ≤ w.granule) && (w.granule - lineBase) / 32768 == idx
    else decide (w.granule < lineBase) && w.granule / rowsPerChan == idx
  match s.memc.writeBacks.find? mine with
  | none => .next s
  | some w =>
    let s1 := { s with memc := { s.memc with writeBacks := s.memc.writeBacks.filter fun x => x != w } }
    if Tab.get s1.ecc w.word 0 == 2 then .next (s1.poison w.granule)
    else .next { s1 with ecc := Tab.erase s1.ecc w.word }

/-- A read by scrub or by a read-scan of words `lo` to `hi - 1` of a written granule (R196, R197): corrected and
counted, or poisoned and reported with its channel and row. -/
def State.scanWords (s : State) (gk lo hi : Nat) : State :=
  let w0 := granKey gk / 8
  let ups := (s.upsets gk).filter fun e => decide (w0 + lo ≤ e.1) && decide (e.1 < w0 + hi)
  if ups.any fun e => e.2 == 2 then
    let s1 := s.poison gk
    if gk < lineBase then s1.report 0 3 stEcc noPart noCtx (gk / rowsPerChan) (gk % rowsPerChan)
    else s1.report 0 3 stEcc noPart noCtx ((gk - lineBase) / 32768) ((gk - lineBase) % 32768)
  else
    let s1 := s.countCe gk ups.length
    { s1 with memc := { s1.memc with writeBacks := s1.memc.writeBacks ++
      ((ups.map fun e => (⟨gk, e.1⟩ : WriteBack)).filter fun w => !s1.memc.writeBacks.contains w) } }

/-- The first written granule from `lo` to `hi - 1`. -/
def State.nextWritten (s : State) (lo hi : Nat) : Option Nat :=
  (s.gran.find? fun e => decide (lo ≤ e.1) && decide (e.1 < hi) && s.granState e.1 == 2).map (·.1)

/-- A scrub access of a bulk channel (R197). (DESIGN CHOICE, unsafe: notes/assumptions/37.md.) -/
def State.scrubBulk (s : State) (ch : Nat) (ups : List (Nat × Nat)) : State :=
  let c := s.chan ch
  let base := rowGran ch 0
  let stamp (x : State) : State := x.modChan ch fun c => { c with scrubClk := x.clk }
  if c.scrubBeat == 1 && s.granState (base + c.scrubRow) == 2 then
    let s1 := (s.upset (base + c.scrubRow) ups).scanWords (base + c.scrubRow) 16 32
    let wrap := c.scrubRow + 1 == rowsPerChan
    stamp (s1.modChan ch fun c => { c with
      scrubBeat := 0, scrubRow := if wrap then 0 else c.scrubRow + 1,
      scrubPasses := if wrap then wrapAdd 16 c.scrubPasses 1 else c.scrubPasses })
  else
    match s.nextWritten (base + c.scrubRow) (base + rowsPerChan) with
    | some gk => stamp (((s.upset gk ups).scanWords gk 0 16).modChan ch fun c => { c with scrubRow := gk - base, scrubBeat := 1 })
    | none =>
      match s.nextWritten base (base + c.scrubRow) with
      | some gk => stamp (((s.upset gk ups).scanWords gk 0 16).modChan ch fun c => { c with
          scrubRow := gk - base, scrubBeat := 1, scrubPasses := wrapAdd 16 c.scrubPasses 1 })
      | none => stamp s

/-- A scrub access of one bank of a cluster's memory (R197): lines L with L mod 8 the bank. -/
def State.scrubLine (s : State) (k bank : Nat) (ups : List (Nat × Nat)) : State :=
  let c := s.clu k
  let base := lineBase + k * 32768
  let inBank (e : Nat × Paired 2) : Bool := decide (base ≤ e.1) && decide (e.1 < base + 32768) && (e.1 - base) % 8 == bank && s.granState e.1 == 2
  let at0 := (c.scrubNext[bank]?).getD 0
  let cand := (s.gran.find? fun e => inBank e && decide (base + at0 ≤ e.1)).orElse fun _ => s.gran.find? inBank
  let s1 := match cand with
    | some e => ((s.upset e.1 ups).scanWords e.1 0 8).modClu k fun c => { c with scrubNext := c.scrubNext.set bank ((e.1 - base + 8) % 32768) }
    | none => s
  s1.modClu k fun c => { c with scrubClk := c.scrubClk.set bank s1.clk }

/-- SCRUB_ACCESS: a scrub access that has fallen due reads the next written granule or line, of a channel or of a
bank of a cluster's memory (R197). -/
def execScrubAccess (cm : Bool) (idx bank at_ : Nat) (ups : List (Nat × Nat)) (s0 : State) : Host.Outcome State Fault Refusal :=
  let s := s0.atClk at_
  if cm then
    if s.memc.cmEn && bank < 8 && (((s.clu idx).scrubClk[bank]?).getD 0) + s.memc.interval ≤ s.clk then .next (s.scrubLine idx bank ups)
    else .next s
  else if s.memc.bulkEn && (s.chan idx).scrubClk + s.memc.interval ≤ s.clk then .next (s.scrubBulk idx ups)
  else .next s

end Sys2Proof.Machine
end

