-- ==== Sys2Proof/Machine/Func.lean ====
section
/-! DEFINITION. The correctly rounded functions of the vector unit and of the drain
(spec/04_rounding_overflow_accumulation.md R110, spec/07_tile_instructions.md R174, R175).
A function is enclosed between two rational bounds at rising precision until both bounds round alike. -/

namespace Sys2Proof.Machine

/-- The integer square root: one digit in base 2 for each unit of fuel, from the top. -/
def isqrtGo : Nat → Nat → Nat → Nat
  | 0, _, r => r
  | k + 1, n, r =>
    let c := r + 2 ^ k
    isqrtGo k n (if c * c ≤ n then c else r)

/-- The floor of the square root. -/
def isqrt (n : Nat) : Nat := isqrtGo (Nat.log2 n / 2 + 1) n 0

/-- An enclosure: two integers in units of 2^-P. -/
structure Iv where
  lo : Int
  hi : Int
  deriving Repr

/-- The ceiling of a quotient of integers, the divisor positive. -/
def cdivI (a b : Int) : Int := -((-a).fdiv b)

/-- The enclosure of an exact number. -/
def ivQ (P : Nat) (q : Q) : Iv :=
  let n : Int := (if q.neg then -(q.num : Int) else (q.num : Int)) * (2 ^ P : Nat)
  ⟨n.fdiv q.den, cdivI n q.den⟩

/-- Sum of enclosures. -/
def Iv.add (a b : Iv) : Iv := ⟨a.lo + b.lo, a.hi + b.hi⟩
/-- Difference of enclosures. -/
def Iv.sub (a b : Iv) : Iv := ⟨a.lo - b.hi, a.hi - b.lo⟩

/-- Product of enclosures, rounded outwards. -/
def Iv.mul (P : Nat) (a b : Iv) : Iv :=
  let p := [a.lo * b.lo, a.lo * b.hi, a.hi * b.lo, a.hi * b.hi]
  let mn := p.foldl min (a.lo * b.lo)
  let mx := p.foldl max (a.lo * b.lo)
  let u : Int := (2 ^ P : Nat)
  ⟨mn.fdiv u, cdivI mx u⟩

/-- Quotient by a positive whole number. -/
def Iv.divN (a : Iv) (n : Nat) : Iv := ⟨a.lo.fdiv n, cdivI a.hi n⟩

/-- Quotient of enclosures, the divisor positive. -/
def Iv.div (P : Nat) (a b : Iv) : Iv :=
  let u : Int := (2 ^ P : Nat)
  let f (x y : Int) : Int := (x * u).fdiv y
  let g (x y : Int) : Int := cdivI (x * u) y
  let bl := max b.lo 1
  ⟨min (f a.lo bl) (f a.lo b.hi), max (g a.hi bl) (g a.hi b.hi)⟩

/-- The enclosure of 1. -/
def ivOne (P : Nat) : Iv := ⟨(2 ^ P : Nat), (2 ^ P : Nat)⟩

/-- The Taylor sum of e^y for |y| ≤ 1/2, N terms, the rest enclosed by twice the next term. -/
def expSmall (P N : Nat) (y : Iv) : Iv :=
  let r := (List.range N).foldl (fun (st : Iv × Iv) n =>
      let t := (st.2.mul P y).divN (n + 1)
      (st.1.add t, t)) (ivOne P, ivOne P)
  let e := 2 * max r.2.lo.natAbs r.2.hi.natAbs + 2
  ⟨r.1.lo - (e : Int), r.1.hi + (e : Int)⟩

/-- Squared `n` times. -/
def Iv.sqN (P : Nat) : Nat → Iv → Iv
  | 0, a => a
  | n + 1, a => Iv.sqN P n (a.mul P a)

/-- e^y for an enclosure with 0 ≤ y ≤ 128. -/
def expPos (P : Nat) (y : Iv) : Iv := (expSmall P (P / 2 + 8) (y.divN 256)).sqN P 8

/-- e^y for an enclosure whose magnitude is at most 128. -/
def ivExp (P : Nat) (y : Iv) : Iv :=
  if 0 ≤ y.lo then expPos P y
  else if y.hi ≤ 0 then (ivOne P).div P (expPos P ⟨-y.hi, -y.lo⟩)
  else
    let a := (ivOne P).div P (expPos P ⟨0, -y.lo⟩)
    let b := expPos P ⟨0, y.hi⟩
    ⟨a.lo, b.hi⟩

/-- 2 × atanh z for 0 ≤ z ≤ 1/3, by its series. -/
def atanh2 (P : Nat) (z : Iv) : Iv :=
  let z2 := z.mul P z
  let N := P / 3 + 4
  let r := (List.range N).foldl (fun (st : Iv × Iv) n =>
      (st.1.add (st.2.divN (2 * n + 1)), st.2.mul P z2)) ((⟨0, 0⟩ : Iv), z)
  let s := r.1
  let e : Int := 2 * max r.2.lo.natAbs r.2.hi.natAbs + 2
  ⟨2 * (s.lo - e), 2 * (s.hi + e)⟩

/-- The natural logarithm of 2. -/
def ivLn2 (P : Nat) : Iv := atanh2 P (ivQ P ⟨false, 1, 3⟩)

/-- The natural logarithm of a positive number. -/
def ivLn (P : Nat) (q : Q) : Iv :=
  let e := q.log2
  let m := q.scale (-e)
  let z := ivQ P ⟨false, m.num - m.den, m.num + m.den⟩
  let l := ivLn2 P
  let el : Iv := if 0 ≤ e then ⟨e * l.lo, e * l.hi⟩ else ⟨e * l.hi, e * l.lo⟩
  (atanh2 P z).add el

/-- arctan of 1/n by its series. -/
def ivAtanInv (P n : Nat) : Iv :=
  let z := ivQ P ⟨false, 1, n⟩
  let N := P / 4 + 4
  let r := (List.range N).foldl (fun (st : Iv × Iv) k =>
      let t := st.2.divN (2 * k + 1)
      (if k % 2 == 0 then st.1.add t else st.1.sub t, st.2.divN (n * n))) ((⟨0, 0⟩ : Iv), z)
  ⟨r.1.lo - 4, r.1.hi + 4⟩

/-- The circle constant, by Machin's formula. -/
def ivPi (P : Nat) : Iv :=
  let a := ivAtanInv P 5
  let b := ivAtanInv P 239
  let m (k : Int) (x : Iv) : Iv := ⟨k * x.lo, k * x.hi⟩
  (m 16 a).sub (m 4 b)

/-- The square root of a positive enclosure. -/
def ivSqrt (P : Nat) (a : Iv) : Iv :=
  let u := 2 ^ P
  ⟨(isqrt (a.lo.toNat * u) : Int), (isqrt (a.hi.toNat * u) + 1 : Nat)⟩

/-- The normal distribution function Φ for |u| ≤ 16. -/
def ivPhi (P : Nat) (q : Q) : Iv :=
  let u := ivQ P q
  let u2 := u.mul P u
  let N := P + 400
  let r := (List.range N).foldl (fun (st : Iv × Iv) n =>
      let t := st.2.divN (2 * n + 1)
      let s := if n % 2 == 0 then st.1.add t else st.1.sub t
      (s, (st.2.mul P u2).divN (2 * (n + 1)))) ((⟨0, 0⟩ : Iv), u)
  let s : Iv := ⟨r.1.lo - 4, r.1.hi + 4⟩
  let pi := ivPi P
  let c := ivSqrt P ⟨2 * pi.lo, 2 * pi.hi⟩
  (s.div P c).add (ivQ P ⟨false, 1, 2⟩)

/-- The exact number of an integer in units of 2^-P. -/
def qOfUnits (P : Nat) (x : Int) : Q := ⟨decide (x < 0), x.natAbs, 2 ^ P⟩

/-- The precisions tried, in bits. -/
def precisions : List Nat := [420, 840, 1680, 3360]

/-- Round a number enclosed at rising precision: the first enclosure whose ends round alike decides. The last
precision's lower end stands where none does, which the functions below never reach for an encodable input
(DEDUCED, unsafe: notes/assumptions/12.md). -/
def roundEnc (f : FF) (sat : Bool) (g : Nat → Iv) : List Nat → Nat × Evs
  | [] => (f.canonNan, {})
  | [P] => f.roundQ sat (qOfUnits P (g P).lo)
  | P :: ps =>
    let i := g P
    let a := f.roundQ sat (qOfUnits P i.lo)
    let b := f.roundQ sat (qOfUnits P i.hi)
    if a.1 == b.1 then a else roundEnc f sat g ps

/-- An exact result, rounded once. -/
def ret (f : FF) (sat : Bool) (v : Val) (e : Evs) : Nat × Evs :=
  let r := f.encode sat v
  (r.1, e.add r.2)

/-- A number too small to be anything but an underflow, with the sign given (R94). -/
def tiny (neg : Bool) : Val := .fin ⟨neg, 1, 2 ^ 200⟩
/-- A finite number that overflows FP32 and BF16. -/
def huge (neg : Bool) : Val := .fin ⟨neg, 2 ^ 200, 1⟩

/-- The bound beyond which e^x overflows or underflows for certain. -/
def far (q : Q) : Bool := (Q.ofNat 128).lt q.abs

/-- e^x (R110). -/
def fnExp (f : FF) (sat : Bool) (v : Val) : Nat × Evs :=
  match v with
  | .nan => ret f sat .nan {}
  | .inf n => ret f sat (if n then posZero else .inf false) {}
  | .fin q =>
    if q.isZero then ret f sat oneV {}
    else if far q then ret f sat (if q.neg then tiny false else huge false) {}
    else roundEnc f sat (fun P => ivExp P (ivQ P q)) precisions

/-- 2^x (R110); a whole number is exact. -/
def fnExp2 (f : FF) (sat : Bool) (v : Val) : Nat × Evs :=
  match v with
  | .nan => ret f sat .nan {}
  | .inf n => ret f sat (if n then posZero else .inf false) {}
  | .fin q =>
    if (Q.ofNat 180).lt q.abs then ret f sat (if q.neg then tiny false else huge false) {}
    else if q.num % q.den == 0 then
      ret f sat (.fin (Q.dyadic false 1 (if q.neg then -((q.num / q.den : Nat) : Int) else ((q.num / q.den : Nat) : Int)))) {}
    else roundEnc f sat (fun P => ivExp P ((ivQ P q).mul P (ivLn2 P))) precisions

/-- The natural logarithm (R110). -/
def fnLog (f : FF) (sat : Bool) (v : Val) : Nat × Evs :=
  match v with
  | .nan => ret f sat .nan {}
  | .inf n => if n then ret f sat .nan evNan else ret f sat (.inf false) {}
  | .fin q =>
    if q.isZero then ret f sat (.inf true) evInf
    else if q.neg then ret f sat .nan evNan
    else if q.num == q.den then ret f sat posZero {}
    else roundEnc f sat (fun P => ivLn P q) precisions

/-- The logarithm to base 2 (R110); a power of two is exact. -/
def fnLog2 (f : FF) (sat : Bool) (v : Val) : Nat × Evs :=
  match v with
  | .nan => ret f sat .nan {}
  | .inf n => if n then ret f sat .nan evNan else ret f sat (.inf false) {}
  | .fin q =>
    if q.isZero then ret f sat (.inf true) evInf
    else if q.neg then ret f sat .nan evNan
    else if (Q.dyadic false 1 q.log2).eqv q then ret f sat (.fin (Q.ofInt q.log2)) {}
    else roundEnc f sat (fun P => (ivLn P q).div P (ivLn2 P)) precisions

/-- The square root of an enclosed exact number. -/
def ivSqrtQ (P : Nat) (q : Q) : Iv :=
  let n := q.num * 2 ^ (2 * P)
  let lo := isqrt (n / q.den)
  if n % q.den == 0 && lo * lo == n / q.den then ⟨(lo : Int), (lo : Int)⟩ else ⟨(lo : Int), (lo + 1 : Nat)⟩

/-- The square root (R110). -/
def fnSqrt (f : FF) (sat : Bool) (v : Val) : Nat × Evs :=
  match v with
  | .nan => ret f sat .nan {}
  | .inf n => if n then ret f sat .nan evNan else ret f sat (.inf false) {}
  | .fin q =>
    if q.isZero then ret f sat (.fin q) {}
    else if q.neg then ret f sat .nan evNan
    else roundEnc f sat (fun P => ivSqrtQ P q) precisions

/-- The reciprocal square root (R110). -/
def fnRsqrt (f : FF) (sat : Bool) (v : Val) : Nat × Evs :=
  match v with
  | .nan => ret f sat .nan {}
  | .inf n => if n then ret f sat .nan evNan else ret f sat posZero {}
  | .fin q =>
    if q.isZero then ret f sat (.inf q.neg) evInf
    else if q.neg then ret f sat .nan evNan
    else roundEnc f sat (fun P => ivSqrtQ P ⟨false, q.den, q.num⟩) precisions

/-- The reciprocal (R110). -/
def fnRcp (f : FF) (sat : Bool) (v : Val) : Nat × Evs :=
  let r := oneV.div v
  ret f sat r.1 r.2

/-- The logistic function 1 ÷ (1 + e^−x), enclosed. -/
def ivSigmoid (P : Nat) (q : Q) : Iv := (ivOne P).div P ((ivOne P).add (ivExp P (ivQ P q.flip)))

/-- sigmoid (R110). -/
def fnSigmoid (f : FF) (sat : Bool) (v : Val) : Nat × Evs :=
  match v with
  | .nan => ret f sat .nan {}
  | .inf n => ret f sat (if n then posZero else oneV) {}
  | .fin q =>
    if q.isZero then ret f sat (.fin ⟨false, 1, 2⟩) {}
    else if far q then ret f sat (if q.neg then tiny false else oneV) {}
    else roundEnc f sat (fun P => ivSigmoid P q) precisions

/-- tanh (R110). -/
def fnTanh (f : FF) (sat : Bool) (v : Val) : Nat × Evs :=
  match v with
  | .nan => ret f sat .nan {}
  | .inf n => ret f sat (.fin ⟨n, 1, 1⟩) {}
  | .fin q =>
    if q.isZero then ret f sat (.fin q) {}
    else if (Q.ofNat 60).lt q.abs then ret f sat (.fin ⟨q.neg, 1, 1⟩) {}
    else roundEnc f sat (fun P =>
      let e := ivExp P (ivQ P { q with num := 2 * q.num })
      (e.sub (ivOne P)).div P (e.add (ivOne P))) precisions

/-- gelu: u × Φ(u), rounded once (R174, R175). -/
def fnGelu (f : FF) (sat : Bool) (v : Val) : Nat × Evs :=
  match v with
  | .nan => ret f sat .nan {}
  | .inf n => ret f sat (if n then negZero else .inf false) {}
  | .fin q =>
    if q.isZero then ret f sat (.fin q) {}
    else if (Q.ofNat 16).lt q.abs then ret f sat (if q.neg then tiny true else .fin q) {}
    else roundEnc f sat (fun P => (ivPhi P q).mul P (ivQ P q)) precisions

/-- silu: u × sigmoid(u), rounded once (R174, R175). -/
def fnSilu (f : FF) (sat : Bool) (v : Val) : Nat × Evs :=
  match v with
  | .nan => ret f sat .nan {}
  | .inf n => ret f sat (if n then negZero else .inf false) {}
  | .fin q =>
    if q.isZero then ret f sat (.fin q) {}
    else if (Q.ofNat 128).lt q.abs then ret f sat (if q.neg then tiny true else .fin q) {}
    else roundEnc f sat (fun P => (ivSigmoid P q).mul P (ivQ P q)) precisions

/-- A vector sum in lane order (R111): `lanes` lanes, each folded from −0 in ascending index, then halving
rounds. `rnd` is the accumulate rounding of the lane format. -/
def laneSum (lanes : Nat) (add : Val → Val → Val × Evs) (xs : List Val) : Val × Evs :=
  let lane (l : Nat) : Val × Evs :=
    ((List.range (ceilDiv xs.length lanes)).foldl (fun (st : Val × Evs) j =>
      match xs[l + j * lanes]? with
      | some x => let r := add st.1 x; (r.1, st.2.add r.2)
      | none => st) (negZero, {}))
  let init := (List.range lanes).map lane
  let rounds := (List.range (Nat.log2 lanes)).map fun i => lanes / 2 ^ (i + 1)
  let fin := rounds.foldl (fun (st : List Val × Evs) w =>
      let rs := (List.range w).map fun l => add ((st.1[l]?).getD negZero) ((st.1[l + w]?).getD negZero)
      (rs.map Prod.fst, rs.foldl (fun (e : Evs) r => e.add r.2) st.2))
    (init.map Prod.fst, init.foldl (fun (e : Evs) r => e.add r.2) {})
  ((fin.1[0]?).getD negZero, fin.2)

/-- A max or min reduction (R112): lanes without an element take no part, so the result is that of the
elements alone. -/
def laneFold (op : Val → Val → Val) (xs : List Val) : Val :=
  match xs with
  | [] => .nan
  | x :: rest => rest.foldl op (if x.isNan then .nan else x)

end Sys2Proof.Machine
end

