-- ==== Sys2Proof/Machine/Tile.lean ====
section
/-! DEFINITION. Tile instructions: operands, folds, passes, banks, drains and vector work
(spec/04_rounding_overflow_accumulation.md R97 to R116; spec/05_matrix_array.md R120 to R137, R485;
spec/06_narrow_weights.md R138 to R156; spec/07_tile_instructions.md R162 to R179). -/

namespace Sys2Proof.Machine

/-! ### A tile instruction with what it names -/

/-- What stands on the weight side (R165, R152): a tensor, a narrow weight set, or its fallback copy. -/
inductive BSide where
  | dense
  | codes
  | fallback (f : Fmt)
  | none_
  deriving DecidableEq, Repr

/-- A tile instruction in its cluster, with its tensors and weight set. -/
structure Job where
  ag : Agent
  t : TileI
  a : Tensor
  b : Tensor
  d : Tensor
  res : Tensor
  bias : Tensor
  w : WSet
  side : BSide
  part : Nat
  n : Nat
  rep : Nat
  mask : Nat
  outliers : List Nat
  deriving DecidableEq, Repr

/-- The agent of a record of cluster `n` of partition `g` (R117). -/
def agentOf (c g n unit instr : Nat) : Agent := { ctx := c, loc := 18 * g + n, unit := unit, instr := instr, gpart := g }

/-- The weight side of an instruction that names weight set `w` (R152, R165). -/
def State.sideOf (s : State) (c : Nat) (t : TileI) (w : WSet) : BSide :=
  if t.ws == idxNone then (if t.b == idxNone then .none_ else .dense)
  else
    let d := s.drift c w.slot
    if w.trip != 0 && d.fallen then .fallback ((Fmt.ofCode w.fbCode).getD .bf16) else .codes

/-- Gather what a started tile instruction names. -/
def State.job (s : State) (c g n : Nat) (r : Run) : Job :=
  let t : TileI := ⟨r.rec_⟩
  let ag := agentOf c g n (unit117 r.unit) r.instr
  let w := s.wset ag t.ws
  let side := s.sideOf c t w
  { ag, t, a := s.tensor ag t.a, b := s.tensor ag t.b, d := s.tensor ag t.d, res := s.tensor ag t.res,
    bias := s.tensor ag t.bias, w, side, part := s.partIndex c g, n, rep := r.rep, mask := r.mask,
    outliers := if side == .codes && w.outliers != 0 then
        (List.range w.outliers).map fun i => leAt (s.peekRange ag 0 (w.side * 64) (4 * w.outliers)) (4 * i) 4
      else [] }

/-- The address in the bank of this repetition (R228). -/
def State.bankAddr (s : State) (j : Job) (space addr : Nat) : Nat :=
  (s.image j.ag.ctx).subst (space == 1) (if space == 1 then j.part else 0) (if space == 1 then j.n else 0) j.rep addr

/-- The bit pattern of element `col` of a row of format `f` at `addr`. -/
def State.elemBits (s : State) (j : Job) (space addr : Nat) (f : Fmt) (col : Nat) : Nat :=
  let sp := f.elemSpan col
  f.elem (s.peekRange j.ag space (s.bankAddr j space addr + sp.1) sp.2) (col % f.perUnit)

/-- Element (i, col) of problem p of a tensor of `rows` rows and `cols` columns, exactly, with the events of
decoding it and a key that names it (R163, R91). The exponents of a GX16 tensor lie at its scale base
(DEDUCED, unsafe: notes/assumptions/20.md). -/
def State.elemVal (s : State) (j : Job) (tn : Tensor) (rows cols p i col : Nat) : Val × Evs × Nat :=
  let addr := tn.rowAddr p i
  let key := (s.bankAddr j tn.space addr * 64 + col) * 2 + b2n tn.cm + 64
  if tn.format == .gx16 then
    let blk := (p / tn.pshare * rows + i) * ceilDiv cols 64 + col / 64
    let e := leNat (s.peekRange j.ag tn.space (s.bankAddr j tn.space (tn.scaleBase * 64 + blk)) 1)
    let bs := s.peekRange j.ag tn.space (s.bankAddr j tn.space addr + 128 * (col / 64)) 128
    ((Gx.ofBytes e bs).elem (col % 64), {}, key)
  else
    let v := tn.format.decode (s.elemBits j tn.space addr tn.format col)
    (v.1, v.2, key)

/-- The scale of row `i` of a tensor (R81, R163). -/
def State.scaleVal (s : State) (j : Job) (tn : Tensor) (rows p i : Nat) : Val × Evs :=
  scDecode (leNat (s.peekRange j.ag tn.space (s.bankAddr j tn.space (tn.scaleAddr rows p i)) 2))

/-- The per-row scale of weight row `n` (R138). -/
def State.wScale (s : State) (j : Job) (n : Nat) : Val × Evs :=
  scDecode (leNat (s.peekRange j.ag 0 (s.bankAddr j 0 (j.w.scale * 64 + 2 * n)) 2))

/-- The codebook of weight row `n` (R139). -/
def State.wBook (s : State) (j : Job) (n : Nat) : List Nat :=
  codebookOf j.w.fmt (s.peekRange j.ag 0 (s.bankAddr j 0 (j.w.bookRow n)) 64)

/-- The code of weight (n, k). -/
def State.wCode (s : State) (j : Job) (n k : Nat) : Nat := s.elemBits j 0 (j.w.codeRow n) j.w.fmt k

/-- The side weight of row `n` at outlier index `i` (R144). -/
def State.wSide (s : State) (j : Job) (n i : Nat) : Val := ffBF.decode (s.elemBits j 0 (j.w.sideRow n) .bf16 i)

/-- Rows and columns that operand A has (R163). -/
def Job.aRows (j : Job) : Nat :=
  if j.t.ord3 == 1 then (j.t.k / (j.t.kh * j.t.kw)) * j.t.inH else j.t.m
def Job.aCols (j : Job) : Nat :=
  if j.t.unit == 3 then j.t.n else if j.t.ord3 == 1 then j.t.inW else j.t.red

/-- Whether each class of `e` is new to an element whose classes so far are `had`, and the classes after (R114:
one event of a class for each element). -/
def Evs.fresh (e : Evs) (had : Nat) : Evs × Nat :=
  let c := e.cap
  let f (n i : Nat) : Nat := if bitOf had i then 0 else n
  (⟨f c.ovf 0, f c.nan 1, f c.inf 2, f c.rsvd 3⟩,
    had ||| (c.ovf + 2 * c.nan + 4 * c.inf + 8 * c.rsvd))

/-! ### The fold (R100 to R105, R171) -/

/-- A fold under way: the element's sums, the new events, what has been counted once for the instruction. -/
structure Fold where
  acc : Acc
  ev : Evs := {}
  seen : List Nat
  deriving DecidableEq, Repr

/-- An event counted once for each key of an instruction (R114). -/
def Fold.once (f : Fold) (key : Nat) (e : Evs) : Fold :=
  if f.seen.contains key then f else { f with ev := f.ev.add e, seen := key :: f.seen }

/-- An event of the element itself, one of each class. -/
def Fold.elem (f : Fold) (e : Evs) : Fold :=
  let r := e.fresh f.acc.ev
  { f with acc := { f.acc with ev := r.2 }, ev := f.ev.add r.1 }

/-- The read of an operand element: an infinite one is an INF event, once for each element of the instruction;
its decoding events likewise (R114). -/
def Fold.read (f : Fold) (v : Val × Evs × Nat) : Fold :=
  let f1 := if v.1.isInf then f.once v.2.2 evInf else f
  if v.2.1.rsvd != 0 then f1.once (v.2.2 + 2 ^ 90) evRsvd else f1

/-- A scale that is invalid is an RSVD event, once for the instruction (R82, R114). -/
def Fold.scale (f : Fold) (e : Evs) : Fold := if e.rsvd != 0 then f.once 1 evRsvd else f

/-- Add a product to the main sum or the side sum (R100). -/
def Fold.addTo (f : Fold) (sat side : Bool) (p : Val × Evs) : Fold :=
  let cur := dec32 (if side then f.acc.side else f.acc.acc)
  let r := cur.add p.1
  let q := enc32 sat r.1
  let f1 := f.elem (p.2.add (r.2.add q.2))
  { f1 with acc := if side then { f1.acc with side := q.1 } else { f1.acc with acc := q.1 } }

/-- The activation-side operand of token `t` at reduction index `r`, with its window (R134, R170, R171). A
window position outside the input takes the padding value. -/
def State.actVal (s : State) (j : Job) (p t r : Nat) : Val × Evs × Nat :=
  if j.t.ord3 == 1 then
    let ti := j.t
    let c := r / (ti.kh * ti.kw)
    let kr := r / ti.kw % ti.kh
    let ks := r % ti.kw
    let y : Int := ((t / ti.outW * ti.stride + kr * ti.dil : Nat) : Int) - ti.padH
    let x : Int := ((t % ti.outW * ti.stride + ks * ti.dil : Nat) : Int) - ti.padW
    if 0 ≤ y ∧ y < ti.inH ∧ 0 ≤ x ∧ x < ti.inW then
      s.elemVal j j.a j.aRows j.aCols p (c * ti.inH + y.toNat) x.toNat
    else (dec32 ti.pad, {}, 0)
  else s.elemVal j j.a j.aRows j.aCols p t r

/-- The read of an activation; a padding value from a window raises no INF event of a read. -/
def Fold.readAct (f : Fold) (v : Val × Evs × Nat) : Fold := if v.2.2 == 0 then f else f.read v

/-- The product with a code (R102): the table entry fl32(x × v[c]). An infinite activation and a codebook with a
zero entry raise one NAN event for each such pair (R119); TERN multiplies exactly. -/
def State.codeProd (s : State) (j : Job) (n k : Nat) (x : Val) (xkey : Nat) (f : Fold) : Fold × (Val × Evs) :=
  let c := s.wCode j n k
  if j.w.fmt == .tern then
    let v := Fmt.tern.decode c
    let f1 := if v.2.rsvd != 0 then f.once ((n * 2 ^ 20 + k) * 2 + 2 ^ 91) evRsvd else f
    (f1, mul32 j.t.sat x v.1)
  else
    let book := s.wBook j n
    let v := codeVal j.w.fmt book c
    let hasZero := book.any fun e => (ffBF.decode e).isZero
    let f1 := if x.isInf && hasZero then f.once (xkey * 2 ^ 32 + n / j.w.group + 2 ^ 120) evNan else f
    let p := mul32 j.t.sat x v.1
    (f1, (p.1, { p.2 with nan := 0 }))

/-- The row scale of an E4M3 fallback copy: the row's scale times 2⁻⁸, rounded once to SC (R152). -/
def fallbackScale (v : Val) : Val × Evs :=
  scDecode (scEncode false ((v.mul (.fin ⟨false, 1, 256⟩)).1)).1

/-- One reduction position of output (t, o) (R100 to R105). -/
def State.foldStep (s : State) (j : Job) (p t o : Nat) (f : Fold) (r : Nat) : Fold :=
  let sat := j.t.sat
  if j.t.red ≤ r then
    let f1 := f.addTo sat false (dec32 j.t.pad, {})
    if j.t.transposed && j.outliers.contains o then f1.addTo sat true (dec32 j.t.pad, {}) else f1
  else
    let x := s.actVal j p t r
    let f0 := f.readAct x
    match j.side with
    | .dense =>
      let w := s.elemVal j j.b (if j.t.transposed then j.t.n else j.t.n) j.t.k p o r
      (f0.read w).addTo sat false (mul32 sat x.1 w.1)
    | .fallback _ =>
      let fm := (Fmt.ofCode j.w.fbCode).getD .bf16
      let n := if j.t.transposed then r else o
      let k := if j.t.transposed then o else r
      let w := fm.decode (s.elemBits j 0 (j.w.fbRow fm n) fm k)
      let f1 := f0.read (w.1, w.2, (n * 2 ^ 20 + k) * 2 + 2 ^ 92)
      if j.t.transposed then
        let sc := if fm == .e4m3 then s.wScale j r else (oneV, {})
        let h := if fm == .e4m3 then mul32 sat x.1 (fallbackScale sc.1).1 else (x.1, {})
        let q := mul32 sat h.1 w.1
        (f1.scale sc.2).addTo sat false (q.1, h.2.add q.2)
      else f1.addTo sat false (mul32 sat x.1 w.1)
    | .codes =>
      if j.t.transposed then
        if j.outliers.contains o then
          let i := (j.outliers.takeWhile fun k => k != o).length
          let w := s.wSide j r i
          (f0.read (w, {}, (r * 2 ^ 20 + o) * 2 + 2 ^ 93)).addTo sat true (mul32 sat x.1 w)
        else
          let sc := s.wScale j r
          let h := mul32 sat x.1 sc.1
          let q := s.codeProd j r o h.1 x.2.2 (f0.scale sc.2)
          q.1.addTo sat false (q.2.1, h.2.add q.2.2)
      else if j.outliers.contains r then
        let i := (j.outliers.takeWhile fun k => k != r).length
        let w := s.wSide j o i
        (f0.read (w, {}, (o * 2 ^ 20 + r) * 2 + 2 ^ 93)).addTo sat true (mul32 sat x.1 w)
      else
        let q := s.codeProd j o r x.1 x.2.2 f0
        q.1.addTo sat false q.2
    | .none_ => f0

/-- Fold positions `lo` to `hi - 1` in ascending order. -/
def State.foldRange (s : State) (j : Job) (p t o lo hi : Nat) (f : Fold) : Fold :=
  (List.range (hi - lo)).foldl (fun g i => s.foldStep j p t o g (lo + i)) f

/-- The end of the padding positions of the reduction (R105). -/
def Job.padEnd (j : Job) : Nat := 32 * ceilDiv j.t.red 32

/-! ### The drain (R108, R174 to R177) -/

/-- One drain-chain operation on `u` (R174, R175). -/
def State.chainOp (s : State) (j : Job) (p t o : Nat) (f : Fold) (u : Val) (op : Nat) : Fold × Val :=
  let sat := j.t.sat
  let cols := j.t.outCols
  let done (g : Fold) (r : Val × Evs) : Fold × Val := (g.elem r.2, r.1)
  let fn (r : Nat × Evs) : Fold × Val := (f.elem r.2, dec32 r.1)
  let res (col : Nat) (g : Val → Val × Evs) : Fold × Val :=
    let v := s.elemVal j j.res j.t.m (if col == 0 && op ≥ 5 then 1 else cols) p t col
    done (f.read v) (g v.1)
  let bias (row : Nat) (g : Val → Val × Evs) : Fold × Val :=
    let v := s.elemVal j j.bias 2 cols p row o
    done (f.read v) (g v.1)
  match op with
  | 0x01 => bias 0 fun v => add32 sat u v
  | 0x02 => bias 1 fun v => mul32 sat u v
  | 0x03 => res o fun v => add32 sat u v
  | 0x04 => res o fun v => mul32 sat u v
  | 0x05 => res 0 fun v => add32 sat u v
  | 0x06 => res 0 fun v => add32 sat u v.flip
  | 0x07 => res 0 fun v => mul32 sat u v
  | 0x08 => res 0 fun v => div32 sat u v
  | 0x09 => done f (add32 sat u (dec32 j.t.c0))
  | 0x0A => done f (mul32 sat u (dec32 j.t.c1))
  | 0x0B => done f (u.max (dec32 j.t.c0), {})
  | 0x0C => done f (u.min (dec32 j.t.c1), {})
  | 0x0D => done f (u.max posZero, {})
  | 0x0E => fn (fnGelu ff32 sat u)
  | 0x0F => fn (fnSilu ff32 sat u)
  | 0x10 => fn (fnTanh ff32 sat u)
  | 0x11 => fn (fnSigmoid ff32 sat u)
  | 0x12 => fn (fnExp ff32 sat u)
  | 0x13 => done f (mul32 sat u u)
  | 0x14 => (f, u.flip)
  | 0x15 => (f, u.abs)
  | _ => (f, u)

/-- The whole chain. -/
def State.chainAll (s : State) (j : Job) (p t o : Nat) (f : Fold) (u : Val) : Fold × Val :=
  j.t.chain.foldl (fun (x : Fold × Val) op => s.chainOp j p t o x.1 x.2 op) (f, u)

/-- Drain steps 1 to 3 of an accumulated element (R108). -/
def State.drainScales (s : State) (j : Job) (p t o : Nat) (f : Fold) : Fold × Val :=
  let sat := j.t.sat
  let outT := j.t.transposed && j.side == .codes && j.outliers.contains o
  let u0 := dec32 (if outT then f.acc.side else f.acc.acc)
  let mulBy (x : Fold × Val) (sc : Val × Evs) : Fold × Val :=
    let r := mul32 sat x.2 sc.1
    ((x.1.scale sc.2).elem r.2, r.1)
  let x1 : Fold × Val :=
    if j.t.transposed then (f, u0)
    else match j.side with
      | .codes => mulBy (f, u0) (s.wScale j o)
      | .fallback .e4m3 =>
        let sc := s.wScale j o
        mulBy (f, u0) (fallbackScale sc.1)
      | .dense => if j.b.hasScale then mulBy (f, u0) (s.scaleVal j j.b j.t.n p o) else (f, u0)
      | _ => (f, u0)
  let x2 : Fold × Val :=
    if !j.t.transposed && !j.outliers.isEmpty then
      let r := add32 sat x1.2 (dec32 x1.1.acc.side)
      (x1.1.elem r.2, r.1)
    else x1
  if j.a.hasScale && j.a.format != .gx16 then mulBy x2 (s.scaleVal j j.a j.aRows p t) else x2

/-- Drain steps 1 to 4. -/
def State.drainElem (s : State) (j : Job) (p t o : Nat) (f : Fold) : Fold × Val :=
  let x := s.drainScales j p t o f
  s.chainAll j p t o x.1 x.2

/-- The address of a stored element (R163). -/
def State.dstAddr (s : State) (j : Job) (p t o : Nat) : Nat :=
  let i := if j.d.tstore then o else t
  let c := if j.d.tstore then t else o
  s.bankAddr j j.d.space (j.d.rowAddr p i) + (j.d.format.elemSpan c).1

/-- Store one element (R91): the events of its encoding, and the status of the write. -/
def State.storeElem (s : State) (j : Job) (p t o : Nat) (u : Val) : Evs × Nat × State :=
  let r := j.d.format.encode j.t.sat u
  let w := s.writeRange j.ag j.d.space (s.dstAddr j p t o) (leBytes j.d.format.unit r.1)
  (r.2, w.1, w.2)

/-- The scale and elements of a complete token row (R177). -/
def tokenRow (f : Fmt) (sat : Bool) (us : List Val) : Nat × List Nat × Evs :=
  let ff := if f == .e5m2 then ffE5 else ffE4
  if us.any fun u => !u.isFin then (scInvalid, us.map fun _ => ff.canonNan, evRsvd)
  else
    let a := us.foldl (fun (m : Q) u => if m.lt u.q.abs then u.q.abs else m) ⟨false, 0, 1⟩
    if a.isZero then (0x3F80, us.map fun u => ff.signBit u.neg, {})
    else
      let nmax := (ff.decode (ff.maxBits false)).q
      let e := max ((a.div nmax).ceilLog2) (-133)
      let enc := us.map fun u => (ff.encode sat (.fin (u.q.scale (-e)))).1
      ((ffBF.encode sat (.fin ((Q.ofNat 1).scale e))).1, enc, {})

/-! ### Level-1 tiles and passes (R166 to R170, R485) -/

/-- Loop orders, outermost first: 0 = N, 1 = M, 2 = K (R167). -/
def ordDims (c : Nat) : List Nat :=
  match c with
  | 0 => [0, 1, 2] | 1 => [1, 0, 2] | 2 => [0, 2, 1] | 3 => [1, 2, 0] | 4 => [2, 0, 1] | _ => [2, 1, 0]

/-- The digit of dimension `dim` of `x` in a mixed radix whose digits stand in the order `ds`, outermost first. -/
def digitOf (ds : List Nat) (cnt : Nat → Nat) (dim x : Nat) : Nat :=
  ((ds.reverse.foldl (fun (acc : Nat × Nat) d =>
    let c := max 1 (cnt d)
    (acc.1 / c, if d == dim then acc.1 % c else acc.2)) (x, 0))).2

/-- Cluster tiles along a dimension (R167). -/
def Job.tiles (j : Job) (dim : Nat) : Nat :=
  match dim with
  | 0 => ceilDiv j.t.n j.t.nc
  | 1 => ceilDiv j.t.m j.t.mc
  | _ => if j.t.unit == 3 then 1 else ceilDiv j.t.k j.t.kc

/-- Cluster tiles of one problem. -/
def Job.perProblem (j : Job) : Nat := j.tiles 0 * j.tiles 1 * j.tiles 2

/-- The dimension that is reduced: N in the transposed path, K otherwise. -/
def Job.redDim (j : Job) : Nat := if j.t.transposed then 0 else 2
/-- The dimension of the output columns. -/
def Job.colDim (j : Job) : Nat := if j.t.transposed then 2 else 0

/-- Index of a cluster tile along a dimension. -/
def Job.tileIdx (j : Job) (tile dim : Nat) : Nat := digitOf (ordDims j.t.ord1) j.tiles dim (tile % j.perProblem)

/-- Extent and tile extent of a dimension. -/
def Job.extent (j : Job) (dim : Nat) : Nat := match dim with | 0 => j.t.n | 1 => j.t.m | _ => j.t.k
def Job.cut (j : Job) (dim : Nat) : Nat := match dim with | 0 => j.t.nc | 1 => j.t.mc | _ => j.t.kc

/-- First index and length of a cluster tile along a dimension; edge tiles are short. -/
def Job.span (j : Job) (tile dim : Nat) : Nat × Nat :=
  let lo := j.tileIdx tile dim * j.cut dim
  (lo, min (j.cut dim) (j.extent dim - lo))

/-- The ordinal of a tile's output tile, in problem order and then level-1 order (R179). -/
def Job.outOrd (j : Job) (tile : Nat) : Nat :=
  let ds := (ordDims j.t.ord1).filter (· != j.redDim)
  let x := ds.foldl (fun a d => a * j.tiles d + j.tileIdx tile d) 0
  tile / j.perProblem * (j.tiles 1 * j.tiles j.colDim) + x

/-- One pass (R120, R485). -/
structure Pass where
  ko : Nat
  co : Nat
  so : Nat
  sLo : Nat
  sHi : Nat
  /-- it uses the second descriptor of a pair -/
  second : Bool
  deriving DecidableEq, Repr

/-- The mode of the array (R121, R165). -/
def Job.mode (j : Job) : MMode :=
  match j.side with
  | .codes => .narrow
  | .fallback f => if f == .e4m3 then .fp8 else .bf16
  | _ => if j.b.format == .e4m3 || j.b.format == .e5m2 then .fp8 else .bf16

/-- The dimension that streams and the one that lies along the columns. -/
def Job.streamDim (j : Job) : Nat := if j.mode == .narrow then j.colDim else 1
def Job.arrayDim (j : Job) : Nat := if j.mode == .narrow then 1 else j.colDim

/-- Multiples of `step` below `ext`. -/
def origins (step ext : Nat) : List Nat := if step == 0 then [] else (List.range (ceilDiv ext step)).map (· * step)

/-- Weight rows that one stream element carries: two in W2 and TERN (R121). Stream origins and lengths count
elements (DEDUCED, unsafe: notes/assumptions/24.md). -/
def Job.perElem (j : Job) : Nat := if j.mode == .narrow && (j.w.fmt == .w2 || j.w.fmt == .tern) then 2 else 1

/-- Where a stream of weight rows `row0` up, `per` to an element, is split because the codebook changes (R123): the
sub-ranges of elements 0 to `len`. -/
def splits (g row0 per len : Nat) : List (Nat × Nat) :=
  let cuts := (List.range (len + 1)).filter fun m => m == 0 || m == len || (row0 + per * m) % g == 0
  (cuts.zip (cuts.drop 1)).filter fun e => e.1 < e.2

/-- The passes of one cluster tile in order (R169, R485). -/
def Job.passes (j : Job) (tile : Nat) (d1 d2 : List Band) : List Pass :=
  let kt := (j.span tile j.redDim).2
  let ct := (j.span tile j.arrayDim).2
  let st := j.span tile j.streamDim
  let md := j.mode
  let k1 := lastKappa d1
  let kf := if k1 == 0 then 0 else k1 * ((kt - 1) / k1)
  let kos := if j.t.lastPair then (origins k1 kt).filter (· < kf) else origins k1 kt
  let cos := origins (lastChi md d1) ct
  let per := j.perElem
  let ext := ceilDiv st.2 per
  let sos := origins j.t.sLen ext
  let split (so : Nat) : List (Nat × Nat) :=
    let len := min j.t.sLen (ext - so)
    if md == .narrow && !j.t.transposed && j.w.fmt != .tern then splits j.w.group (st.1 + per * so) per len else [(0, len)]
  let mk (second : Bool) (ko co so : Nat) : List Pass := (split so).map fun e => ⟨ko, co, so, e.1, e.2, second⟩
  let dimOf (d : Nat) : List Nat := if d == j.redDim then kos else if d == j.arrayDim then cos else sos
  let ds := ordDims j.t.ord2
  if j.t.lastPair then
    sos.flatMap fun so =>
      let first := (ds.filter (· != j.streamDim))
      let d1s := match first with
        | [x, y] => (dimOf x).flatMap fun u => (dimOf y).flatMap fun v =>
            if x == j.redDim then mk false u v so else mk false v u so
        | _ => []
      let d2s := ((origins (lastKappa d2) (kt - kf)).map (kf + ·)).flatMap fun ko => mk true ko 0 so
      d1s ++ d2s
  else
    match ds with
    | [x, y, z] =>
      (dimOf x).flatMap fun u => (dimOf y).flatMap fun v => (dimOf z).flatMap fun w =>
        let pick (d : Nat) : Nat := if d == x then u else if d == y then v else w
        mk false (pick j.redDim) (pick j.arrayDim) (pick j.streamDim)
    | _ => []

/-- Passes of one output tile go to one bank (R485): with a pair, all of one stream origin. -/
def Job.bankCo (j : Job) (ps : Pass) : Nat := if j.t.lastPair then 0 else ps.co

/-- The band of a pass that covers output (t, o) of the tile, both relative to it (R131, R133). -/
def Job.bandAt (j : Job) (ps : Pass) (bands : List Band) (t o : Nat) : Option Band :=
  let md := j.mode
  let col := if md == .narrow then t else o
  let str := if md == .narrow then o else t
  bands.find? fun b =>
    decide (ps.co + b.col0 ≤ col) && decide (col < ps.co + b.col0 + md.perCol * b.colLen) &&
    decide (j.perElem * (ps.so + ps.sLo) + b.str0 ≤ str) && decide (str < j.perElem * (ps.so + ps.sHi) + b.str0)

/-- The reduction positions that a band of a pass folds, absolute (R133): those below the tile's end, and in the
last chunk the padding positions. -/
def Job.bandRange (j : Job) (tile : Nat) (ps : Pass) (d1 : List Band) (b : Band) : Nat × Nat :=
  let sp := j.span tile j.redDim
  let k1 := lastKappa d1
  let kf := if k1 == 0 then 0 else k1 * ((sp.2 - 1) / k1)
  let top := if sp.1 + sp.2 == j.t.red then j.padEnd else sp.1 + sp.2
  let top1 := if j.t.lastPair && !ps.second then min top (sp.1 + kf) else top
  let lo := sp.1 + ps.ko + b.k0
  (min lo top1, min (lo + b.rowLen) top1)

/-- Table-build clk (R122). -/
def Job.build (j : Job) : Nat :=
  if j.mode == .narrow then
    (match j.w.fmt with | .w4 => 16 | .w3 => 8 | .w2 => 4 | _ => 0) + b2n j.t.transposed
  else 0

/-- Stationary bytes of a pass (R125): columns past the tensor edge hold nothing (R136). -/
def Job.statBytes (j : Job) (tile : Nat) (ps : Pass) (bands : List Band) : Nat :=
  let ct := (j.span tile j.arrayDim).2
  let pes := bands.foldl (fun a b => a + b.rowLen * min b.colLen (ceilDiv (ct - ps.co - b.col0) j.mode.perCol)) 0
  let actB := if j.a.format == .e4m3 || j.a.format == .e5m2 then 1 else 2
  (match j.mode with | .bf16 => 2 * pes | .fp8 => 2 * pes | .narrow => 4 * actB * pes) +
    (if j.t.transposed then 64 else 0)

/-- What names the stationary data of a pass of the record at `idx` (R169): its block of the stationary operand, its
origins, its descriptor and in narrow modes its codebook group. -/
def Job.statKey (j : Job) (idx tile : Nat) (ps : Pass) : Nat :=
  let held := if j.mode == .narrow then j.a else j.b
  let blk := if held.pstride == 0 then 0 else tile / j.perProblem / held.pshare
  let grp := if j.mode == .narrow && !j.t.transposed then
      ((j.span tile j.streamDim).1 + j.perElem * (ps.so + ps.sLo)) / j.w.group else 0
  1 + b2n ps.second + 2 * (((((idx * 2 ^ 20 + blk) * 2 ^ 24 + (j.span tile j.redDim).1 + ps.ko) * 2 ^ 24 +
    (j.span tile j.arrayDim).1 + ps.co)) * 2 ^ 24 + grp)

/-- S_min of a pass (R125); a pass whose stationary data is that of the pass before it loads nothing (R169). -/
def Job.sMin (j : Job) (tile : Nat) (ps : Pass) (bands : List Band) (held : Bool) : Nat :=
  max (j.build + 2) (if held then 0 else ceilDiv (j.statBytes tile ps bands) 64)

/-- Bytes and start of columns lo to lo + len - 1 of a row in `f`. -/
def Fmt.colSpan (f : Fmt) (lo len : Nat) : Nat × Nat :=
  if len == 0 then (0, 0) else
    let a := (f.elemSpan lo).1
    let z := f.elemSpan (lo + len - 1)
    (a, z.1 + z.2 - a)

/-- Ranges that an output tile reads (R167, R168), in the order A, B, R, bias: space, address, length. -/
def State.tileRanges (s : State) (j : Job) (tile : Nat) : List (Nat × Nat × Nat) :=
  let p := tile / j.perProblem
  let ms := j.span tile 1
  let cs := j.span tile j.colDim
  let row (tn : Tensor) (i lo len : Nat) : Nat × Nat × Nat :=
    let c := tn.format.colSpan lo len
    (tn.space, s.bankAddr j tn.space (tn.rowAddr p i) + c.1, c.2)
  let scales (tn : Tensor) (rows lo len : Nat) : List (Nat × Nat × Nat) :=
    if tn.hasScale then [(tn.space, s.bankAddr j tn.space (tn.scaleAddr rows p lo), 2 * len)] else []
  let nat (lo len : Nat) : List Nat := (List.range len).map (lo + ·)
  let aR :=
    if j.t.unit == 3 then (nat ms.1 ms.2).map fun i => row j.a i cs.1 cs.2
    else if j.t.ord3 == 1 then
      let y0 := ms.1 / j.t.outW * j.t.stride - j.t.padH
      let y1 := min j.t.inH ((ms.1 + ms.2 - 1) / j.t.outW * j.t.stride + (j.t.kh - 1) * j.t.dil + 1 - j.t.padH)
      (List.range (j.t.k / (j.t.kh * j.t.kw))).flatMap fun c => (nat y0 (y1 - y0)).map fun y => row j.a (c * j.t.inH + y) 0 j.t.inW
    else (nat ms.1 ms.2).map fun i => row j.a i 0 j.t.red
  let wr (base lo len : Nat) (f : Fmt) : Nat × Nat × Nat :=
    let c := f.colSpan lo len
    (0, s.bankAddr j 0 base + c.1, c.2)
  let bR : List (Nat × Nat × Nat) :=
    match j.side with
    | .none_ => []
    | .dense => ((nat cs.1 cs.2).map fun n => row j.b n 0 j.t.red) ++ scales j.b j.t.n cs.1 cs.2
    | sd =>
      let ns := if j.t.transposed then (0, j.t.n) else cs
      let ks := if j.t.transposed then cs else (0, j.t.k)
      let rows := match sd with
        | .fallback f => (nat ns.1 ns.2).map fun n => wr (j.w.fbRow f n) ks.1 ks.2 f
        | _ => (nat ns.1 ns.2).map fun n => wr (j.w.codeRow n) ks.1 ks.2 j.w.fmt
      let books := if sd == .codes && j.w.fmt != .tern then
          ((nat ns.1 ns.2).filter fun n => n == ns.1 || n % j.w.group == 0).map fun n => (0, s.bankAddr j 0 (j.w.bookRow n), 64)
        else []
      let sides := if sd == .codes && j.w.outliers != 0 then
          (0, s.bankAddr j 0 (j.w.side * 64), j.w.listBytes) :: (nat ns.1 ns.2).map fun n => (0, s.bankAddr j 0 (j.w.sideRow n), 2 * j.w.outliers)
        else []
      rows ++ [(0, s.bankAddr j 0 (j.w.scale * 64 + 2 * ns.1), 2 * ns.2)] ++ books ++ sides
  let rowv := j.t.chain.any fun o => decide (5 ≤ o) && decide (o ≤ 8)
  let rR := if j.t.chain.any fun o => decide (3 ≤ o) && decide (o ≤ 8) then
      (nat ms.1 ms.2).map fun i => if rowv then row j.res i 0 1 else row j.res i cs.1 cs.2
    else []
  let biasR := if j.t.chain.any fun o => o == 1 || o == 2 then [row j.bias 0 cs.1 cs.2, row j.bias 1 cs.1 cs.2] else []
  aR ++ scales j.a j.aRows ms.1 ms.2 ++ bR ++ rR ++ biasR

/-- Fetch what an output tile reads: the status of the first failure (R179, R193). -/
def State.fetchTile (s : State) (j : Job) (tile : Nat) : Nat × State :=
  (s.tileRanges j tile).foldl (fun (acc : Nat × State) r =>
    if acc.1 != 0 then acc else acc.2.touch j.ag r.1 r.2.1 r.2.2) (0, s)

/-! ### Running -/

/-- The key of an output element: token and column. -/
def outKey (t o : Nat) : Nat := t * 2 ^ 24 + o

/-- Change run `idx` of a cluster. -/
def State.modRunOf (s : State) (k idx : Nat) (f : Run → Run) : State := s.modClu k fun c => c.modRun idx f

/-- The banks of a unit: 0, 1 or 2, 3 of the matrix units, 4 of the Awl. -/
def unitBanks (u : Nat) : List Nat := match u with | 0 => [0, 1] | 1 => [2, 3] | _ => [4]

/-- Bank `i` of a cluster. -/
def Clu.bank (c : Clu) (i : Nat) : Bank := (c.banks[i]?).getD {}

/-- Free the banks that hold tiles of run `idx`. -/
def Clu.freeBanks (c : Clu) (idx : Nat) : Clu :=
  { c with banks := c.banks.map fun b => if b.state != 0 && b.idx == idx then {} else b }

/-- The run ends its work with a status: nothing more of it issues, its banks are released (R137). -/
def State.endRun (s : State) (k idx status : Nat) (stopped : Bool := false) : State :=
  s.modClu k fun c => (c.freeBanks idx).modRun idx fun r =>
    { r with status := status, issued := true, finished := true, stopped := r.stopped || stopped, units := [] }

/-- A run whose passes have all issued and whose banks have all drained has finished (R172). -/
def State.checkDone (s : State) (k idx : Nat) : State :=
  let c := s.clu k
  if c.banks.any fun b => b.state != 0 && b.idx == idx then s
  else s.modRunOf k idx fun r => if r.issued then { r with finished := true } else r

/-- The next cluster tile after `tile` that some output tile still needs (R179); the number of tiles where there is
none. -/
def Job.nextTile (j : Job) (failAt : Option Nat) : Nat → Nat → Nat
  | 0, tile => tile
  | fuel + 1, tile =>
    if j.t.p * j.perProblem ≤ tile then tile
    else match failAt with
      | none => tile
      | some f => if j.outOrd tile < f then tile else j.nextTile failAt fuel (tile + 1)

/-- Move a run on to its next cluster tile, issued where there is none. -/
def State.advance (s : State) (j : Job) (k : Nat) (r : Run) (tile : Nat) : State :=
  let total := j.t.p * j.perProblem
  let nt := j.nextTile r.failTile (total + 1) tile
  (s.modRunOf k r.idx fun x => { x with tile := nt, next := 0, issued := decide (total ≤ nt) }).checkDone k r.idx

/-- The agent of what follows the accumulation: the drain of a bank, or the vector unit itself (R117). -/
def Job.drainAg (j : Job) : Agent := if j.t.unit == 3 then j.ag else { j.ag with unit := 3 }

/-- Store a drained element and, for a destination with token scales or GX16 blocks, keep it until its row or
block is complete (R108, R177). Answers whether the work stops, with what. -/
def State.putElem (s : State) (j : Job) (k idx p t o : Nat) (f : Fold) (u : Val) : Option Nat × State :=
  let dag := j.drainAg
  if j.t.tokScaleOut || j.d.format == .gx16 then
    let r := s.raise dag j.mask t o f.ev
    let s1 := r.2.modRunOf k idx fun x => { x with rows := Tab.set x.rows (outKey t o) (enc32 j.t.sat u).1 }
    (r.1, s1)
  else
    let w := s.storeElem j p t o u
    let e := w.1.fresh f.acc.ev
    let r := w.2.2.raise dag j.mask t o (f.ev.add e.1)
    (if w.2.1 != 0 then some w.2.1 else r.1, r.2)

/-- Write the token rows, or the GX16 blocks, of problem `p` that are complete (R177, R86). A row whose event
stops the work is not stored. -/
def State.putRows (s : State) (j : Job) (k idx p : Nat) : Option Nat × State :=
  let rows := match (s.clu k).runs.find? fun r => r.idx == idx with | some r => r.rows | none => []
  let dag := j.drainAg
  let cols := j.t.outCols
  let ts := (rows.map fun e => e.1 / 2 ^ 24).eraseDups
  let width := if j.d.format == .gx16 then 64 else cols
  ts.foldl (fun (acc : Option Nat × State) t =>
    (List.range (ceilDiv cols width)).foldl (fun (a2 : Option Nat × State) b =>
      if a2.1.isSome then a2
      else
        let os := ((List.range width).map (b * width + ·)).filter (· < cols)
        let vs := os.map fun o => Tab.find rows (outKey t o)
        if vs.any fun v => v.isNone then a2
        else
          let us := vs.map fun v => dec32 (v.getD 0)
          let clear (x : State) : State := x.modRunOf k idx fun r => { r with rows := os.foldl (fun q o => Tab.erase q (outKey t o)) r.rows }
          let s0 := clear a2.2
          if j.d.format == .gx16 then
            let g := toGx us
            let i := if j.d.tstore then b else t
            let w1 := s0.writeRange j.ag j.d.space (s0.bankAddr j j.d.space (j.d.rowAddr p i) + 128 * b) g.1.mantBytes
            let blk := (p / j.d.pshare * j.t.m + t) * ceilDiv cols 64 + b
            let w2 := w1.2.writeRange j.ag j.d.space (s0.bankAddr j j.d.space (j.d.scaleBase * 64 + blk)) [BitVec.ofNat 8 g.1.e]
            let r := w2.2.raise dag j.mask t (b * 64) g.2
            (if w1.1 != 0 then some w1.1 else if w2.1 != 0 then some w2.1 else r.1, r.2)
          else
            let q := tokenRow j.d.format j.t.sat us
            let r := s0.raise dag j.mask t 0 q.2.2
            if r.1.isSome then r
            else
              let s1 := (os.zip q.2.1).foldl (fun x e => (x.writeRange j.ag j.d.space (x.dstAddr j p t e.1) (leBytes 1 e.2)).2) r.2
              let sc := s1.writeRange j.ag j.d.space (s1.bankAddr j j.d.space (j.d.scaleAddr j.t.m p t)) (leBytes 2 q.1)
              (if sc.1 != 0 then some sc.1 else none, sc.2)) acc) (none, s)

/-- Drain the elements of a bank in ascending row, then column (R127), those after key `upTo` excepted. -/
def State.drainBank (s : State) (j : Job) (k idx p upTo : Nat) (accs : List (Nat × Acc)) : Option Nat × State :=
  let r := accs.foldl (fun (acc : Option Nat × State) e =>
    if acc.1.isSome || upTo < e.1 then acc
    else
      let t := e.1 / 2 ^ 24
      let o := e.1 % 2 ^ 24
      let seen := match (acc.2.clu k).runs.find? fun r => r.idx == idx with | some r => r.seen | none => []
      let x := acc.2.drainElem j p t o { acc := e.2, seen := seen }
      let s1 := acc.2.modRunOf k idx fun r => { r with seen := x.1.seen }
      s1.putElem j k idx p t o x.1 x.2) (none, s)
  if r.1.isSome then r else r.2.putRows j k idx p

/-- Fold one pass into a bank's entries, in drain order (R100, R120): the first element whose event stops the work
ends it. -/
def State.runPass (s : State) (j : Job) (k idx tile : Nat) (cover : Nat → Nat → Option (Nat × Nat))
    (accs parts : List (Nat × Acc)) : Option (Nat × Nat) × List (Nat × Acc) × State :=
  let p := tile / j.perProblem
  let ms := j.span tile 1
  let cs := j.span tile j.colDim
  (List.range (ms.2 * cs.2)).foldl (fun (acc : Option (Nat × Nat) × List (Nat × Acc) × State) i =>
    if acc.1.isSome then acc
    else
      let t := i / cs.2
      let o := i % cs.2
      match cover t o with
      | none => acc
      | some lohi =>
        let key := outKey (ms.1 + t) (cs.1 + o)
        let a0 := Tab.get acc.2.1 key (Tab.get parts key {})
        let st := acc.2.2
        let seen := match (st.clu k).runs.find? fun r => r.idx == idx with | some r => r.seen | none => []
        let f := st.foldRange j p (ms.1 + t) (cs.1 + o) lohi.1 lohi.2 { acc := a0, seen := seen }
        let s1 := st.modRunOf k idx fun r => { r with seen := f.seen }
        let rz := s1.raise j.ag j.mask (ms.1 + t) (cs.1 + o) f.ev
        (rz.1.map fun x => (x, key), Tab.set acc.2.1 key f.acc, rz.2)) (none, accs, s)

/-- The run of a unit that may issue: started and with passes left. -/
def Clu.active (c : Clu) (u : Nat) : Option Run :=
  c.runs.find? fun r => r.unit == u && recKind r.rec_ == 1 && !r.issued

/-! ### The stage region (R168) -/

/-- Bytes of the stage region of an instruction (R168). -/
def Job.stageBytes (j : Job) : Nat :=
  let t := j.t
  let bitsOfT (x : Tensor) : Nat := x.format.bits
  let aT : Nat :=
    if j.a.cm then 0
    else (if t.ord3 == 1 then (t.kc / (t.kh * t.kw)) * ((ceilDiv t.mc t.outW + 1) * t.stride + (t.kh - 1) * t.dil) * 64 * j.a.pitch
      else t.mc * row64 (if t.unit == 3 then t.nc else if t.transposed then t.nc else t.kc) (bitsOfT j.a)) + (if j.a.hasScale then ceilDiv (2 * t.mc) 64 * 64 else 0)
  let bT : Nat :=
    match j.side with
    | .none_ => 0
    | .dense => if j.b.cm then 0 else t.nc * row64 t.kc (bitsOfT j.b) + (if j.b.hasScale then ceilDiv (2 * t.nc) 64 * 64 else 0)
    | _ => t.nc * row64 t.kc j.w.fmt.bits + ceilDiv (2 * t.nc) 64 * 64 + (ceilDiv t.nc j.w.group + 1) * 64 + t.nc * row64 j.w.outliers 16
  let dT := if j.d.cm then 0 else t.mc * row64 t.nc (if t.tokScaleOut then 32 else bitsOfT j.d) + (if j.d.hasScale then ceilDiv (2 * t.mc) 64 * 64 else 0)
  let rowv := t.chain.any fun o => decide (5 ≤ o) && decide (o ≤ 8)
  let rT := if t.res == idxNone || j.res.cm then 0 else t.mc * row64 (if rowv then 1 else t.nc) (bitsOfT j.res)
  let biasT := if t.bias == idxNone || j.bias.cm then 0 else 2 * row64 t.nc (bitsOfT j.bias)
  let part := if t.unit != 3 && (ordDims t.ord1).getLast? != some 2 then t.mc * t.nc * 8 else 0
  2 * (aT + bT + dT + rT) + biasT + part

/-- The stage region of a record: its start and its bytes. -/
def State.stageOf (s : State) (c g n : Nat) (r : Run) : Nat × Nat :=
  if recKind r.rec_ != 1 then (0, 0)
  else
    let j := s.job c g n r
    (j.t.stage * 64, j.stageBytes)

/-- No earlier record of the stream whose stage region overlaps that of `r` is unretired (R168). -/
def State.stageFree (s : State) (c g n : Nat) (r : Run) : Bool :=
  let cl := s.clu (18 * g + n)
  let me := s.stageOf c g n r
  let earlier := (cl.runs.filter fun x => x.idx < r.idx) ++ (cl.queue.filter fun x => x.idx < r.idx).map fun q =>
    ({ idx := q.idx, unit := q.unit, rec_ := q.rec_, instr := q.instr, rep := q.rep } : Run)
  earlier.all fun x =>
    let y := s.stageOf c g n x
    me.2 == 0 || y.2 == 0 || !(decide (me.1 < y.1 + y.2) && decide (y.1 < me.1 + me.2))

/-- Work of a context in a partition may issue: the partition is running and the context resident (R372). -/
def State.mayIssue (s : State) (g : Nat) : Option Nat := if s.cutOff g then none else s.residentOf g

/-- A stopping event in a pass (R137): the elements of the bank up to the raising one are stored, the rest is
released. -/
def State.stopPass (s : State) (j : Job) (k idx p status key : Nat) (accs : List (Nat × Acc)) : State :=
  ((s.drainBank j k idx p key accs).2).endRun k idx status true

/-- Operations of a pass: class and count, by PEs in the bands and stream elements (R453). (DEDUCED, unsafe: notes/assumptions/75.md.) -/
def Job.passOps (j : Job) (ps : Pass) (bands : List Band) : Nat × Nat :=
  let pes := bands.foldl (fun a b => a + b.rowLen * b.colLen) 0
  let n := pes * (ps.sHi - ps.sLo)
  match j.mode with
  | .bf16 => (0, n)
  | .fp8 => (1, 2 * n)
  | .narrow => if j.w.fmt == .w4 || j.w.fmt == .w3 then (2, 4 * n) else (3, 8 * n)

/-- Issue the next pass of a run on a matrix unit (R130): its data fetched at the first pass of an output tile,
its entry time come, its bank free or holding the tile. -/
def State.issuePass (s : State) (c g n u : Nat) (r : Run) : State :=
  let k := 18 * g + n
  let j := s.job c g n r
  let tile := r.tile
  let d1 := s.last j.ag j.t.lastIdx
  let d2 := s.last j.ag (j.t.lastIdx + 1)
  let ps := j.passes tile d1 d2
  match ps[r.next]? with
  | none => s.advance j k r (tile + 1)
  | some pass =>
    let fetch := if r.next == 0 && j.tileIdx tile j.redDim == 0 then s.fetchTile j tile else (0, s)
    if fetch.1 != 0 then
      let s1 := fetch.2.modRunOf k r.idx fun x => { x with failTile := some (j.outOrd tile), status := fetch.1 }
      s1.advance j k { r with failTile := some (j.outOrd tile) } tile
    else
      let s1 := fetch.2
      let cl := s1.clu k
      let bands := if pass.second then d2 else d1
      let lp := (cl.lastPass[u]?).getD (0, 0, 0)
      let key := j.statKey r.idx tile pass
      let co := j.bankCo pass
      let same (b : Bank) : Bool := b.state == 1 && b.idx == r.idx && b.tile == tile && b.so == pass.so && b.co == co
      let bi := ((unitBanks u).find? fun i => same (cl.bank i)).orElse fun _ =>
        (unitBanks u).find? fun i => (cl.bank i).state == 0
      match bi with
      | none => s1
      | some i =>
        if s1.clk < lp.1 + max lp.2.1 (j.sMin tile pass bands (lp.2.2 == key)) && lp.2.1 != 0 then s1
        else
          let bank := cl.bank i
          let cover (t o : Nat) : Option (Nat × Nat) := (j.bandAt pass bands t o).map fun b => j.bandRange tile pass d1 b
          let x := s1.runPass j k r.idx tile cover bank.accs r.partials
          match x.1 with
          | some st => x.2.2.stopPass j k r.idx (tile / j.perProblem) st.1 st.2 x.2.1
          | none =>
            let more := (ps.drop (r.next + 1)).any fun q => q.so == pass.so && j.bankCo q == co
            let b2 : Bank := {
              state := if more then 1 else 2, idx := r.idx, tile := tile, so := pass.so, co := co,
              lastPass := tile * 2 ^ 24 + r.next, accs := x.2.1 }
            let po := j.passOps pass bands
            let side := if r.next == 0 then (j.span tile 1).2 * (j.span tile j.colDim).2 * j.outliers.length else 0
            let s2 := ((x.2.2.countOps c po.1 po.2).countOps c 0 side).modClu k fun cl => { cl with
              banks := cl.banks.set i b2, lastPass := cl.lastPass.set u (x.2.2.clk, pass.sHi - pass.sLo, key) }
            if r.next + 1 < ps.length then s2.modRunOf k r.idx fun y => { y with next := r.next + 1 }
            else s2.advance j k r (tile + 1)

/-- PASS_ISSUE: a matrix pass issues once its operands, staging, bank, entry time and governor allow (R130); its
products fold into its bank, and arithmetic events act as R114 and R115 give. -/
def execPassIssue (g n u at_ : Nat) (s0 : State) : Host.Outcome State Fault Refusal :=
  let s := s0.atClk at_
  match s.mayIssue g with
  | none => .next s
  | some c =>
    if 1 < u || bitOf s.gov.gated (18 * g + n) then .next s
    else match (s.clu (18 * g + n)).active u with
      | none => .next s
      | some r => .next (if s.stageFree c g n r then s.issuePass c g n u r else s)

/-- AWL_TILE_ISSUE: an Awl instruction tile issues and folds its chunks into the Awl's accumulators (R154, R155). -/
def execAwlTileIssue (g n at_ : Nat) (s0 : State) : Host.Outcome State Fault Refusal :=
  let s := s0.atClk at_
  match s.mayIssue g with
  | none => .next s
  | some c =>
    let k := 18 * g + n
    match (s.clu k).active 2 with
    | none => .next s
    | some r =>
      if ((s.clu k).bank 4).state != 0 || !s.stageFree c g n r then .next s
      else
        let j := s.job c g n r
        let tile := r.tile
        let fetch := if j.tileIdx tile j.redDim == 0 then s.fetchTile j tile else (0, s)
        if fetch.1 != 0 then
          let s1 := fetch.2.modRunOf k r.idx fun x => { x with failTile := some (j.outOrd tile), status := fetch.1 }
          .next (s1.advance j k { r with failTile := some (j.outOrd tile) } tile)
        else
          let sp := j.span tile j.redDim
          let top := if sp.1 + sp.2 == j.t.red then j.padEnd else sp.1 + sp.2
          let x := fetch.2.runPass j k r.idx tile (fun _ _ => some (sp.1, top)) [] r.partials
          match x.1 with
          | some st => .next (x.2.2.stopPass j k r.idx (tile / j.perProblem) st.1 st.2 x.2.1)
          | none =>
            let b2 : Bank := { state := 2, idx := r.idx, tile := tile, lastPass := tile * 2 ^ 24, accs := x.2.1 }
            let work := (j.span tile 1).2 * (j.span tile j.colDim).2 * (top - sp.1)
            let s2 := (x.2.2.countOps c 4 work).modClu k fun cl => { cl with banks := cl.banks.set 4 b2 }
            .next (s2.advance j k r (tile + 1))

/-- The complete bank of a unit whose tile completed first (R127). -/
def Clu.completeBank (c : Clu) (u : Nat) : Option Nat :=
  (unitBanks u).foldl (fun (best : Option Nat) i =>
    let b := c.bank i
    if b.state != 2 then best
    else match best with
      | none => some i
      | some q => if b.idx * 2 ^ 80 + b.lastPass < (c.bank q).idx * 2 ^ 80 + (c.bank q).lastPass
          then some i else best) none

/-- BANK_DRAIN: the bank of a unit whose tile completed first drains through the drain steps to its destination
(R108, R127), or, where later chunks follow, to the partial-sum area exactly (R167); complete token rows are
written with their scales (R177). (DEDUCED, unsafe: notes/assumptions/42.md.) -/
def execBankDrain (g n u at_ : Nat) (s0 : State) : Host.Outcome State Fault Refusal :=
  let s := s0.atClk at_
  match s.mayIssue g with
  | none => .next s
  | some c =>
    let k := 18 * g + n
    match (s.clu k).completeBank u with
    | none => .next s
    | some i =>
      let b := (s.clu k).bank i
      match (s.clu k).runs.find? fun r => r.idx == b.idx with
      | none => .next (s.modClu k fun cl => { cl with banks := cl.banks.set i ({} : Bank) })
      | some r =>
        let j := s.job c g n r
        let sp := j.span b.tile j.redDim
        let s1 := s.modClu k fun cl => { cl with banks := cl.banks.set i ({} : Bank) }
        if sp.1 + sp.2 != j.t.red then
          let s2 := s1.modRunOf k r.idx fun x => { x with
            partials := b.accs.foldl (fun q e => Tab.set q e.1 e.2) x.partials }
          .next (s2.checkDone k r.idx)
        else
          let s2 := s1.modRunOf k r.idx fun x => { x with
            partials := b.accs.foldl (fun q e => Tab.erase q e.1) x.partials, tilesDone := x.tilesDone + 1 }
          let d := s2.drainBank j k r.idx (b.tile / j.perProblem) (2 ^ 64) b.accs
          match d.1 with
          | some st => .next (d.2.endRun k r.idx st true)
          | none => .next (d.2.checkDone k r.idx)

/-! ### The vector unit (R109, R111, R112, R176) -/

/-- One element of A through the chain. -/
def State.vecElem (s : State) (j : Job) (p t o : Nat) (seen : List Nat) : Fold × Val :=
  let v := s.elemVal j j.a j.aRows j.aCols p t o
  let f : Fold := ({ acc := {}, seen := seen } : Fold).read v
  let x : Fold × Val :=
    if j.a.hasScale && j.a.format != .gx16 then
      let sc := s.scaleVal j j.a j.aRows p t
      let r := mul32 j.t.sat v.1 sc.1
      ((f.scale sc.2).elem r.2, r.1)
    else (f, v.1)
  s.chainAll j p t o x.1 x.2

/-- The reduction of a row (R111, R112). -/
def vecReduce (kind : Nat) (sat : Bool) (us : List Val) : Val × Evs :=
  match kind with
  | 1 => laneSum 128 (fun a b => add32 sat a b) us
  | 2 => (laneFold Val.max us, {})
  | _ => (laneFold Val.min us, {})

/-- One output tile of a vector instruction (R176). -/
def State.vecTile (s : State) (j : Job) (k idx tile : Nat) : Option Nat × State :=
  let p := tile / j.perProblem
  let ms := j.span tile 1
  let cs := j.span tile 0
  let seenOf (x : State) : List Nat := match (x.clu k).runs.find? fun r => r.idx == idx with | some r => r.seen | none => []
  let r := (List.range ms.2).foldl (fun (acc : Option Nat × State) ti =>
    if acc.1.isSome then acc
    else
      let t := ms.1 + ti
      if j.t.vred != 0 then
        let ev := (List.range cs.2).foldl (fun (a : List Val × State × Option Nat) oi =>
          if a.2.2.isSome then a
          else
            let x := a.2.1.vecElem j p t (cs.1 + oi) (seenOf a.2.1)
            let s1 := a.2.1.modRunOf k idx fun r => { r with seen := x.1.seen }
            let rz := s1.raise j.ag j.mask t (cs.1 + oi) x.1.ev
            (a.1 ++ [x.2], rz.2, rz.1)) ([], acc.2, none)
        match ev.2.2 with
        | some st => (some st, ev.2.1)
        | none =>
          let q := vecReduce j.t.vred j.t.sat ev.1
          ev.2.1.putElem j k idx p t 0 (({ acc := {}, seen := [] } : Fold).elem q.2) q.1
      else
        (List.range cs.2).foldl (fun (a : Option Nat × State) oi =>
          if a.1.isSome then a
          else
            let o := cs.1 + oi
            let x := a.2.vecElem j p t o (seenOf a.2)
            let s1 := a.2.modRunOf k idx fun r => { r with seen := x.1.seen }
            s1.putElem j k idx p t o x.1 x.2) acc) (none, s)
  if r.1.isSome then r else r.2.putRows j k idx p

/-- Run a whole vector instruction (R176, R179; DESIGN CHOICE, unsafe: notes/assumptions/21.md): tile by tile, until a fetch fails or a
stopping event ends it. (DEDUCED, unsafe: notes/assumptions/54.md.) -/
def State.runVector (s : State) (c g n : Nat) (r : Run) : State :=
  let k := 18 * g + n
  let j := s.job c g n r
  let x := (List.range (j.t.p * j.perProblem)).foldl (fun (acc : Option Nat × State) tile =>
    if acc.1.isSome then acc
    else
      let f := acc.2.fetchTile j tile
      if f.1 != 0 then (some f.1, f.2) else f.2.vecTile j k r.idx tile) (none, s)
  let work := j.t.p * j.t.m * j.t.n * (j.t.chain.length + b2n (j.t.vred != 0) + b2n j.a.hasScale)
  (x.2.countOps c 5 work).endRun k r.idx (x.1.getD 0)

end Sys2Proof.Machine
end

