-- ==== Sys2Proof/Machine/Retriever.lean ====
section
/-! DEFINITION. Retriever descriptors: copies, fills and granule states, and the acceptance of units
(spec/08_memory.md R198 to R201, R205; the locks of spec/13_step_ledger_and_replay.md R286). -/

namespace Sys2Proof.Machine

/-- The Retriever record of a cluster that has started and not issued its last transfer. -/
def Clu.descriptor (c : Clu) (op : Nat) : Option Run :=
  c.runs.find? fun r => recKind r.rec_ == 3 && (⟨r.rec_⟩ : RetD).op == op && !r.begun

/-- The agent of a Retriever record. -/
def retAgent (c g n : Nat) (r : Run) : Agent := agentOf c g n 4 r.instr

/-- The address in the bank of this repetition (R228), for spaces 0 and 1. -/
def State.retAddr (s : State) (c g n rep space addr : Nat) : Nat :=
  if space == 1 then (s.image c).subst true (s.partIndex c g) n rep addr
  else if space == 0 then (s.image c).subst false 0 0 rep addr
  else addr

/-- Bytes of a row that can be read before the first granule that fails: the status, the prefix and the state. -/
def State.readPrefix (s : State) (ag : Agent) (space addr n : Nat) : Nat × List Byte × State :=
  (granPieces space addr n).foldl (fun (acc : Nat × List Byte × State) pc =>
    if acc.1 != 0 then acc
    else
      let r := acc.2.2.readRange ag space pc.1 pc.2
      (r.1, acc.2.1 ++ r.2.1, r.2.2)) (0, [], s)

/-- Convert elements in ascending order (R91, R199), stopping after one whose event stops the work: the
elements' bits, the stop, the state. -/
def State.convertRow (s : State) (ag : Agent) (d : RetD) (mask row : Nat) (bs : List Byte) (n : Nat) :
    List Nat × Option Nat × State :=
  (List.range n).foldl (fun (acc : List Nat × Option Nat × State) k =>
    if acc.2.1.isSome then acc
    else
      let v := d.srcFmt.decode (d.srcFmt.elem bs k)
      let e := d.dstFmt.encode d.sat v.1
      let r := acc.2.2.raise ag mask row k (v.2.add e.2).cap
      (acc.1 ++ [e.1], r.1, r.2)) ([], none, s)

/-- Cut the bytes of a destination row into units of 64 bytes at ascending addresses. -/
def unitsOf (space addr : Nat) (bs : List Byte) (counts : Bool) : List UnitW :=
  (List.range (ceilDiv bs.length 64)).map fun i => {
    space := space, addr := addr + 64 * i, bytes := slice bs (64 * i) 64, counts := counts }

/-- One row of a copy, from the source bytes that could be read (R199, R200): its units, the stop, the state. (DESIGN CHOICE, safe: notes/assumptions/41.md.) -/
def State.copyRow (s : State) (c g n : Nat) (r : Run) (d : RetD) (row : Nat) (bs : List Byte) (full : Bool) :
    List UnitW × Option Nat × State :=
  let ag := retAgent c g n r
  let dst := s.retAddr c g n r.rep d.dstSpace (d.dst + row * d.dstPitch)
  if d.srcFmt == d.dstFmt then
    let bytes := if full then padTo (ceilDiv bs.length 64 * 64) bs else bs.take (bs.length / 64 * 64)
    (unitsOf d.dstSpace dst bytes true, none, s)
  else
    let avail := min d.elems (bs.length / d.srcFmt.unit * d.srcFmt.perUnit)
    let x := s.convertRow ag d r.mask row bs avail
    let bytes := d.dstFmt.packRow x.1
    if x.2.1.isSome && x.1.length < d.elems then
      let whole := bytes.length / 64 * 64
      (unitsOf d.dstSpace dst (bytes.take whole) true ++ unitsOf d.dstSpace (dst + whole) (bytes.drop whole) false, x.2.1, x.2.2)
    else
      let all := if full then padTo (ceilDiv bytes.length 64 * 64) bytes else bytes.take (bytes.length / 64 * 64)
      (unitsOf d.dstSpace dst all true, x.2.1, x.2.2)

/-- The rows of a copy from bulk or cluster memory (R193, R199): units up to the first failing granule or stopping
event, and the status. -/
def State.copyRows (s : State) (c g n : Nat) (r : Run) (d : RetD) : List UnitW × Nat × State :=
  let ag := retAgent c g n r
  (List.range d.rows).foldl (fun (acc : List UnitW × Nat × State) row =>
    if acc.2.1 != 0 then acc
    else
      let src := acc.2.2.retAddr c g n r.rep d.srcSpace (d.src + row * d.srcPitch)
      let q := acc.2.2.readPrefix ag d.srcSpace src d.srcRowBytes
      let u := q.2.2.copyRow c g n r d row q.2.1 (q.1 == 0)
      (acc.1 ++ u.1, (if q.1 != 0 then q.1 else u.2.1.getD 0), u.2.2)) ([], 0, s)

/-- A Retriever record begins: its progress word is set to 0 before its first read (R200). -/
def State.beginRet (s : State) (c g n : Nat) (r : Run) : State :=
  let d : RetD := ⟨r.rec_⟩
  (s.writeProg (retAgent c g n r) d.progCm 0).modRunOf (18 * g + n) r.idx fun x => { x with begun := true, total := d.units }

/-- Give a run its units; with none left to accept it has finished. -/
def State.giveUnits (s : State) (k idx : Nat) (us : List UnitW) (status : Nat) : State :=
  s.modRunOf k idx fun x => { x with units := us, status := status, issued := true, finished := us.isEmpty }

/-- RETRIEVER_COPY: a copy descriptor of on-package memory reads its rows and converts once where the formats
differ (R199); the destination accepts the units by UNIT_ACCEPT. A copy from a port is `State.portCopy`'s. -/
def State.retrieverCopy (s : State) (c g n : Nat) (r : Run) : State :=
  let s1 := s.beginRet c g n r
  let x := s1.copyRows c g n r ⟨r.rec_⟩
  x.2.2.giveUnits (18 * g + n) r.idx x.1 x.2.1

/-- RETRIEVER_FILL_ZEROS: zeros over the destination, reading no source (R199). -/
def execRetrieverFillZeros (g n at_ : Nat) (s0 : State) : Host.Outcome State Fault Refusal :=
  let s := s0.atClk at_
  match s.mayIssue g with
  | none => .next s
  | some c => match (s.clu (18 * g + n)).descriptor 1 with
    | none => .next s
    | some r =>
      let d : RetD := ⟨r.rec_⟩
      let us := (List.range d.rows).flatMap fun row =>
        unitsOf d.dstSpace (s.retAddr c g n r.rep d.dstSpace (d.dst + row * d.dstPitch)) (zeros (d.rowUnits * 64)) true
      .next ((s.beginRet c g n r).giveUnits (18 * g + n) r.idx us 0)

/-- Change the granule states of a descriptor's destination rows (R192, R199) and finish it. -/
def State.retState (s : State) (c g n st : Nat) (r : Run) : State :=
  let d : RetD := ⟨r.rec_⟩
  let ag := retAgent c g n r
  let s1 := s.beginRet c g n r
  let x := (List.range d.rows).foldl (fun (acc : Nat × Nat × State) row =>
    if acc.1 != 0 then acc
    else
      let w := acc.2.2.rangeState ag d.dstSpace (acc.2.2.retAddr c g n r.rep d.dstSpace (d.dst + row * d.dstPitch)) d.dstRowBytes st
      (w.1, (if w.1 == 0 then acc.2.1 + d.rowUnits else acc.2.1), w.2)) (0, 0, s1)
  let s2 := (x.2.2.writeProg ag d.progCm x.2.1).progress g
  s2.modRunOf (18 * g + n) r.idx fun y => { y with prog := x.2.1, status := x.1, issued := true, finished := true }

/-- RETRIEVER_DEFINE_ZERO: granule states become zero-defined (R192, R199). -/
def execRetrieverDefineZero (g n at_ : Nat) (s0 : State) : Host.Outcome State Fault Refusal :=
  let s := s0.atClk at_
  match s.mayIssue g with
  | none => .next s
  | some c => match (s.clu (18 * g + n)).descriptor 2 with
    | none => .next s
    | some r => .next (s.retState c g n 1 r)

/-- RETRIEVER_INVALIDATE: granule states become unwritten (R192, R199). -/
def execRetrieverInvalidate (g n at_ : Nat) (s0 : State) : Host.Outcome State Fault Refusal :=
  let s := s0.atClk at_
  match s.mayIssue g with
  | none => .next s
  | some c => match (s.clu (18 * g + n)).descriptor 3 with
    | none => .next s
    | some r => .next (s.retState c g n 0 r)

/-- The destination takes a unit: memory is written, or the unit leaves through a port. -/
def State.takeUnit (s : State) (ag : Agent) (qp : Nat) (u : UnitW) : Nat × State :=
  if u.space ≤ 1 then s.writeRange ag u.space u.addr u.bytes else (0, s.send (.portWrite u.space qp u.addr u.bytes))

/-! ### Locks (R286) -/

/-- Bytes of one context row: 256 in each channel. -/
def State.rowBytes (s : State) (c : Nat) : Nat := (s.chList c).length * 256

/-- Address and bytes of the input bank of step `j` (R282). -/
def State.inBank (s : State) (c j : Nat) : Nat × Nat :=
  let l := s.led c
  (l.inBase * 64 + j % (l.k + 1) * (l.inUnits * 64), l.inUnits * 64)

/-- Two byte ranges meet. -/
def rangesMeet (a n b m : Nat) : Bool := decide (a < b + m) && decide (b < a + n)

/-- A write of `n` bytes at `addr` of a context waits for a gradient or input lock. -/
def State.locked (s : State) (c addr n : Nat) : Bool :=
  let l := s.led c
  let rb := s.rowBytes c
  ((l.sends.any fun e => e.2 == 1) && rangesMeet addr n (l.gRow * rb) (l.gRows * rb)) ||
  l.inLocks.any fun j => rangesMeet addr n (s.inBank c j).1 (s.inBank c j).2

/-! ### Transfers that end before their time (R200, R372) -/

/-- Units of 64 bytes, cut from bytes that a copy received ahead of their turn (R200, R405), where the bytes are stored as
they come. -/
def State.aheadUnits (s : State) (c g n : Nat) (r : Run) : List UnitW :=
  let d : RetD := ⟨r.rec_⟩
  if d.srcFmt != d.dstFmt || 2 ≤ d.dstSpace || d.srcRowBytes == 0 then []
  else r.pieces.flatMap fun p =>
    let at_ := p.1 % d.srcRowBytes
    let skip := ceilDiv at_ 64 * 64 - at_
    let bs := p.2.drop skip
    let whole := if at_ + p.2.length == d.srcRowBytes then padTo (ceilDiv bs.length 64 * 64) bs else bs.take (bs.length / 64 * 64)
    unitsOf d.dstSpace (s.retAddr c g n r.rep d.dstSpace (d.dst + p.1 / d.srcRowBytes * d.dstPitch) + at_ + skip) whole true

/-- A unit that nobody has accepted when its transfer is abandoned (R200, R372): one that has left the cluster is
performed, one still inside is discarded, and the spec does not say which it is (DESIGN CHOICE, safe: notes/assumptions/26.md). It is still
inside where it waits for a lock or a pool granule. -/
def State.leaveUnit (s : State) (ag : Agent) (qp : Nat) (u : UnitW) : State :=
  let t := { s with freeCtr := s.freeCtr + 1 }
  let waits := u.space == 0 && (s.locked ag.ctx u.addr u.bytes.length ||
    match s.bulkLoc ag.ctx u.addr with | some key => s.cowFull (key / 256) | none => false)
  if Config.freeBool s.freeCtr && !waits then (t.takeUnit ag qp u).2 else t

/-- The units of a Retriever record at its abandonment. -/
def State.leaveUnits (s : State) (c k : Nat) (r : Run) : State :=
  if recKind r.rec_ == 3 then
    (r.units ++ s.aheadUnits c (k / 18) (k % 18) r).foldl
      (fun t u => t.leaveUnit (retAgent c (k / 18) (k % 18) r) (⟨r.rec_⟩ : RetD).qp u) s
  else s

end Sys2Proof.Machine
end

