-- ==== Sys2Proof/Machine/Fence.lean ====
section
/-! DEFINITION. Fences, resets, residency, stops and the clean-up of a load
(spec/10_avavo_images_and_loader.md R240; spec/17_partitions_reset_and_recovery.md R364 to R384). -/

namespace Sys2Proof.Machine

/-- Clear what a load wrote: every granule of the context's window is unwritten again (R240). -/
def State.cleanLoad (s : State) (c : Nat) : State :=
  match s.window c with
  | some w => s.clearRows (s.chList c) w.1 w.2
  | none => s

/-- A load ends without a commit (R240, R242): cleaned up, its state empty, its outcome kept and reported. -/
def State.endLoad (s : State) (c status reason sect index fetch : Nat) : State :=
  let s1 := (s.cleanLoad c).modLoad c fun l => { l with
    state := 0, status := status, reason := reason, section_ := sect, index := index, fetchStatus := fetch, img := {} }
  let s2 := { s1 with
    loader := { s1.loader with busy := none, bytes := [], pieces := [] },
    tags := (s1.tags.filter fun (t : PortTag) => t.op != 1 || t.quarantined || t.space == 2).map fun (t : PortTag) =>
      if t.op == 1 then { t with quarantined := true } else t }
  s2.report 1 6 status noPart c

/-- The clusters of a partition. -/
def clusOf (g : Nat) : List Nat := (List.range 18).map (18 * g + ·)

/-- A cluster with nothing of a context left in it: what the scrub and the ECC counts keep stays. -/
def Clu.emptied (c : Clu) : Clu := { scrubNext := c.scrubNext, scrubClk := c.scrubClk, ce := c.ce, ue := c.ue }

/-- Abandon the records of a partition (R372, R381): queues and runs dropped, the segments in progress ended, banks released, in_hand to stranded,
sends not yet started across dropped. Units that had left are performed; progress words keep what was accepted. (DEDUCED, unsafe: notes/assumptions/28.md.) -/
def State.abandon (s : State) (g : Nat) : State :=
  let s0 := match s.residentOf g with
    | some c => (clusOf g).foldl (fun t k => (s.clu k).runs.foldl (fun (u : State) r => u.leaveUnits c k r) t) s
    | none => s
  let s1 := (clusOf g).foldl (fun t k => t.modClu k fun c => { c with queue := [], runs := [], banks := [{}, {}, {}, {}, {}], segOpen := false }) s0
  let hand := (s1.part g).sync.inHand.nat
  let s2 := (s1.modSync g fun p => { p with inHand := pairOf 16 0 }).strand g hand
  { s2 with sync := { s2.sync with sends := s2.sync.sends.filter fun e => e.src != g || e.remote } }

/-! ### The queues of the Cobblers (R249, R261) -/

/-- A channel begins the pass at the head of its queue, if it is idle: its phase is preload's end, update or emit
(R249). -/
def State.cobBegin (s : State) (ch : Nat) : State :=
  let ct := s.chan ch
  if ct.cobBusy then s
  else match ct.cobQueue with
    | [] => s
    | e :: _ =>
      match (s.clu (18 * e.g + e.n)).runs.find? fun r => r.idx == e.idx with
      | none => s.modChan ch fun x => { x with cobQueue := x.cobQueue.drop 1 }
      | some r => s.modChan ch fun x => { x with
          cobBusy := true, cobPhase := if (⟨r.rec_⟩ : CobP).op == 2 then 3 else 2, cobCtx := e.ctx, cobElements := 0 }

/-- Passes leave every queue, with a status where one is given; a channel whose pass was among them turns to its next one
(R249). -/
def State.dropPasses (s : State) (hit : CobPass → Bool) (status : Option Nat) : State :=
  let s1 := { s with chans := s.chans.map fun (x : Nat × Chan) =>
    let mine := match x.2.cobQueue with | e :: _ => hit e | [] => false
    (x.1, { x.2 with
      cobQueue := x.2.cobQueue.filter (!hit ·), cobWait := x.2.cobWait.filter (!hit ·),
      cobBusy := x.2.cobBusy && !mine, cobPhase := if mine then 0 else x.2.cobPhase,
      cobStatus := if mine then status.getD x.2.cobStatus else x.2.cobStatus }) }
  s1.chans.foldl (fun t x => t.cobBegin x.1) s1

/-- The whole of a pass ends with a status (R261): every slot stops, no signal is made. -/
def State.cobEnd (s : State) (e : CobPass) (status : Nat) (stopped : Bool) : State :=
  (s.dropPasses (· == e) (some status)).endRun (18 * e.g + e.n) e.idx status stopped

/-- Passes that others issued to the channels of a fenced partition end with ST_FENCED to their issuers; passes that the
partition issued leave every channel (R261, R372). -/
def State.fenceCobblers (s : State) (g : Nat) : State :=
  let mine : List Nat := [4 * g, 4 * g + 1, 4 * g + 2, 4 * g + 3]
  let s1 := mine.foldl (fun t ch =>
    ((t.chan ch).cobQueue ++ (t.chan ch).cobWait).foldl (fun u e =>
      if e.g == g then u else (u.cobEnd e stFenced false).report 1 0 stFenced e.g e.ctx ch) t) s
  s1.dropPasses (fun e => e.g == g) (some stFenced)

/-- Cobbler passes of a context leave every queue. -/
def State.dropCobblers (s : State) (c : Nat) : State := s.dropPasses (fun e => e.ctx == c) none

/-! ### Fences -/

/-- A fence cuts its partition off (R372): draining with its cause, the resident context stopped in its other partitions too
(R373), records, banks, passes and tokens in hand abandoned. -/
def State.cutPart (s : State) (g cause : Nat) : State :=
  let s1 := s.modCtl g fun p => { p with state := 1, cause := cause, fences := satAdd 0xFFFF p.fences 1, fenceClk := s.clk }
  let s2 := match s.residentOf g with
    | some c => s1.stopCtx c
    | none => s1
  let s3 := ((s2.abandon g).fenceCobblers g).modMon g fun m => { m with quiet := 0, hangTold := false }
  { s3 with gov := { s3.gov with ballastCtx := none } }

/-- What else a fence ends: drains of checkpoints (R320) and a load (R242) of a context of the partition. -/
def State.endFenced (s : State) (g : Nat) : State :=
  let drains := (s.ckpts.filter fun e => 2 ≤ e.2.state && (s.partsOf e.1).contains g).map (·.1)
  let s1 := drains.foldl (fun t c => t.ckptEnd c stFenced 0) s
  match s1.loader.busy with
  | some c => if (s1.partsOf c).contains g then s1.endLoad c stFenced 0 0 0xFFFFFFFF 0 else s1
  | none => s1

/-- Raise a fence of partition `g` (R371, R372): the first cause stays. -/
def State.fence (s : State) (g cause : Nat) : State := if s.cutOff g then s else (s.cutPart g cause).endFenced g

/-- Every partition is fenced or failed (R375, R484). -/
def State.allCut (s : State) : Bool := (List.range 64).all fun g => (s.part g).ctl.state == 2 || (s.part g).ctl.state == 4

/-- The severity of a fence or failure: 3 where it leaves every partition fenced or failed (R375, R484). -/
def State.cutSeverity (s : State) : Nat := if s.allCut then 3 else 2

/-- The start of reset phase 2 (R374): the clusters, Cobblers and traffic generators held in reset, the books of
the partition cleared, no context resident, its overrun counts cleared. -/
def State.resetPhase2 (s : State) (g : Nat) : State :=
  let s1 := (s.emptySync g).modCtl g fun p => { p with
    state := 3, phase := 2, residentValid := false, resident := 0, parkedFor := none }
  let s2 := s1.modMon g fun m => { m with slip := 0, overruns := 0, quiet := 0, hangTold := false, progress := false }
  let s3 := (clusOf g).foldl (fun t k => t.modClu k Clu.emptied) s2
  [4 * g, 4 * g + 1, 4 * g + 2, 4 * g + 3].foldl (fun t ch =>
    t.modChan ch fun c => { c with tg := { c.tg with busy := false, stopping := false }, cobQueue := [], cobWait := [], cobBusy := false, cobPhase := 0 }) s3

/-- Open reads of the ports for a partition, not yet answered or quarantined (R372). -/
def State.openTags (s : State) (g : Nat) : List PortTag := s.tags.filter fun t => t.g == g && !t.quarantined

/-- The status of a fence event (R58, R372): the settlement's where it failed, ST_TICK_OVERRUN for a slip. -/
def fenceStatus (cause : Nat) (settled : Bool) : Nat :=
  if !settled then stCensus else if cause == 2 then stTickOverrun else stFenced

/-- PART_FENCE: the fence command cuts the partition off and starts the drain (R371 cause 0, R372). -/
def execPartFence (g at_ : Nat) (s0 : State) : Host.Outcome State Fault Refusal :=
  let s := s0.atClk at_
  .next ({ s with partRegs := { s.partRegs with gpart := g, lastStatus := stOk } }.fence g 0)

/-- UNIT_FAULT: a parity error or watchdog in cluster, Cobbler or traffic-generator logic fences the partition with
cause 4 (R371). -/
def execUnitFault (g at_ : Nat) (s0 : State) : Host.Outcome State Fault Refusal := .next ((s0.atClk at_).fence g 4)

/-- FENCE_DRAIN_COMPLETE: with out at 0 and every port read answered or quarantined the drain is done: the tokens
are settled and the partition is fenced, or begins the reset that waits for it (R218, R372, R374). -/
def execFenceDrainComplete (g at_ : Nat) (s0 : State) : Host.Outcome State Fault Refusal :=
  let s := s0.atClk at_
  let p := (s.part g).ctl
  if p.state != 1 || (s.part g).sync.out.nat != 0 || !(s.openTags g).isEmpty then .next s
  else
    let st := match s.residentOf g with
      | some c => s.settle c
      | none => (true, s)
    let s1 := st.2.modCtl g fun p => { p with state := 2, settleFailed := !st.1 }
    let s3 := s1.report s1.cutSeverity 0 (fenceStatus p.cause st.1) g ((s.residentOf g).getD noCtx) 0 (at' p.cause 28)
    match p.resetAfter with
    | some full => .next ((s3.resetPhase2 g).modCtl g fun q => { q with
        resetAfter := none, fullSearch := full, resets := satAdd 0xFFFF q.resets 1,
        resetResult := if st.1 then 0 else 3 })
    | none => .next s3

/-- DRAIN_LIMIT_EXPIRE: drain_limit_us after the fence, port reads still open are quarantined (R372). -/
def execDrainLimitExpire (g at_ : Nat) (s0 : State) : Host.Outcome State Fault Refusal :=
  let s := s0.atClk at_
  let p := (s.part g).ctl
  if p.state != 1 || s.clk < p.fenceClk + s.partRegs.drainLimit * 1100 then .next s
  else
    let n := (s.openTags g).length
    .next ({ s with tags := s.tags.map fun (t : PortTag) =>
        if t.g == g && !t.quarantined then { t with quarantined := true, held := true } else t }.modCtl g
      fun p => { p with quarantined := satAdd 0xFFFF p.quarantined n })

/-- PART_RESET: the reset command fences the partition if needed and starts its reset phases (R374, R384). (DEDUCED, unsafe: notes/assumptions/45.md.) -/
def execPartReset (g : Nat) (full : Bool) (at_ : Nat) (s0 : State) : Host.Outcome State Fault Refusal :=
  let s := s0.atClk at_
  let s1 := { s with partRegs := { s.partRegs with gpart := g, fullSearch := full, lastStatus := stOk } }
  match (s.part g).ctl.state with
  | 0 => .next ((s1.fence g 5).modCtl g fun p => { p with resetAfter := some full, resetClk := s.clk, phase := 1 })
  | 1 => .next (s1.modCtl g fun p => { p with resetAfter := some full, resetClk := s.clk, phase := 1 })
  | 3 => .next { s1 with partRegs := { s1.partRegs with cmdRefused := true, refuseReason := 5 } }
  | _ => .next ((s1.resetPhase2 g).modCtl g fun p => { p with
      fullSearch := full, resetClk := s.clk, resets := satAdd 0xFFFF p.resets 1,
      resetResult := if p.settleFailed then 3 else 0 })

/-- The event of a reset's result (R370, R374, R484). -/
def State.tellReset (s : State) (g result : Nat) : State :=
  s.report s.cutSeverity 0 (if result == 0 then stOk else stFenced) g noCtx 0 (at' (s.part g).ctl.cause 28 + at' result 26)

/-- Every line of a partition's cluster memory to unwritten (R194, R374). -/
def State.clearCm (s : State) (g : Nat) : State :=
  s.clearGrans (lineBase + 18 * g * 32768) (lineBase + 18 * (g + 1) * 32768)

/-- RESET_PHASE_COMPLETE: a reset phase ends and the next begins, or the partition enters failed (R374, R375). -/
def execResetPhaseComplete (g : Nat) (ok : Bool) (at_ : Nat) (s0 : State) : Host.Outcome State Fault Refusal :=
  let s := s0.atClk at_
  let p := (s.part g).ctl
  if p.state != 3 then .next s
  else
    let ms := (s.clk - p.resetClk) / 1100000
    let fail (r : Nat) : State :=
      let s1 := s.modCtl g fun p => { p with state := 4, resetResult := r, phase := 0, lastResetMs := min 0xFFFF ms }
      s1.tellReset g r
    match p.phase with
    | 2 => .next (s.modCtl g fun p => { p with phase := 3 })
    | 3 => if ok then .next (s.modCtl g fun p => { p with phase := 4, searched := p.searched + b2n p.fullSearch }) else .next (fail 1)
    | 4 => if ok then .next (s.modCtl g fun p => { p with phase := 5 }) else .next (fail 2)
    | _ =>
      let s1 := (s.clearCm g).modCtl g fun p => { p with
        state := 0, phase := 0, settleFailed := false, lastResetMs := min 0xFFFF ms }
      .next (s1.tellReset g (s1.part g).ctl.resetResult)

/-- CTX_STOP: nothing further of the context issues in any of its partitions from the next tick edge (R381). -/
def execCtxStop (c : Nat) (s : State) : Host.Outcome State Fault Refusal :=
  .next ({ s with partRegs := { s.partRegs with ctx := c, lastStatus := stOk } }.stopCtx c)

/-- CTX_ABORT: stop a context and abandon its in-flight records as a fence does, then settle its books; nothing to
abandon reports ST_ALREADY_DONE (R381, R384). -/
def execCtxAbort (c at_ : Nat) (s0 : State) : Host.Outcome State Fault Refusal :=
  let s := s0.atClk at_
  let s1 := { s with partRegs := { s.partRegs with ctx := c } }.stopCtx c
  if s.noRecords c then .next { s1 with partRegs := { s1.partRegs with lastStatus := stAlreadyDone } }
  else
    let gs := (s.partsOf c).filter fun g => s.residentOf g == some c
    let s2 := (gs.foldl (fun t g => t.abandon g) s1).dropCobblers c
    let st := s2.settle c
    let s3 := if st.1 then st.2 else st.2.report 2 4 stCensus noPart c
    .next { s3 with partRegs := { s3.partRegs with lastStatus := stAborted } }

/-- Contexts assigned to a partition. -/
def State.assigned (s : State) (g : Nat) : List Nat :=
  (s.ctxRuns.filter fun e => bitOf e.2.assign.v.toNat g).map (·.1)

/-- Why an assignment is refused (R364, R382). -/
def State.assignRefusal (s : State) (c mask : Nat) : Option Nat :=
  if (s.load c).state != 0 || (s.jobOf c).isSome then some 1
  else if (bitsOf 64 mask).any fun g => (s.part g).ctl.state == 4 then some 3
  else if (bitsOf 64 mask).any fun g => decide (16 ≤ ((s.assigned g).filter (· != c)).length) then some 2
  else none

/-- A PART command or write is refused (R382). -/
def State.partRefuse (s : State) (reason : Nat) : State :=
  { s with partRegs := { s.partRegs with cmdRefused := true, refuseReason := reason } }

/-- PART_ASSIGN_WRITE: a paired PART_ASSIGN write assigns partitions to a context, or is refused (R364). -/
def execPartAssignWrite (c mask : Nat) (s : State) : Host.Outcome State Fault Refusal :=
  match s.assignRefusal c mask with
  | some r => .next (s.partRefuse r)
  | none => .next (s.modRun c fun r => { r with assign := pairOf 64 mask })

/-- NEXT_CONTEXT_WRITE: a write of next_valid and next of PART_STATE names the incoming context, which must be
assigned to the partition (R365, R382); a parked partition is then parked for that one. The partition parks at the
resident context's next barrier, or at the next edge where it has none. -/
def execNextContextWrite (g value : Nat) (s : State) : Host.Outcome State Fault Refusal :=
  let x := fld value 9 0
  if bitOf value 31 then
    if bitOf (s.run x).assign.v.toNat g then .next (s.modCtl g fun p => { p with
      nextValid := true, next := x, parkedFor := p.parkedFor.map fun _ => x })
    else .next (s.partRefuse 4)
  else .next (s.modCtl g fun p => { p with nextValid := false, next := x, parkedFor := none })

/-- The first unmet wait of a queued record: object and the count it holds (R368). -/
def State.firstUnmet (s : State) (g r : Nat) : Option (Nat × Nat) :=
  ((waitNeeds r).find? fun w => !s.waitsMet g [w]).map
    fun w => (w.1, ((s.part g).sync.obj w.1).nat)

/-- The oldest dispatched, unretired record of a partition (R368): its cluster key, unit, instr word, bits, whether
it has started. -/
def State.oldest (s : State) (g : Nat) : Option (Nat × Nat × Nat × Nat × Bool) :=
  let all := (clusOf g).flatMap fun k =>
    ((s.clu k).runs.map fun r => (r.disp, k, r.idx, r.unit, r.instr, r.rec_, true)) ++
    ((s.clu k).queue.map fun r => (r.disp, k, r.idx, r.unit, r.instr, r.rec_, false))
  let best := all.foldl (fun (b : Option (Nat × Nat × Nat × Nat × Nat × Nat × Bool)) x => match b with
    | none => some x
    | some y =>
      if x.1 < y.1 || (x.1 == y.1 && (x.2.1 < y.2.1 || (x.2.1 == y.2.1 && x.2.2.1 < y.2.2.1))) then some x else b) none
  best.map fun x => (x.2.1, x.2.2.2.1, x.2.2.2.2.1, x.2.2.2.2.2.1, x.2.2.2.2.2.2)

/-- The detail of a hang event (R370). -/
def State.hangDetail (s : State) (g : Nat) : Nat × Nat :=
  match s.oldest g with
  | none => (0, 0)
  | some (k, u, _, r, started) =>
    if started then (k, 0)
    else match s.firstUnmet g r with
      | some w => (k, at' (unit117 u) 29 + at' w.1 18 + at' w.2 2 + 1)
      | none => (k, 0)

/-- HANG_DETECTED: quiet_ticks has reached hang_ticks: the hang is reported and hang_action acts (R368). The
status code of the event is open (DESIGN CHOICE, safe: notes/assumptions/22.md). (DEDUCED, unsafe: notes/assumptions/14.md.) -/
def execHangDetected (g at_ : Nat) (s0 : State) : Host.Outcome State Fault Refusal :=
  let s := s0.atClk at_
  let m := (s.part g).mon
  if m.hangTicks == 0 || m.quiet < m.hangTicks || m.hangTold || s.cutOff g then .next s
  else
    let d := s.hangDetail g
    let c := (s.residentOf g).getD noCtx
    let s1 := (s.modMon g fun m => { m with hangs := satAdd 0xFFFF m.hangs 1, hangTold := true }).report 2 0 (openStatus 0) g c d.1 d.2
    match m.hangAction with
    | 1 => .next (s1.fence g 1)
    | 2 => .next (match s.residentOf g with | some c => s1.stopCtx c | none => s1)
    | _ => .next s1

/-! ### The lease and the Sheepdog queue (R376, R377, R383) -/

/-- LEASE_GRANT: a paired lease grant is accepted or refused by term and duration (R376). -/
def execLeaseGrant (value at_ : Nat) (s0 : State) : Host.Outcome State Fault Refusal :=
  let s := s0.atClk at_
  let term := fld value 31 16
  let dur := fld value 11 0
  let cur := fld s.dog.lease.v.toNat 31 16
  let refuse : State := { s with dog := { s.dog with grantsRefused := satAdd 255 s.dog.grantsRefused 1 } }
  if term < cur then .next refuse
  else if dur == 0 then
    if s.starts.any fun e => e.2.state == 3 then .next refuse
    else .next { s with dog := { s.dog with lease := pairOf 32 (at' term 16), leaseState := 0, leaseEnd := 0 } }
  else .next { s with dog := { s.dog with
    lease := pairOf 32 (at' term 16 + dur), leaseState := 1, leaseEnd := s.clk + dur * 1100000 } }

/-- SHEEPDOG_ACK: every severity-3 entry queued is acknowledged (R383). -/
def execSheepdogAck (s : State) : Host.Outcome State Fault Refusal :=
  .next { s with dog := { s.dog with queue := s.dog.queue.map fun e => if e.severity == 3 then { e with acked := true } else e } }

/-- The queue without its first unsent entry. -/
def popUnsent : List Event → List Event
  | [] => []
  | x :: xs => if x.sent then x :: popUnsent xs else xs

/-- SHEEPDOG_POP: the entry shown in SHEEPDOG_EV, the oldest that no datagram has carried, leaves the queue (R383). -/
def execSheepdogPop (s : State) : Host.Outcome State Fault Refusal :=
  .next { s with dog := { s.dog with queue := popUnsent s.dog.queue } }

/-! ### Residency (R365) -/

/-- Zero-defined cluster-memory buffers of a context in partition `g` (R229). -/
def State.zeroCmBufs (s : State) (c g : Nat) : State :=
  let j := s.partIndex c g
  ((s.image c).bufs.filter fun b => b.cm && b.zeroDef && b.part == j).foldl (fun t b =>
    (t.rangeState { ctx := c, loc := 18 * g + b.cluster, unit := 4, instr := 0, gpart := g } 1 b.addr (b.size * b.banks) 1).2) s

/-- Partition `g` waits for another context than its own, and is not parked yet (R365). -/
def State.wantsNext (s : State) (g : Nat) : Bool :=
  let p := (s.part g).ctl
  p.state == 0 && p.nextValid && p.parkedFor == none && s.residentOf g != some p.next

/-- Park a partition for its incoming context (R365 step 2). -/
def State.parkPart (s : State) (g : Nat) : State :=
  if s.wantsNext g then s.modCtl g fun p => { p with parkedFor := some p.next } else s

/-- The step boundary barrier of a context parks its partitions that have an incoming context (R365 step 2). -/
def State.parkAtBarrier (s : State) (c : Nat) : State := (s.partsOf c).foldl State.parkPart s

/-- The resident context of a partition runs no step and none begins at this edge: no barrier of it is to come. -/
def State.noStep (s : State) (c : Nat) : Bool := !(s.run c).inStep && ((s.start c).state != 3 || (s.run c).stopped)

/-- An edge parks the partitions that have an incoming context and no resident one, or one that runs no step (R365 step 2). -/
def State.park (s : State) : State :=
  (List.range 64).foldl (fun t g => match t.residentOf g with
    | none => t.parkPart g
    | some c => if t.noStep c then t.parkPart g else t) s

/-- Context `x` can become resident: loaded, and every partition of it parked for it or already its own, none cut
off (R365 step 3). -/
def State.canEnter (s : State) (x : Nat) : Bool :=
  (s.load x).state == 4 && !(s.partsOf x).isEmpty &&
  (s.partsOf x).all (fun g => !s.cutOff g && ((s.part g).ctl.parkedFor == some x || s.residentOf g == some x)) &&
  (s.partsOf x).any fun g => (s.part g).ctl.parkedFor == some x

/-- A partition takes `x` as its resident context (R365 step 4). -/
def State.enterPart (s : State) (x g : Nat) : State :=
  if s.residentOf g == some x then s.modCtl g fun p => { p with nextValid := false, parkedFor := none }
  else
    let s1 := s.clearCm g
    let s2 := (clusOf g).foldl (fun t k => t.modClu k Clu.emptied) s1
    let s3 := s2.modCtl g fun p => { p with residentValid := true, resident := x, nextValid := false, parkedFor := none }
    ((s3.zeroCmBufs x g).reseed x g).modMon g fun m => { m with quiet := 0, hangTold := false, slip := 0 }

/-- The outgoing contexts' census, then residency of `x` (R365 step 4). -/
def State.enter (s : State) (x : Nat) : State :=
  let outs := ((s.partsOf x).filterMap fun g => if s.residentOf g == some x then none else s.residentOf g).eraseDups
  let s1 := outs.foldl (fun t c => (t.takeCensus c true).2) s
  (s1.partsOf x).foldl (fun t g => t.enterPart x g) s1

/-- RESIDENCY_CHANGE at an edge (R365): every incoming context whose partitions are all parked becomes resident. -/
def State.residency (s : State) : State :=
  let s1 := s.park
  let xs := ((List.range 64).filterMap fun g => (s1.part g).ctl.parkedFor).eraseDups
  xs.foldl (fun t x => if t.canEnter x then t.enter x else t) s1

end Sys2Proof.Machine
end

