-- ==== Sys2Proof/Machine/Cobbler.lean ====
section
/-! DEFINITION. The Cobbler: pass layout, preload, queue, update and emission; codebook calibration and drift
samples (spec/06_narrow_weights.md R141 to R152; spec/11_optimiser_and_masters.md R243 to R261). -/

namespace Sys2Proof.Machine

/-! ### Slabs (R244, R245) -/

/-- Records of slot `q` of `C` (R244). -/
def CobP.recs (p : CobP) (C q : Nat) : Nat := if q < p.rows && C != 0 then (p.rows - 1 - q) / C + 1 else 0

/-- Granules of a record of the HI16, LO16 and MON slabs, of M and V, of G and of GE (R245). -/
def CobP.rec2 (p : CobP) : Nat := ceilDiv (2 * p.k) 256
def CobP.rec4 (p : CobP) : Nat := ceilDiv (4 * p.k) 256
def CobP.recG (p : CobP) : Nat := ceilDiv (128 * ceilDiv p.k 64) 256
def CobP.recGe (p : CobP) : Nat := ceilDiv (ceilDiv p.k 64) 256

/-- Bytes of an emitted row (R245). -/
def emitBytes (f : Fmt) (k outliers : Nat) : Nat := row64 k f.bits + row64 outliers 16

/-- Granules of a record of the E slab (R245). -/
def CobP.recE (p : CobP) (w : WSet) : Nat :=
  let f := (Fmt.ofCode p.emitC).getD .bf16
  if p.narrow then
    let a := emitBytes f p.k w.outliers
    let b := emitBytes ((Fmt.ofCode w.fbCode).getD .bf16) p.k 0
    ceilDiv (if w.trip != 0 then max a b else a) 256
  else ceilDiv (emitBytes f p.k 0) 256

/-- cob_addr of R246. -/
def cobAddr (slabRow rec_ q i b C : Nat) : Nat :=
  let rho := slabRow + i * rec_ + b / 256
  let col := (q + C - rotOf rho C) % C
  (rho * C + col) * 256 + b % 256

/-- Read the first `n` bytes of record `i` of a slot's slab, granule by granule (R245, R246). -/
def State.slabRead (s : State) (ag : Agent) (slabRow rec_ q i n C : Nat) : Nat × List Byte × State :=
  (List.range (ceilDiv n 256)).foldl (fun (acc : Nat × List Byte × State) j =>
    if acc.1 != 0 then acc
    else
      let r := acc.2.2.readRange ag 0 (cobAddr slabRow rec_ q i (256 * j) C) (min 256 (n - 256 * j))
      (r.1, acc.2.1 ++ r.2.1, r.2.2)) (0, [], s)

/-- Write bytes at the start of record `i` of a slot's slab. -/
def State.slabWrite (s : State) (ag : Agent) (slabRow rec_ q i C : Nat) (bs : List Byte) : State :=
  (List.range (ceilDiv bs.length 256)).foldl (fun t j =>
    (t.writeRange ag 0 (cobAddr slabRow rec_ q i (256 * j) C) (slice bs (256 * j) 256)).2) s

/-! ### Preload (R249, R250) -/

/-- Codebook records that a pass uses: first and count (R249). -/
def CobP.books (p : CobP) (w : WSet) : Nat × Nat :=
  if p.narrow && w.fmt != .tern && p.rows != 0 then
    let a := p.n0 / w.group
    (a, (p.n0 + p.rows - 1) / w.group + 1 - a)
  else (0, 0)

/-- A hyper field lies in 0 to 1.0 (R250). -/
def unitRange (x : Nat) : Bool :=
  match dec32 x with
  | .fin q => q.isZero || (!q.neg && q.le (Q.ofNat 1))
  | _ => false

/-- A hyper field is finite with sign 0 (R250). -/
def posFinite (x : Nat) : Bool := !bitOf x 31 && (dec32 x).isFin

/-- The hyper block is valid (R250). -/
def hyperOk (b : List Byte) : Bool :=
  let f (i : Nat) : Nat := leAt b (4 * i) 4
  posFinite (f 0) && unitRange (f 1) && unitRange (f 2) && unitRange (f 3) && unitRange (f 4) && posFinite (f 5) &&
  posFinite (f 6) && posFinite (f 7) && posFinite (f 8) && posFinite (f 9) && (slice b 44 20).all (· == 0)

/-- The preloaded tables of a run: hyper block, codebook records, outlier list. -/
def blobHyper (b : List Byte) (i : Nat) : Val := dec32 (leAt b (4 * i) 4)

/-- Codebook of row `n` in the table store. -/
def CobP.bookOf (p : CobP) (w : WSet) (blob : List Byte) (n : Nat) : List Nat :=
  codebookOf w.fmt (slice blob (64 + 64 * (n / w.group - (p.books w).1)) 64)

/-- Outlier channels in the table store. -/
def CobP.outliersOf (p : CobP) (w : WSet) (blob : List Byte) : List Nat :=
  (List.range w.outliers).map fun i => leAt blob (64 + 64 * (p.books w).2 + 4 * i) 4

/-- Read what preload reads: status, bytes, state. -/
def State.preload (s : State) (ag : Agent) (p : CobP) (w : WSet) : Nat × List Byte × State :=
  let h := s.readRange ag 0 (p.hyper * 64) 64
  if h.1 != 0 then h
  else
    let bk := p.books w
    let b := h.2.2.readRange ag 0 (w.book * 64 + 64 * bk.1) (64 * bk.2)
    if b.1 != 0 then b
    else
      let o := if p.narrow then b.2.2.readRange ag 0 (w.side * 64) (4 * w.outliers) else (0, [], b.2.2)
      if o.1 != 0 then o else (0, h.2.1 ++ b.2.1 ++ o.2.1, o.2.2)

/-- A slot's progress word (R251): phase and count. -/
def State.slotWord (s : State) (ag : Agent) (progCm q phase count : Nat) : State :=
  let v := at' phase 30 + count
  (s.writeRange ag 1 (progCm * 64 + 8 * q) (leBytes 4 v ++ leBytes 4 (0xFFFFFFFF - v))).2

/-- COBBLER_PRELOAD (R249, R250): the progress words are set to 0, the tables read; an invalid hyper block ends the
pass, and otherwise the pass goes to every channel of the context. -/
def State.startCobbler (s : State) (c g n : Nat) (r : Run) : State :=
  let k := 18 * g + n
  let p : CobP := ⟨r.rec_⟩
  let ag := agentOf c g n 4 r.instr
  let chs := s.chList c
  let w := s.wset ag p.ws
  let s0 := (List.range chs.length).foldl (fun t q => t.slotWord ag p.progCm q 0 0) s
  let x := s0.preload ag p w
  if x.1 != 0 then x.2.2.endRun k r.idx x.1
  else if !hyperOk x.2.1 then
    let cag : Agent := { ctx := c, loc := (chs.head?).getD 0, unit := 5, instr := r.instr, gpart := g }
    let e := x.2.2.raise cag r.mask 0 0 evRsvd stHyperInvalid
    let s1 := if e.1.isSome then e.2 else e.2.report 1 5 stHyperInvalid g c ((chs.head?).getD 0) r.instr
    s1.endRun k r.idx stHyperInvalid e.1.isSome
  else
    let s1 := x.2.2.modRunOf k r.idx fun y => { y with blob := x.2.1, total := chs.length }
    chs.foldl (fun t ch => t.modChan ch fun ct => { ct with cobWait := ct.cobWait ++ [⟨g, n, r.idx, c⟩] }) s1

/-- The channels of a context that have not yet taken a pass. -/
def State.passWaits (s : State) (e : CobPass) : Bool := s.chans.any fun x => x.2.cobWait.contains e

/-- COBBLER_QUEUE_ENTER: the first pass waiting at a channel enters its queue of 4 when there is room (R249). A
pass that every channel has taken lets its Retriever start the next record. -/
def execCobblerQueueEnter (ch : Nat) (s : State) : Host.Outcome State Fault Refusal :=
  let ct := s.chan ch
  match ct.cobWait with
  | [] => .next s
  | e :: rest =>
    if 4 ≤ ct.cobQueue.length then .next s
    else
      let s1 := s.modChan ch fun x => { x with cobWait := rest, cobQueue := x.cobQueue ++ [e] }
      let s2 := if s1.passWaits e then s1 else s1.modRunOf (18 * e.g + e.n) e.idx fun r => { r with issued := true }
      .next (s2.cobBegin ch)

/-! ### The update (R252, R253) -/

/-- The four words of an element after cobble, its events, whether it was skipped (R252). -/
def cobble (p : CobP) (H : Nat → Val) (hi lo m v : Nat) (g : Val) : (Nat × Nat × Nat × Nat) × Evs × Bool :=
  let sat := p.sat
  let w := dec32 (hi * 65536 + lo)
  let gc := if p.clip then mul32 sat g (H 7) else (g, {})
  if p.skip && !gc.1.isFin then ((hi, lo, m, v), {}, true)
  else
    let g := gc.1
    let bm := mul32 sat (H 1) (dec32 m)
    let m1 := fma32 sat (H 3) g bm.1
    let gg := mul32 sat g g
    let bv := mul32 sat (H 2) (dec32 v)
    let v1 := fma32 sat (H 4) gg.1 bv.1
    let mh := if p.biasCorr then mul32 sat m1.1 (H 8) else (m1.1, {})
    let vh := if p.biasCorr then mul32 sat v1.1 (H 9) else (v1.1, {})
    let den : Val × Evs :=
      if p.epsInside then
        let a := add32 sat vh.1 (H 5)
        let r := fnSqrt ff32 sat a.1
        (dec32 r.1, a.2.add r.2)
      else
        let r := fnSqrt ff32 sat vh.1
        let a := add32 sat (dec32 r.1) (H 5)
        (a.1, r.2.add a.2)
    let r0 := if den.1.isZero && mh.1.isZero then (mh.1, {}) else div32 sat mh.1 den.1
    let r1 := if p.decay then fma32 sat (H 6) w r0.1 else (r0.1, {})
    let w1 := fma32 sat (H 0).flip r1.1 w
    let wb := (enc32 sat w1.1).1
    let ev := [gc.2, bm.2, m1.2, gg.2, bv.2, v1.2, mh.2, vh.2, den.2, r0.2, r1.2, w1.2].foldl Evs.add {}
    ((wb / 65536, wb % 65536, (enc32 sat m1.1).1, (enc32 sat v1.1).1), ev.cap, false)

/-- A slot is done (R249, R251): its word reads phase 3, its channel turns to the next pass, and with every slot done
the pass has finished. -/
def State.slotDone (s : State) (e : CobPass) (ag : Agent) (p : CobP) (ch q count : Nat) : State :=
  let s1 := s.slotWord ag p.progCm q 3 count
  let s2 := s1.modChan ch fun x => { x with
    cobPasses := wrapAdd 32 x.cobPasses 1, cobStatus := stOk, cobBusy := false, cobPhase := 0, cobQueue := x.cobQueue.drop 1 }
  let s3 := s2.modRunOf (18 * e.g + e.n) e.idx fun r => { r with
    prog := r.prog + 1, finished := decide (r.total ≤ r.prog + 1), issued := r.issued || decide (r.total ≤ r.prog + 1) }
  (s3.progress e.g).cobBegin ch

/-- The pass that a channel runs in a phase: its entry, its run, its slot. -/
def State.cobRunning (s : State) (ch phase : Nat) : Option (CobPass × Run × Nat) :=
  let ct := s.chan ch
  if !ct.cobBusy || ct.cobPhase != phase then none
  else match ct.cobQueue with
    | [] => none
    | e :: _ => match (s.clu (18 * e.g + e.n)).runs.find? fun r => r.idx == e.idx with
      | none => none
      | some r => some (e, r, ((s.chList e.ctx).takeWhile (· != ch)).length)

/-- The outcome of one record's update: status, elements done, skipped, the four rows, state. -/
structure CobRow where
  hi : List Nat := []
  lo : List Nat := []
  m : List Nat := []
  v : List Nat := []
  skipped : Nat := 0
  stop : Option Nat := none
  deriving DecidableEq, Repr

/-- Update record `i` of a slot (R252): reads its operands, computes its elements in ascending k until one stops the
work, and writes what was computed. Answers the status and the elements done. -/
def State.cobRecord (s : State) (ag : Agent) (p : CobP) (r : Run) (q C i ch : Nat) : Nat × Nat × State :=
  let K := p.k
  let hi := s.slabRead ag p.hiRow p.rec2 q i (2 * K) C
  let lo := hi.2.2.slabRead ag p.loRow p.rec2 q i (2 * K) C
  let m := lo.2.2.slabRead ag p.mRow p.rec4 q i (4 * K) C
  let v := m.2.2.slabRead ag p.vRow p.rec4 q i (4 * K) C
  let g := v.2.2.slabRead ag p.gRow p.recG q i (128 * ceilDiv K 64) C
  let ge := g.2.2.slabRead ag p.geRow p.recGe q i (ceilDiv K 64) C
  let fails := [hi.1, lo.1, m.1, v.1, g.1, ge.1].filter (· != 0)
  match fails with
  | f :: _ => (f, 0, ge.2.2)
  | [] =>
    let H := blobHyper r.blob
    let gel (k : Nat) : Val := (Gx.ofBytes (leAt ge.2.1 (k / 64) 1) (slice g.2.1 (128 * (k / 64)) 128)).elem (k % 64)
    let x := (List.range K).foldl (fun (acc : CobRow × State) k =>
      if acc.1.stop.isSome then acc
      else
        let y := cobble p H (leAt hi.2.1 (2 * k) 2) (leAt lo.2.1 (2 * k) 2) (leAt m.2.1 (4 * k) 4) (leAt v.2.1 (4 * k) 4) (gel k)
        let ev := acc.2.raise ag r.mask (q + i * C) k y.2.1
        ({ hi := acc.1.hi ++ [y.1.1], lo := acc.1.lo ++ [y.1.2.1], m := acc.1.m ++ [y.1.2.2.1], v := acc.1.v ++ [y.1.2.2.2],
           skipped := acc.1.skipped + b2n y.2.2, stop := ev.1 }, ev.2)) ({}, ge.2.2)
    let s1 := x.2.slabWrite ag p.hiRow p.rec2 q i C (x.1.hi.flatMap (leBytes 2))
    let s2 := s1.slabWrite ag p.loRow p.rec2 q i C (x.1.lo.flatMap (leBytes 2))
    let s3 := s2.slabWrite ag p.mRow p.rec4 q i C (x.1.m.flatMap (leBytes 4))
    let s4 := s3.slabWrite ag p.vRow p.rec4 q i C (x.1.v.flatMap (leBytes 4))
    (x.1.stop.getD 0, x.1.hi.length, (s4.countOps ag.ctx 7 x.1.hi.length).modChan ch fun ct => { ct with cobSkipped := satAdd 0xFFFFFFFF ct.cobSkipped x.1.skipped })

/-- The elements that slot `q` wrote in the update phase of a pass, in the order of R249, 12 bytes each (R287). -/
def State.slotElems (s : State) (ag : Agent) (p : CobP) (q C count : Nat) : List Byte :=
  ((List.range (p.recs C q)).flatMap fun i =>
    let hi := (s.slabRead ag p.hiRow p.rec2 q i (2 * p.k) C).2.1
    let lo := (s.slabRead ag p.loRow p.rec2 q i (2 * p.k) C).2.1
    let m := (s.slabRead ag p.mRow p.rec4 q i (4 * p.k) C).2.1
    let v := (s.slabRead ag p.vRow p.rec4 q i (4 * p.k) C).2.1
    (List.range p.k).flatMap fun k => slice hi (2 * k) 2 ++ slice lo (2 * k) 2 ++ slice m (4 * k) 4 ++ slice v (4 * k) 4).take (12 * count)

/-- The digest of one slot of logged pass `i` (R287). -/
def slotDigest (i q : Nat) (elems : List Byte) : Nat := dg (leBytes 4 i ++ leBytes 2 q ++ [0, 0] ++ elems)

/-- The ledger takes note of a slot's update (R287, R307): the shard is dirty, and the slot's elements enter the shard
step digest. The run's first aux word is the number of the logged pass plus one. -/
def State.ledgerSlot (s : State) (ag : Agent) (r : Run) (q C count : Nat) : State :=
  match (r.aux[0]?).getD 0 with
  | 0 => s
  | i + 1 => s.modLed ag.ctx fun l => { l with
      dirty := true, stepDg := l.stepDg ^^^ slotDigest i q (s.slotElems ag ⟨r.rec_⟩ q C count) }

/-- COBBLER_UPDATE: after preload the Cobbler of a channel applies the update to its slot's records (R252). (DESIGN CHOICE, unsafe: notes/assumptions/27.md.) -/
def execCobblerUpdate (ch : Nat) (s : State) : Host.Outcome State Fault Refusal :=
  match s.cobRunning ch 2 with
  | none => .next s
  | some (e, r, q) =>
    let p : CobP := ⟨r.rec_⟩
    let C := (s.chList e.ctx).length
    let ag : Agent := { ctx := e.ctx, loc := ch, unit := 5, instr := r.instr, gpart := e.g }
    let pag := agentOf e.ctx e.g e.n 4 r.instr
    let x := (List.range (p.recs C q)).foldl (fun (acc : Nat × Nat × State) i =>
      if acc.1 != 0 then acc
      else
        let y := acc.2.2.cobRecord ag p r q C i ch
        (y.1, acc.2.1 + y.2.1, y.2.2)) (0, 0, s)
    let s0 := x.2.2.ledgerSlot ag r q C x.2.1
    let s1 := (s0.slotWord pag p.progCm q 1 x.2.1).modChan ch fun ct => { ct with cobElements := min 0xFFFFFFFF x.2.1 }
    if x.1 != 0 then .next (s1.cobEnd e x.1 (x.1 == stArith || x.1 == stRsvdEncoding))
    else if p.op == 0 then .next (s1.slotDone e pag p ch q x.2.1)
    else .next (s1.modChan ch fun ct => { ct with cobPhase := 3, cobElements := 0 })

/-! ### Emission (R141, R142, R148, R152, R255, R256) -/

/-- The two blocks of a weight set that are sampled in step `step` (R148): the two lowest j. -/
def sampledBlocks (w : WSet) (step : Nat) : List Nat :=
  ((List.range (ceilDiv w.n 128)).filter fun j =>
    fld ((step % 2 ^ 32 * 0x9E3779B1 + w.slot * 0x85EBCA77 + j * 0xC2B2AE3D) % 2 ^ 32) 31 20 == 0).take 2

/-- s_row of R141: the largest magnitude, the invalid scale where it is not finite. -/
def rowScale (hi : List Nat) : Nat × Evs :=
  let vs := hi.map fun h => ffBF.decode h
  if vs.any fun v => !v.isFin then (scInvalid, evRsvd)
  else (vs.foldl (fun (m : Nat × Q) v => if m.2.lt v.q.abs then ((ffBF.encode false (.fin v.q.abs)).1, v.q.abs) else m) (0, ⟨false, 0, 1⟩) |>.1, {})

/-- The E4M3 fallback scale of a row (R152). -/
def fbScale (s : Nat) : Nat :=
  if scOk s then (scEncode false (((scDecode s).1.mul (.fin ⟨false, 1, 256⟩)).1)).1 else scInvalid

/-- One E4M3 element under a scale (R152). -/
def e4Elem (sat : Bool) (sc h : Nat) : Nat :=
  if !scOk sc then 0x7F
  else if sc == 0 then (if bitOf h 15 then 0x80 else 0)
  else (ffE4.encode sat ((ffBF.decode h).div (scDecode sc).1).1).1

/-- An emitted row in a format: scale, row bytes (padded to 64), the events of each element (R255). -/
def emitRow (f : Fmt) (sat : Bool) (book hi : List Nat) : Nat × List Byte × List Evs :=
  let sr := rowScale hi
  match f with
  | .bf16 => (0x3F80, padTo (row64 hi.length 16) (hi.flatMap (leBytes 2)), [])
  | .e4m3 =>
    let sc := fbScale sr.1
    (sc, padTo (row64 hi.length 8) (hi.flatMap fun h => leBytes 1 (e4Elem sat sc h)), [sr.2])
  | _ =>
    let sq : Option Q := if scOk sr.1 then some (scDecode sr.1).1.q else none
    let cs := hi.map fun h => codeEncode f book sq (ffBF.decode h)
    (sr.1, padTo (row64 hi.length f.bits) (f.packRow (cs.map (·.1))), sr.2 :: cs.map (·.2))

/-- Emit record `i` of a slot: status, elements, state. -/
def State.emitRecord (s : State) (ag : Agent) (p : CobP) (w : WSet) (f : Fmt) (side : Bool) (r : Run) (q C i : Nat) : Nat × State :=
  let hi := s.slabRead ag p.hiRow p.rec2 q i (2 * p.k) C
  if hi.1 != 0 then (hi.1, hi.2.2)
  else
    let hs := (List.range p.k).map fun k => leAt hi.2.1 (2 * k) 2
    let n := p.n0 + q + i * C
    let e := emitRow f p.sat (if f.narrow && f != .tern then p.bookOf w r.blob n else []) hs
    let ev := e.2.2.foldl (fun (acc : Option Nat × State) x => if acc.1.isSome then acc else acc.2.raise ag r.mask (q + i * C) 0 x) (none, hi.2.2)
    let sides := if side then padTo (row64 w.outliers 16) ((p.outliersOf w r.blob).flatMap fun k => leBytes 2 ((hs[k]?).getD 0)) else []
    let s1 := ev.2.slabWrite ag p.eRow (p.recE w) q i C (e.2.1 ++ sides)
    let s2 := (s1.writeRange ag 0 (cobAddr p.esRow 1 q (i / 128) (2 * (i % 128)) C) (leBytes 2 e.1)).2
    (ev.1.getD 0, s2)

/-- COBBLER_EMIT: after its update the Cobbler of a channel emits its slot's working copy: scales, rows, side
weights, and the sampled rows of the monitor (R255, R256). -/
def execCobblerEmit (ch : Nat) (s : State) : Host.Outcome State Fault Refusal :=
  match s.cobRunning ch 3 with
  | none => .next s
  | some (e, r, q) =>
    let p : CobP := ⟨r.rec_⟩
    let C := (s.chList e.ctx).length
    let ag : Agent := { ctx := e.ctx, loc := ch, unit := 5, instr := r.instr, gpart := e.g }
    let pag := agentOf e.ctx e.g e.n 4 r.instr
    let w := s.wset ag p.ws
    let fallen := p.narrow && w.trip != 0 && (s.drift e.ctx w.slot).fallen
    let f := if fallen then (Fmt.ofCode w.fbCode).getD .bf16 else (Fmt.ofCode p.emitC).getD .bf16
    let x := (List.range (p.recs C q)).foldl (fun (acc : Nat × Nat × State) i =>
      if acc.1 != 0 then acc
      else
        let y := acc.2.2.emitRecord ag p w f (p.narrow && !fallen) r q C i
        (y.1, acc.2.1 + (if y.1 == 0 then p.k else 0), y.2)) (0, 0, s)
    let mons := if p.narrow && w.trip != 0 && !fallen then
        (List.range (p.recs C q)).filter fun i => (sampledBlocks w (leAt r.blob 40 4)).contains ((p.n0 + q + i * C) / 128)
      else []
    let s1 := (mons.foldl (fun (acc : Nat × State) i =>
      let h := acc.2.slabRead ag p.hiRow p.rec2 q i (2 * p.k) C
      (acc.1 + 1, if h.1 == 0 then h.2.2.slabWrite ag p.monRow p.rec2 q acc.1 C h.2.1 else h.2.2)) (0, x.2.2)).2
    let s2 := ((s1.countOps e.ctx 7 x.2.1).slotWord pag p.progCm q 2 x.2.1).modChan ch fun ct => { ct with cobElements := min 0xFFFFFFFF x.2.1 }
    if x.1 != 0 then .next (s2.cobEnd e x.1 (x.1 == stArith || x.1 == stRsvdEncoding))
    else .next (s2.slotDone e pag p ch q x.2.1)

/-! ### Codebook calibration (R145 to R147) -/

/-- A histogram of 256 bins over rows of HI16 values with their scales (R146). -/
def calHist (rows : List (List Nat)) (outliers : List Nat) : List Nat :=
  rows.foldl (fun h row =>
    let sc := rowScale row
    let sv := (scDecode sc.1).1.q
    if sc.1 == scInvalid || sv.isZero then h
    else (List.range row.length).foldl (fun h k =>
      if outliers.contains k then h
      else
        let x := (ffBF.decode ((row[k]?).getD 0)).q
        let b := ((x.div sv).add (Q.ofNat 1)).mul (Q.ofNat 128) |>.floor
        bumpAt h (clampI 0 255 b).toNat 1) h) (List.replicate 256 0)

/-- nearest(c, v) of R146 for bin `b`: ties to the lower index. -/
def nearestEntry (b : Nat) (v : List Nat) : Nat :=
  let c : Q := ⟨decide (2 * b + 1 < 256), (2 * (b : Int) + 1 - 256).natAbs, 256⟩
  let d (i : Nat) : Q := (c.sub (ffBF.decode ((v[i]?).getD 0)).q).abs
  (List.range v.length).foldl (fun best i => if (d i).lt (d best) then i else best) 0

/-- One of the 8 iterations of R146, for entries 1 to n_e − 2: every bin is assigned against the entries `v` that the previous
iteration left. (DEDUCED, unsafe: notes/assumptions/79.md.) -/
def calIter (hist v : List Nat) : List Nat :=
  (List.range v.length).foldl (fun u i =>
    if i == 0 || i + 1 == v.length then u
    else
      let bins := (List.range 256).filter fun b => nearestEntry b v == i
      let s0 := bins.foldl (fun a b => a + (hist[b]?).getD 0) 0
      let s1 := bins.foldl (fun (a : Int) (b : Nat) => a + (((hist[b]?).getD 0 : Nat) : Int) * (2 * (b : Int) + 1 - 256)) (0 : Int)
      if s0 == 0 then u else u.set i (ffBF.encode false (.fin ⟨decide (s1 < 0), s1.natAbs, 256 * s0⟩)).1) v

/-- The ascending repair of R146. -/
def calRepair (v : List Nat) : List Nat :=
  (List.range v.length).foldl (fun u i =>
    if i == 0 || i + 1 == v.length then u
    else
      let a := ffBF.decode ((u[i - 1]?).getD 0)
      let b := ffBF.decode ((u[i]?).getD 0)
      if a.lt b then u else u.set i (nextBF ((u[i - 1]?).getD 0))) v

/-- calibrate of R146: `none` where the old codebook is kept. -/
def calibrate (hist old : List Nat) : Option (List Nat) :=
  let n := old.length
  let v0 := (old.set 0 0xBF80).set (n - 1) 0x3F80
  let v8 := forN 8 v0 fun _ v => calIter hist v
  let v := calRepair v8
  let top := ffBF.decode ((v[n - 2]?).getD 0)
  if top.lt oneV then some v else none

/-- CODEBOOK_CALIBRATE: on a calibration step the vector units build the histogram of codebook group `grp` of the
weight set that the Cobbler pass at code index `instr` serves, from its HI16 rows, and its new codebook replaces the
old one, or the old one is kept (R145 to R147). -/
def execCodebookCalibrate (c instr grp : Nat) (s : State) : Host.Outcome State Fault Refusal :=
  let im := s.image c
  let ag : Agent := { ctx := c, loc := 0, unit := 2, instr := instr }
  let fr := s.readRange ag 0 (im.place 1 + 64 * instr) 64
  let p : CobP := ⟨leNat fr.2.1⟩
  let w := s.wset ag p.ws
  let C := (s.chList c).length
  if im.calibEvery == 0 || (s.run c).step % im.calibEvery != 0 || fr.1 != 0 || recKind p.r != 4 || !p.narrow || w.fmt == .tern then .next fr.2.2
  else
    let rows := (List.range p.rows).filter fun j => (p.n0 + j) / w.group == grp
    let x := rows.foldl (fun (acc : Nat × List (List Nat) × State) j =>
      if acc.1 != 0 then acc
      else
        let h := acc.2.2.slabRead ag p.hiRow p.rec2 (j % C) (j / C) (2 * p.k) C
        (h.1, acc.2.1 ++ [(List.range p.k).map fun k => leAt h.2.1 (2 * k) 2], h.2.2)) (0, [], fr.2.2)
    let b := x.2.2.readRange ag 0 (w.book * 64 + 64 * grp) 64
    let ol := b.2.2.readRange ag 0 (w.side * 64) (4 * w.outliers)
    if x.1 != 0 || b.1 != 0 || ol.1 != 0 then .next ol.2.2
    else
      let outs := (List.range w.outliers).map fun i => leAt ol.2.1 (4 * i) 4
      let s1 := ol.2.2.modArith c fun a => { a with calibRuns := satAdd 0xFFFF a.calibRuns 1 }
      match calibrate (calHist x.2.1 outs) (codebookOf w.fmt b.2.1) with
      | some v => .next (s1.writeRange ag 0 (w.book * 64 + 64 * grp) (codebookBytes v)).2
      | none => .next ((s1.modArith c fun a => { a with calibKept := satAdd 0xFFFF a.calibKept 1 }).report 0 5 stCalibKept noPart c 0 instr)

/-! ### Drift samples (R148 to R151) -/

/-- u_ref of R150 for output (t, o): BF16 mode over every channel with the HI16 weights of the monitor buffer at
block slot `bs`, drain steps 3 and 4. (DEDUCED, unsafe: notes/assumptions/43.md.) -/
def State.refElem (s : State) (j : Job) (p t o bs : Nat) : Val :=
  let base := j.w.fallback * 64 + (bs * 128 + o % 128) * 2 * j.w.k
  let f := (List.range j.padEnd).foldl (fun (f : Fold) r =>
    if j.t.red ≤ r then f.addTo j.t.sat false (dec32 j.t.pad, {})
    else
      let x := s.actVal j p t r
      let w := ffBF.decode (leNat (s.peekRange j.ag 0 (base + 2 * r) 2))
      f.addTo j.t.sat false (mul32 j.t.sat x.1 w)) { acc := {}, seen := [] }
  let u := dec32 f.acc.acc
  let u3 := if j.a.hasScale then (mul32 j.t.sat u (s.scaleVal j j.a j.aRows p t).1).1 else u
  (s.chainAll j p t o f u3).2

/-- The narrow result u after drain step 3 (R150). -/
def State.narrowElem (s : State) (j : Job) (p t o : Nat) : Val :=
  (s.drainScales j p t o (s.foldRange j p t o 0 j.padEnd { acc := {}, seen := [] })).2

/-- DRIFT_SAMPLE: monitor work recomputes the tile of sampled block `blk` of a running forward narrow instruction in
BF16 and counts the sample and an exceedance (R150, R151). -/
def execDriftSample (g n idx blk : Nat) (s : State) : Host.Outcome State Fault Refusal :=
  match s.residentOf g, (s.clu (18 * g + n)).runs.find? fun r => r.idx == idx && recKind r.rec_ == 1 && !r.stopped with
  | some c, some r =>
    let j := s.job c g n r
    let blocks := sampledBlocks j.w (s.run c).step
    if j.side != .codes || j.t.transposed || j.w.trip == 0 || !blocks.contains blk then .next s
    else
      let bs := (blocks.takeWhile (· != blk)).length
      let os := ((List.range 128).map (128 * blk + ·)).filter (· < j.t.n)
      let sat := j.t.sat
      let x := (List.range j.t.p).foldl (fun (acc : Val × Val) p => (List.range j.t.m).foldl (fun (acc : Val × Val) t => os.foldl (fun (acc : Val × Val) o =>
        let u := s.narrowElem j p t o
        let ur := s.refElem j p t o bs
        let d := (fl32 sat (u.add ur.flip).1).1.abs
        ((add32 sat acc.1 d).1, (add32 sat acc.2 ur.abs).1)) acc) acc) (negZero, negZero)
      let lim := (mul32 sat (scDecode j.w.limit).1 x.2).1
      let exceed := x.1.isNan || x.2.isNan || lim.lt x.1 || (x.2.isZero && posZero.lt x.1)
      let ratio := if x.1.isZero && x.2.isZero then 0 else (ffBF.encode sat (x.1.div x.2).1).1
      let s1 := (s.countOps c 0 (j.t.p * j.t.m * os.length * j.t.k)).modDrift c j.w.slot fun d =>
        let e := if exceed then satAdd 255 d.exceed 1 else d.exceed
        { d with samples := satAdd 255 d.samples 1, exceed := e, lastRatio := ratio, tripped := d.tripped || decide (j.w.trip ≤ e) }
      .next (s1.modArith c fun a => { a with samplesTotal := satAdd 0xFFFF a.samplesTotal 1 })
  | _, _ => .next s

end Sys2Proof.Machine
end

