-- ==== Sys2Proof/Machine/Phase.lean ====
section
/-! DEFINITION. Collective phases as records: fields, members, addresses, the canonical tree and its holders
(spec/12_gradient_exchange_and_collectives.md R262 to R271). -/

namespace Sys2Proof.Machine

/-! ### The record (R264) -/

/-- A collective phase. -/
structure PhaseR where
  r : Nat
  deriving DecidableEq, Repr

def PhaseR.sat (p : PhaseR) : Bool := bitOf p.r 8
def PhaseR.op (p : PhaseR) : Nat := fld p.r 10 9
def PhaseR.combine (p : PhaseR) : Bool := bitOf p.r 11
def PhaseR.slab (p : PhaseR) : Nat := fld p.r 13 12
def PhaseR.fmtC (p : PhaseR) : Nat := fld p.r 17 14
def PhaseR.cls (p : PhaseR) : Nat := fld p.r 19 18
def PhaseR.group (p : PhaseR) : Nat := fld p.r 31 20
def PhaseR.dist (p : PhaseR) : Nat := fld p.r 45 32
def PhaseR.rstride (p : PhaseR) : Nat := fld p.r 69 46
def PhaseR.estride (p : PhaseR) : Nat := fld p.r 93 70
def PhaseR.len (p : PhaseR) : Nat := fld p.r 125 94
def PhaseR.src (p : PhaseR) : Nat := fld p.r 157 126
def PhaseR.dst (p : PhaseR) : Nat := fld p.r 189 158
def PhaseR.srcExp (p : PhaseR) : Nat := fld p.r 221 190
def PhaseR.dstExp (p : PhaseR) : Nat := fld p.r 253 222
def PhaseR.wrk (p : PhaseR) : Nat := fld p.r 285 254
def PhaseR.wrkExp (p : PhaseR) : Nat := fld p.r 317 286
def PhaseR.perm (p : PhaseR) : Nat := fld p.r 349 318
def PhaseR.bpr (p : PhaseR) : Nat := fld p.r 367 350
def PhaseR.rec_ (p : PhaseR) : Nat := fld p.r 380 368
def PhaseR.progCm (p : PhaseR) : Nat := fld p.r 395 381
/-- The data are GX16 blocks; the exponent fields are used. -/
def PhaseR.gx (p : PhaseR) : Bool := p.fmtC == 8
/-- Bytes of one unit's data: a GX16 block's mantissas, or 64 bytes. -/
def PhaseR.unit (p : PhaseR) : Nat := if p.gx then 128 else 64
/-- Bytes of one unit with its exponent (R277). -/
def PhaseR.unitAll (p : PhaseR) : Nat := if p.gx then 129 else 64
/-- Units combine on arrival (R267, R270). -/
def PhaseR.combines (p : PhaseR) : Bool := p.combine || p.op == 2

/-! ### Members (R263) -/

/-- The rank of member `i` of a group. -/
def memberRank (g : Nat × Nat × Nat) (total i : Nat) : Nat := (g.1 + i * g.2.1) % total

/-- The hosted members of a group, ascending: member `i` is hosted when its rank lies in the context's ranks. -/
def hosted (g : Nat × Nat × Nat) (total base count : Nat) : List Nat :=
  (List.range g.2.2).filter fun i =>
    let r := memberRank g total i
    decide (base ≤ r) && decide (r < base + count)

/-- The ordinal of a hosted member. -/
def ordinalOf (hs : List Nat) (i : Nat) : Nat := (hs.takeWhile (· != i)).length

/-! ### The canonical tree (R269, R270) -/

/-- The height of T(n): the least h with n ≤ 2^h. -/
def treeHeight (n : Nat) : Nat := ((List.range 32).find? fun h => decide (n ≤ 2 ^ h)).getD 32

/-- Node (s, j) of T(n) is present. -/
def nodeHere (n s j : Nat) : Bool := decide (j * 2 ^ s < n)

/-- The member that holds node (s, j) of the blocks of shard `q` (R270). -/
def holder (n q : Nat) : Nat → Nat → Nat
  | 0, j => j
  | s + 1, j =>
    let h := j * 2 ^ (s + 1) + q % 2 ^ (s + 1)
    if h < n then h else holder n q s (2 * j)

/-- Blocks of shard `q` of a vector of `v` blocks: first and count (R270). -/
def shardOf (v n q : Nat) : Nat × Nat := (q * v / n, (q + 1) * v / n - q * v / n)

/-- The transfers of stage `s` (into node s + 1): sender, receiver, shard (R270). -/
def stageMoves (n s : Nat) : List (Nat × Nat × Nat) :=
  (List.range n).flatMap fun q => (List.range (2 ^ (treeHeight n - s - 1))).filterMap fun j =>
    if nodeHere n s (2 * j + 1) then
      let d := holder n q (s + 1) j
      let a := holder n q s (2 * j)
      let b := holder n q s (2 * j + 1)
      some (if d == a then b else a, d, q)
    else none

/-! ### Addresses (R265) -/

/-- Rows of a member's part in slab mode. -/
def PhaseR.slabRows (p : PhaseR) (n : Nat) (dstSide : Bool) : Nat :=
  if p.bpr == 0 then 0 else (if p.op == 2 && dstSide then p.len / n else p.len) / p.bpr

/-- The data address of unit `u` of the member of ordinal `o`, for a base field; in a slab, row u / bpr. -/
def PhaseR.dataAddr (p : PhaseR) (C n : Nat) (inSlab dstSide : Bool) (base o u : Nat) : Nat :=
  if inSlab then
    let row := o * p.slabRows n dstSide + u / p.bpr
    cobAddr base p.rec_ (row % C) (row / C) (p.unit * (u % p.bpr)) C
  else base * 64 + o * p.rstride * 64 + p.unit * u

/-- The exponent address of unit `u`. -/
def PhaseR.expAddr (p : PhaseR) (C n : Nat) (inSlab dstSide : Bool) (base o u : Nat) : Nat :=
  if inSlab then
    let row := o * p.slabRows n dstSide + u / p.bpr
    cobAddr base (ceilDiv p.bpr 256) (row % C) (row / C) (u % p.bpr) C
  else base * 64 + o * p.estride * 64 + u

end Sys2Proof.Machine
end

