-- ==== Sys2Proof/Machine/Leash.lean ====
section
/-! DEFINITION. The Step Ledger up to confirmation: retained data, locks, digests, sends to the partner, votes, the
job decision and the mirror's catch-up (spec/13_step_ledger_and_replay.md R281 to R291, R301; the snapshot of
spec/14_checkpoint.md R312, R313). -/

namespace Sys2Proof.Machine

/-! ### Areas and members -/

/-- The agent of the ledger's own accesses. -/
def ledAgent (c : Nat) : Agent := { ctx := c, loc := 0, unit := 4, instr := 0 }

/-- Bytes of a step record (R283). -/
def State.recBytes (s : State) (c : Nat) : Nat := 32768 + (s.led c).sideRows * s.rowBytes c

/-- The own slot of the record of step `j`, and the ward slot (R282, R307). -/
def State.ownSlot (s : State) (c j : Nat) : Nat :=
  let l := s.led c
  l.recBase * 64 + j % (l.k + 1) * s.recBytes c
def State.wardSlot (s : State) (c j : Nat) : Nat :=
  let l := s.led c
  l.recBase * 64 + (l.k + 1 + j % (l.k + 1)) * s.recBytes c

/-- Pack group `i` of a context's image. -/
def State.grp (s : State) (c i : Nat) : Nat × Nat × Nat := ((s.image c).groups[i]?).getD (0, 1, 0)

/-- The members of group `i` that the context hosts. -/
def State.hostedIn (s : State) (c i : Nat) : List Nat :=
  let im := s.image c
  hosted (s.grp c i) im.ranksTotal im.rankBase im.ranksHosted

/-- The context's member index in group `i`; 0xFFFF where it has none (R285). -/
def State.memberOf (s : State) (c i : Nat) : Nat := ((s.hostedIn c i).head?).getD 0xFFFF

/-- The job slot and the job id of the context's Collar. -/
def State.slotOf (s : State) (c : Nat) : Nat := (s.jobOf c).getD 0
def State.jobIdOf (s : State) (c : Nat) : Nat := match s.jobOf c with | some x => (s.job_ x).jobId | none => 0

/-- Read a range for the ledger, recording what fails. -/
def State.ledRead (s : State) (c addr n : Nat) : Nat × List Byte × State := s.readRange (ledAgent c) 0 addr n

/-- Write a range for the ledger. -/
def State.ledWrite (s : State) (c addr : Nat) (bs : List Byte) : State := (s.writeRange (ledAgent c) 0 addr bs).2

/-- A ledger context halts (R302): its reason, one more halt, its report. The status of the event is open
(DESIGN CHOICE, safe: notes/assumptions/22.md). -/
def State.halt (s : State) (c reason : Nat) : State :=
  (s.modLed c fun l => { l with state := 7, haltReason := reason, halts := satAdd 0xFFFF l.halts 1 }).report 1 7
    (openStatus 4) noPart c

/-! ### Writes of memory (R192, R286, R314) -/

/-- GRANULE_WRITE: a write of a whole or part granule updates the cells and the granule state (R192). It waits for a
lock of the ledger (R286), and for a pool granule where a checkpoint holds the granule and its pool is full (R314). -/
def execGranuleWrite (c g n unit space addr : Nat) (bytes : List Byte) (s : State) : Host.Outcome State Fault Refusal :=
  let gks := if space == 0 then (granPieces 0 addr bytes.length).filterMap fun p => (s.bulkLoc c p.1).map granOf else []
  if space == 0 && s.locked c addr bytes.length then .next s
  else match gks.find? s.cowFull with
    | some gk => .next (s.urge gk)
    | none => .next (s.granuleWrite c g n unit space addr bytes)

/-! ### The release of a step (R285 to R287, R152) -/

/-- The seed block of step `j` (R285). -/
def State.seedBlock (s : State) (c j : Nat) : List Byte :=
  leBytes 8 j ++ leBytes 8 (not64 j) ++ leBytes 4 (s.led c).jobSeed ++ leBytes 4 (s.jobIdOf c) ++
  leBytes 2 (if (s.led c).herd == 0xFFF then 0xFFFF else s.memberOf c (s.led c).herd) ++ zeros 38

/-- The ranges of the digest list: address and bytes (R287). -/
def State.digestList (s : State) (c : Nat) : List (Nat × Nat) :=
  let l := s.led c
  let bs := s.peekRange (ledAgent c) 0 (l.dlist * 64) (16 * l.dcount)
  (List.range l.dcount).map fun i => (leAt bs (16 * i) 8, leAt bs (16 * i + 8) 4 * 256)

/-- The weight digest takes in every range of the list as it stands (R287). -/
def State.digestRanges (s : State) (c : Nat) (d : Dg) : Dg × State :=
  (s.digestList c).foldl (fun (acc : Dg × State) e =>
    let r := acc.2.ledRead c e.1 e.2
    (acc.1.bytes r.2.1, r.2.2)) (d, s)

/-- A tripped slot falls back to its fallback format (R152), and is reported once. -/
def State.fallBack (s : State) (c slot : Nat) : State :=
  let d := s.drift c slot
  let s1 := s.modDrift c slot fun d => { d with
    told := true, fallen := d.fallen || d.fallbackFmt != d.fmtNow, fmtNow := d.fallbackFmt }
  if d.told then s1 else s1.report 0 5 stDriftFallback noPart c

/-- SEED_BLOCK_WRITE and what else the ledger does before the first segment of the context's step is released (R152,
R285, R286, R287). -/
def State.ledgerRelease (s : State) (c : Nat) : State :=
  let l := s.led c
  if l.state == 0 then s
  else
    let j := (s.run c).step
    let first := (j - 1 - l.c0) % l.k == 0
    let s1 := (s.ledWrite c (l.seedAddr * 64) (s.seedBlock c j)).modLed c fun l => { l with
      passes := [], stepDg := 0, fallNext := [], passBad := !first && l.passBad, bad := !first && l.bad }
    let s2 := l.fallNext.foldl (fun t i => t.fallBack c i) s1
    let r := s2.digestRanges c (if first then {} else l.weights)
    r.2.modLed c fun l => { l with weights := r.1 }

/-! ### The pass log (R283, R284) -/

/-- A slab of `rec_`-granule records lies within context rows. -/
def CobP.slabIn (p : CobP) (C row rec_ lo n : Nat) : Bool :=
  decide (lo ≤ row) && decide (row + ceilDiv p.rows C * rec_ ≤ lo + n)

/-- A pass obeys the placement rules of R284. -/
def State.placed (s : State) (c : Nat) (ag : Agent) (p : CobP) : Bool :=
  let l := s.led c
  let C := (s.chList c).length
  let rb := s.rowBytes c
  let w := s.wset ag p.ws
  let b := p.books w
  let side := (l.ownRow + l.ownRows) * rb
  p.slabIn C p.hiRow p.rec2 l.ownRow l.ownRows && p.slabIn C p.loRow p.rec2 l.ownRow l.ownRows &&
  p.slabIn C p.mRow p.rec4 l.ownRow l.ownRows && p.slabIn C p.vRow p.rec4 l.ownRow l.ownRows &&
  p.slabIn C p.gRow p.recG l.gRow l.gRows && p.slabIn C p.geRow p.recGe l.gRow l.gRows &&
  (b.2 == 0 || (decide (side ≤ w.book * 64 + 64 * b.1) &&
    decide (w.book * 64 + 64 * (b.1 + b.2) ≤ side + l.sideRows * rb)))

/-- A pass with op 0 or 1 that has issued is logged (R283); a step that breaks R284 cannot be confirmed. -/
def State.logPass (s : State) (c g n idx : Nat) : State :=
  let l := s.led c
  match (s.clu (18 * g + n)).runs.find? fun r => r.idx == idx with
  | none => s
  | some r =>
    let p : CobP := ⟨r.rec_⟩
    if l.state == 0 || (s.run c).tail || r.finished || 1 < p.op then s
    else
      let ok := s.placed c (agentOf c g n 4 r.instr) p
      if l.passes.length < 254 then
        (s.modLed c fun l => { l with passes := l.passes ++ [(r.rec_, r.blob.take 64)], passBad := l.passBad || !ok }).modClu
          (18 * g + n) fun cl => cl.modRun idx fun r => { r with aux := [l.passes.length + 1] }
      else s.modLed c fun l => { l with passBad := true }

/-! ### Packets of the ledger (R290, R329) -/

/-- The lowest rank of a job that a device hosts. -/
def State.rankOn (s : State) (slot dev : Nat) : Nat := ((List.range 16384).find? fun r => s.devOfRank slot r == dev).getD 0

/-- Send a packet of the context's job to a rank on a device, under the Collar of the current epoch. -/
def State.jobPacket (s : State) (c dev rank : Nat) (k : Packet) : State :=
  let slot := s.slotOf c
  s.emit { k with
    srcRank := (s.image c).rankBase, rank := rank, epoch := (s.job_ slot).epoch.nat, job := (s.job_ slot).jobId,
    srcDev := s.fab.num, dstDev := dev }

/-- A tree message (type 0x12) to member `m` of group `i`. (DEDUCED, unsafe: notes/assumptions/59.md.) -/
def State.treeMsg (s : State) (c i m : Nat) (data : List Byte) : State :=
  let im := s.image c
  let rank := memberRank (s.grp c i) im.ranksTotal m
  s.jobPacket c (s.devOfRank (s.slotOf c) rank) rank { typ := 0x12, group := i, data := padTo (ceilDiv data.length 64 * 64) data }

/-- Stream bytes to a device in packets of up to 32 cells, and their transfer digest last (R287, R329). `kind` is the
kind of LEDGER_XFER. -/
def State.streamTo (s : State) (c dev kind step : Nat) (bs : List Byte) : State :=
  let rank := s.rankOn (s.slotOf c) dev
  let n := ceilDiv bs.length 2048
  let k : Packet := { typ := 0x11, group := 0xFFF, phase := step % 65536, stage := kind }
  let s1 := (List.range n).foldl (fun t i => t.jobPacket c dev rank { k with index := 32 * i, data := slice bs (2048 * i) 2048 }) s
  s1.jobPacket c dev rank { k with index := bs.length / 64, data := padTo 64 (leBytes 16 (dg bs)) }

/-- Accept packets for `n` packets of a ledger transfer, one for each run of up to 64 (R329). -/
def State.acceptTo (s : State) (c dev step n : Nat) : State :=
  let rank := s.rankOn (s.slotOf c) dev
  (List.range (ceilDiv n 64)).foldl (fun t i =>
    t.jobPacket c dev rank { typ := 0x13, aux := min 64 (n - 64 * i), group := 0xFFF, phase := step % 65536 }) s

/-- Set LEDGER_XFER (R307). -/
def State.setXfer (s : State) (c kind units : Nat) : State :=
  s.modLed c fun l => { l with xfer := pairOf 32 (at' kind 30 + units % 2 ^ 30) }

/-! ### Sends to the partner (R282) -/

/-- The bytes of a ledger send: 0 the step record, 1 the gradient shard. -/
def State.sendBytes (s : State) (c j kind : Nat) : List Byte :=
  let l := s.led c
  if kind == 0 then s.peekRange (ledAgent c) 0 (s.ownSlot c j) (s.recBytes c)
  else s.peekRange (ledAgent c) 0 (l.gRow * s.rowBytes c) (l.gRows * s.rowBytes c)

/-- Start the oldest send; one of no bytes needs no acceptance. -/
def State.startSend (s : State) (c : Nat) : State :=
  (List.range ((s.led c).sends.length + 1)).foldl (fun (acc : Bool × State) _ =>
    if acc.1 then acc
    else match (acc.2.led c).sends with
      | [] => (true, acc.2)
      | (j, k) :: rest =>
        let bs := acc.2.sendBytes c j k
        if bs.isEmpty then (false, acc.2.modLed c fun l => { l with sends := rest })
        else (true, (acc.2.streamTo c (acc.2.led c).partnerDev 1 j bs).setXfer c 1 0)) (false, s) |>.2

/-! ### The herd verdict (R288, R289, R301) -/

/-- The 128 bytes of a vote record (R288). -/
def voteBytes (v : Vote) : List Byte :=
  leBytes 8 v.step ++ leBytes 8 v.stepN ++ leBytes 32 v.cfg ++ leBytes 16 v.weights ++ leBytes 32 v.tripped ++ leBytes 4 v.job ++
  leBytes 2 v.member ++ leBytes 1 v.status ++ zeros 25

/-- Members of the herd group. -/
def State.herdSize (s : State) (c : Nat) : Nat := (s.grp c (s.led c).herd).2.2

/-- A record that makes the verdict no under rule 1 of R289. -/
def State.voteBad (s : State) (c : Nat) (v : Vote) : Bool :=
  v.stepN != not64 v.step || v.step != (s.led c).voteStep || v.job != s.jobIdOf c || v.cfg != (s.load c).ctxDigest || v.status != stOk

/-- The members whose record is missing or bad. -/
def State.badMembers (s : State) (c : Nat) : List Nat :=
  let vs := (s.led c).votes
  (List.range (s.herdSize c)).filter fun m => match vs.find? fun v => v.member == m with
    | some v => s.voteBad c v
    | none => true

/-- The members that a disagreement of weight digests makes suspect (R289 rule 3). -/
def suspectsOf (vs : List Vote) : List Nat :=
  match vs.find? fun v => decide (3 ≤ vs.length) && decide (vs.length < 2 * (vs.filter fun x => x.weights == v.weights).length) with
  | some v => (vs.filter fun x => x.weights != v.weights).map (·.member)
  | none => vs.map (·.member)

/-- The weight digest of this context's own record. -/
def State.ownWeights (s : State) (c : Nat) : Nat :=
  match (s.led c).votes.find? fun v => v.member == s.memberOf c (s.led c).herd with
  | some v => v.weights
  | none => (s.led c).weights.value

/-- A verdict of no (R289): reported with how many are suspect; a second one in a row without a strict minority halts
the member (R301). -/
def State.verdictNo (s : State) (c status : Nat) (suspects : List Nat) : State :=
  let again := (s.led c).preW.isSome
  let w := s.ownWeights c
  let n := s.herdSize c
  let s1 := (s.modLed c fun l => { l with
    verdict := some false, lastVerdict := status, lastStatus := status, disagree := min 0xFFFF suspects.length,
    preW := some (l.preW.getD w) }).report 1 7 status noPart c
  if again && n ≤ 2 * suspects.length then s1.halt c 4 else s1

/-- A verdict of yes: a member whose digest before the fault differs from the agreed one has one more strike (R301). -/
def State.verdictYes (s : State) (c : Nat) : State :=
  let w := s.ownWeights c
  s.modLed c fun l => { l with
    verdict := some true, lastVerdict := stOk, preW := none,
    strikes := match l.preW with | some x => if x == w then l.strikes else satAdd 255 l.strikes 1 | none => l.strikes }

/-- Form the herd verdict from the records there are (R289). (DEDUCED, unsafe: notes/assumptions/58.md.) -/
def State.formVerdict (s : State) (c : Nat) : State :=
  if (s.led c).herd == 0xFFF then s.verdictYes c
  else
    let bad := s.badMembers c
    let vs := (s.led c).votes
    if !bad.isEmpty then s.verdictNo c stNotConfirmed bad
    else if vs.all fun v => some v.weights == (vs.head?).map (·.weights) then s.verdictYes c
    else s.verdictNo c stDigestMismatch (suspectsOf vs)

/-! ### Checkpoints at a confirmation point (R312, R313) -/

/-- A context whose checkpoint is due holds its snapshot at the barrier (R313); while a drain runs it is deferred
(R320). -/
def State.ckptHold (s : State) (c : Nat) : State :=
  let k := s.ckpt c
  if (s.led c).ownRows == 0 then s
  else
    let due := k.due || (k.everyConf != 0 && decide (k.everyConf ≤ k.points + 1))
    if !due then s
    else if k.state == 0 then s.modCkpt c fun k => { k with due := true, state := 1, holding := true, saved := [], done := [] }
    else s.modCkpt c fun k => { k with due := true, skipped := satAdd 255 k.skipped 1 }

/-- What the job decision does to a held snapshot (R312, R313, R316). -/
def State.ckptDecide (s : State) (c : Nat) (yes due : Bool) : State :=
  let k := s.ckpt c
  let go := yes && due && k.state < 2 && (s.led c).ownRows != 0
  let s1 := if go then s.modCkpt c fun k => { k with
        state := 2, due := false, holding := true, step := (s.led c).voteStep, began := s.clk, started := false,
        startAt := s.clk + s.fab.num % max 1 k.staggerSlots * k.staggerMs * 1100000, out := [], done := [], sent := [], tree := [],
        urgent := [], progress := pairOf 32 (at' 1 30), bucket := 1048576 * 1100, bucketAt := s.clk, portStatus := 0 }
    else if k.state == 1 then s.modCkpt c fun k => { k with
        state := 0, holding := false, saved := [], lastStatus := if yes then k.lastStatus else stNotConfirmed }
    else s
  if yes then s1.modCkpt c fun k => { k with points := k.points + 1 } else s1

/-! ### Confirmation (R290, R291) -/

/-- The tripped slots of a context as the 256-bit vector of R151. -/
def State.trippedMask (s : State) (c : Nat) : Nat :=
  (List.range 256).foldl (fun a i => if (s.drift c i).tripped then a + 2 ^ i else a) 0

/-- A monitor slot's counts start again with the interval (R151). -/
def State.clearSamples (s : State) (c : Nat) : State :=
  (List.range 256).foldl (fun t i => match Tab.find t.drifts (c * 256 + i) with
    | some _ => t.modDrift c i fun d => { d with samples := 0, exceed := 0, tripped := false }
    | none => t) s

/-- A field of a number replaced. -/
def setFld (x hi lo v : Nat) : Nat := x - at' (fld x hi lo) lo + at' (v % 2 ^ (hi + 1 - lo)) lo

/-- A logged pass as the partner runs it on the mirror: op 0, its slab rows translated (R291). -/
def mirrorPass (r ownRow mirRow gRow ringRow : Nat) : Nat :=
  let p : CobP := ⟨r⟩
  let own (x : Nat) : Nat := x + mirRow - ownRow
  let ring (x : Nat) : Nat := x + ringRow - gRow
  let r1 := setFld (setFld (setFld r 10 9 0) 116 98 (own p.hiRow)) 135 117 (own p.loRow)
  let r2 := setFld (setFld r1 154 136 (own p.mRow)) 173 155 (own p.vRow)
  setFld (setFld r2 192 174 (ring p.gRow)) 211 193 (ring p.geRow)

/-- Run a logged pass on the mirror: the status and the XOR of its slots' digests (R287, R291). -/
def State.runMirrorPass (s : State) (c i rec_ : Nat) (hyper : List Byte) : Nat × Nat × State :=
  let p : CobP := ⟨rec_⟩
  let chs := s.chList c
  let C := chs.length
  let run : Run := { idx := 0, unit := 4, rec_ := rec_, instr := 0, rep := 0, blob := hyper }
  (List.range C).foldl (fun (acc : Nat × Nat × State) q =>
    let ch := (chs[q]?).getD 0
    let ag : Agent := { ctx := c, loc := ch, unit := 5, instr := 0 }
    let x := (List.range (p.recs C q)).foldl (fun (a : Nat × Nat × State) r =>
      if a.1 != 0 then a
      else
        let y := a.2.2.cobRecord ag p run q C r ch
        (y.1, a.2.1 + y.2.1, y.2.2)) (acc.1, 0, acc.2.2)
    (x.1, acc.2.1 ^^^ slotDigest i q (x.2.2.slotElems ag p q C x.2.1), x.2.2)) (0, 0, s)

/-- Bring the mirror of the ward through step `j` (R291): whether its shard step digest matches. -/
def State.catchStep (s : State) (c j : Nat) : Bool × State :=
  let l := s.led c
  let rb := s.rowBytes c
  let r := s.ledRead c (s.wardSlot c j) (s.recBytes c)
  if r.1 != 0 then (false, r.2.2)
  else
    let b := r.2.1
    if leAt b 0 8 != j || leAt b 8 8 != not64 j then (false, r.2.2)
    else
      let s1 := r.2.2.ledWrite c ((l.mirRow + (l.wardRows - l.sideRows)) * rb) (b.drop 32768)
      let x := (List.range (leAt b 112 2)).foldl (fun (acc : Nat × Nat × State) p =>
        if acc.1 != 0 then acc
        else
          let m := mirrorPass (leAt b (256 + 128 * p) 64) (leAt b 116 4) l.mirRow (leAt b 120 4) (l.retRow + j % l.k * l.gRows)
          let y := acc.2.2.runMirrorPass c p m (slice b (256 + 128 * p + 64) 64)
          (y.1, acc.2.1 ^^^ y.2.1, y.2.2)) (0, 0, s1)
      (x.1 == 0 && x.2.1 == leAt b 16 16, x.2.2)

/-- MIRROR_CATCHUP (R291): the partner brings its ward's mirror to `to` and tells the ward; a mismatch halts it
(R302, R304). -/
def State.catchUp (s : State) (c upTo : Nat) : State :=
  let l := s.led c
  if l.wardDev == 0xFFF || !l.wardValid then s
  else
    let x := (List.range (upTo - l.wardStep)).foldl (fun (acc : Bool × State) i =>
      if acc.1 then
        let y := acc.2.catchStep c (l.wardStep + 1 + i)
        (y.1, if y.1 then y.2.modLed c fun l => { l with wardStep := l.wardStep + 1 } else y.2)
      else acc) (true, s)
    if !x.1 then (x.2.modLed c fun l => { l with wardValid := false }).halt c 2
    else
      let s1 := x.2.modLed c fun l => { l with
        wardGrads := l.wardGrads.filter (upTo < ·), wardRecs := l.wardRecs.filter (upTo ≤ ·) }
      let s2 := if l.sends.isEmpty then s1.setXfer c 3 (l.wardRows * s.rowBytes c / 64) else s1
      s2.jobPacket c l.wardDev (s2.rankOn (s2.slotOf c) l.wardDev) {
        typ := 0x12, group := 0xFFF, data := padTo 64 (leBytes 8 upTo ++ leBytes 8 (not64 upTo) ++ leBytes 1 2) }

/-- A context takes `to` as its confirmed step: items of R282 that are due are released, and the mirror of its ward
follows (R290, R291). -/
def State.confirmStep (s : State) (c upTo : Nat) : State :=
  let s1 := s.modLed c fun l => { l with
    confirmed := pairOf 64 upTo, confirmations := wrapAdd 32 l.confirmations 1, mirrorValid := false,
    held := l.held.filter (upTo < ·), inLocks := l.inLocks.filter (upTo < ·) }
  s1.catchUp c upTo

/-- The drift slots that any member of the herd had tripped (R151). -/
def Led.trippedSlots (l : Led) : List Nat := bitsOf 256 (l.votes.foldl (fun a v => a ||| v.tripped) 0)

/-- The job decision reaches the context (R290): yes confirms the step and moves to committing; no waits for a
rollback. -/
def State.decide_ (s : State) (c : Nat) (yes due : Bool) : State :=
  let l := s.led c
  let s0 := (s.modLed c fun l => { l with decision := some yes }).ckptDecide c yes due
  if !yes then s0.modLed c fun l => { l with lastStatus := if l.lastStatus == stOk then stNotConfirmed else l.lastStatus }
  else
    let s1 := s0.modLed c fun x => { x with
      state := 3, lastStatus := stOk, fallNext := l.trippedSlots.filter fun i => (s.drift c i).trip != 0 && !(s.drift c i).told }
    let s2 := s1.confirmStep c l.voteStep
    if l.partnerDev == 0xFFF && (s2.led c).state == 3 then
      s2.modLed c fun x => { x with state := if l.voteStep < x.replayTo then 6 else 1 }
    else s2

/-! ### The decision tree (R269, R290) -/

/-- The members below member `i` of T(n) whose messages it combines, in ascending stage. -/
def treeBelow (n i : Nat) : List Nat :=
  ((List.range 14).takeWhile fun k => i % 2 ^ (k + 1) == 0).filterMap fun k => if i + 2 ^ k < n then some (i + 2 ^ k) else none

/-- The member above member `i`, which is not 0. -/
def treeAbove (i : Nat) : Nat :=
  match (List.range 14).find? fun k => i % 2 ^ (k + 1) != 0 with
  | some k => i - 2 ^ k
  | none => 0

/-- The bytes of a decision message: step, its complement, 0 up or 1 down, yes, due. -/
def decisionBytes (step down : Nat) (yes due : Bool) : List Byte :=
  leBytes 8 step ++ leBytes 8 (not64 step) ++ leBytes 1 down ++ leBytes 1 (b2n yes) ++ leBytes 1 (b2n due)

/-- Send the decision to the members below. -/
def State.decisionDown (s : State) (c step : Nat) (yes due : Bool) : State :=
  let g := (s.led c).jobGroup
  (treeBelow (s.grp c g).2.2 (s.memberOf c g)).foldl (fun t m => t.treeMsg c g m (decisionBytes step 1 yes due)) s

/-- Once this context's bit and those of the members below are there, their AND goes up, or member 0 has the decision
and sends it down (R290). -/
def State.treeUp (s : State) (c : Nat) : State :=
  let l := s.led c
  let g := l.jobGroup
  let i := s.memberOf c g
  let below := treeBelow (s.grp c g).2.2 i
  let got := below.filterMap fun m => l.ups.find? fun u => u.1 == l.voteStep && u.2.1 == m
  match l.own with
  | none => s
  | some y =>
    if got.length < below.length || l.decision.isSome then s
    else
      let yes := y && got.all fun u => u.2.2.1
      let due := ((s.ckpt c).due && (s.ckpt c).state == 1) || got.any fun u => u.2.2.2
      if i == 0 then (s.decide_ c yes due).decisionDown c l.voteStep yes due
      else s.treeMsg c g (treeAbove i) (decisionBytes l.voteStep 0 yes due)

/-- The context's bit enters the job tree when it is known (R290). -/
def State.tryOwn (s : State) (c : Nat) : State :=
  let l := s.led c
  match l.verdict with
  | none => s
  | some v =>
    if l.state != 2 || l.own.isSome then s
    else
      let yes := v && s.dog.leaseState != 2
      if yes && l.sends.any fun e => decide (e.1 ≤ l.voteStep) then s
      else (s.modLed c fun l => { l with own := some yes }).treeUp c

/-- Form the verdict once every member's record is there. -/
def State.tryVerdict (s : State) (c : Nat) : State :=
  let l := s.led c
  if l.state != 2 || l.verdict.isSome then s
  else if l.herd == 0xFFF || (List.range (s.herdSize c)).all (fun m => l.votes.any fun v => v.member == m) then
    (s.formVerdict c).tryOwn c
  else s

/-- An accept for `n` packets of a ledger send (R282, R329): LEDGER_XFER advances; a send that is accepted whole makes
way for the next. -/
def State.ledgerAccept (s : State) (c phase n : Nat) : State :=
  let l := s.led c
  match l.sends with
  | [] => s
  | (j, k) :: rest =>
    if j % 65536 != phase then s
    else
      let total := (s.sendBytes c j k).length / 64
      let got := min total (l.xfer.nat % 2 ^ 30 + 32 * n)
      let s1 := s.setXfer c 1 got
      if got < total then s1
      else ((s1.modLed c fun l => { l with sends := rest, lastStatus := stOk }).startSend c).tryOwn c

/-! ### The step boundary barrier (R282, R283, R288, R297) -/

/-- The step record of step `j` (R283). -/
def State.stepRecord (s : State) (c j inDg : Nat) (side : List Byte) : List Byte :=
  let l := s.led c
  padTo 32768 (leBytes 8 j ++ leBytes 8 (not64 j) ++ leBytes 16 l.stepDg ++ leBytes 16 inDg ++ s.seedBlock c j ++
    leBytes 2 l.passes.length ++ zeros 2 ++ leBytes 4 l.ownRow ++ leBytes 4 l.gRow ++ zeros 132 ++
    l.passes.flatMap fun p => leBytes 64 p.1 ++ p.2) ++ side

/-- LEDGER_RETAIN (R282, R283): the record is written, the input bank and the gradient are locked, and the sends to the
partner start. -/
def State.retain (s : State) (c j : Nat) : State :=
  let l := s.led c
  let b := s.inBank c j
  let i := s.ledRead c b.1 b.2
  let sd := i.2.2.ledRead c ((l.ownRow + l.ownRows) * s.rowBytes c) (l.sideRows * s.rowBytes c)
  let s1 := sd.2.2.ledWrite c (s.ownSlot c j) (s.stepRecord c j (dg i.2.1) sd.2.1)
  let idle := l.sends.isEmpty
  let s2 := s1.modLed c fun l => { l with
    held := l.held.filter (· != j) ++ [j], inLocks := l.inLocks.filter (· != j) ++ [j],
    updated := pairOf 32 j, dirty := false, sends := if l.partnerDev == 0xFFF then [] else l.sends ++ [(j, 0), (j, 1)] }
  if idle then s2.startSend c else s2

/-- The status of a context's vote (R288). -/
def State.voteStatus (s : State) (c : Nat) : Nat :=
  let l := s.led c
  if l.passBad then stConfigMismatch else if l.bad then stNotConfirmed else if s.dog.leaseState == 2 then stLeaseLost else stOk

/-- VOTE_SEND (R288): at a confirmation point the context moves to voting and sends its record to its herd. -/
def State.vote (s : State) (c j : Nat) : State :=
  let l := s.led c
  let me := if l.herd == 0xFFF then 0xFFFF else s.memberOf c l.herd
  let v : Vote := {
    step := j, stepN := not64 j, cfg := (s.load c).ctxDigest, weights := l.weights.value, tripped := s.trippedMask c,
    job := s.jobIdOf c, member := me, status := s.voteStatus c }
  let s1 := (s.modLed c fun l => { l with
    state := 2, voteStep := j, voteTick := s.tickNo, votes := v :: l.early.filter (fun x => x.step == j && x.member != me),
    early := l.early.filter (fun x => j < x.step), verdict := none, own := none, decision := none,
    ups := l.ups.filter (fun u => j ≤ u.1) }).clearSamples c
  let s2 := if l.herd == 0xFFF then s1
    else (List.range (s.herdSize c)).foldl (fun t m => if m == me then t else t.treeMsg c l.herd m (voteBytes v)) s1
  let s3 := if v.status == stLeaseLost then s2.report 1 7 stLeaseLost noPart c else s2
  (s3.ckptHold c).tryVerdict c

/-- What the ledger does at the barrier after step `j` (R282, R288, R297). -/
def State.ledgerBarrier (s : State) (c j : Nat) : State :=
  let l := s.led c
  if l.state == 0 || l.state == 4 || l.state == 5 || l.state == 7 then s
  else
    let s1 := (s.retain c j).modLed c fun l =>
      if l.state == 6 then { l with
        replayed := if j ≤ l.replayTo then satAdd 0xFFFFFFFF l.replayed 1 else l.replayed, state := if l.replayTo ≤ j then 1 else 6 }
      else l
    if (j - l.c0) % l.k == 0 then s1.vote c j else s1

/-- The ledger lets the context release segments (R290, R292, R302): not while it quiesces, restores or is halted, and
no new step after a decision of no. -/
def State.ledgerLets (s : State) (c : Nat) : Bool :=
  let l := s.led c
  match l.state with
  | 4 => false
  | 5 => (s.run c).tail
  | 7 => false
  | 2 => !((s.run c).boundary && l.decision == some false)
  | _ => true

/-! ### Rows of the confirmation (R289 to R291) -/

/-- VOTE_RECEIVE: an arriving vote record is collected, and the herd verdict formed once all have arrived (R289). One
that comes before the context's own barrier is kept for it, and one after the verdict is discarded (R308). -/
def execVoteReceive (c : Nat) (v : Vote) (s : State) : Host.Outcome State Fault Refusal :=
  let l := s.led c
  if l.state == 0 then .next s
  else
    let s1 := if v.stepN == not64 v.step then s else s.pairNote 7 noPart c
    if l.state == 2 && l.verdict.isNone && v.step ≤ l.voteStep && !(l.votes.any fun x => x.member == v.member) then
      .next ((s1.modLed c fun l => { l with votes := l.votes ++ [v] }).tryVerdict c)
    else if l.voteStep < v.step || (l.state != 2 && l.confirmed.nat < v.step) then
      .next (s1.modLed c fun l => { l with early := l.early.filter (fun x => x.member != v.member || x.step != v.step) ++ [v] })
    else .next s1

/-- VOTE_TIMEOUT: a record missing 4,096 ticks after the barrier makes the verdict no (R289). -/
def execVoteTimeout (c : Nat) (s : State) : Host.Outcome State Fault Refusal :=
  let l := s.led c
  if l.state == 2 && l.verdict.isNone && l.voteTick + 4096 ≤ s.tickNo then .next ((s.formVerdict c).tryOwn c) else .next s

/-- DECISION_RECEIVE: a message of the job tree is combined, or delivers the decision, which goes on to the members
below (R290). -/
def execDecisionReceive (c : Nat) (down : Bool) (from_ step : Nat) (yes due : Bool) (at_ : Nat) (s0 : State) :
    Host.Outcome State Fault Refusal :=
  let s := s0.atClk at_
  let l := s.led c
  if l.state == 0 then .next s
  else if down then
    if l.state == 2 && l.decision.isNone && step == l.voteStep then .next ((s.decide_ c yes due).decisionDown c step yes due)
    else .next s
  else
    let s1 := s.modLed c fun l => { l with ups := l.ups.filter (fun u => u.1 != step || u.2.1 != from_) ++ [(step, from_, yes, due)] }
    .next (if l.state == 2 then s1.treeUp c else s1)

/-- DECISION_TIMEOUT: with no decision 4,096 ticks after its barrier the context takes it as no (R290). -/
def execDecisionTimeout (c : Nat) (s : State) : Host.Outcome State Fault Refusal :=
  let l := s.led c
  if l.state == 2 && l.decision.isNone && l.voteTick + 4096 ≤ s.tickNo then .next (s.decide_ c false false) else .next s

/-- MIRROR_CONFIRMED_RECEIVE: the ward sets mirror_valid and leaves committing (R291). -/
def execMirrorConfirmedReceive (c step : Nat) (s : State) : Host.Outcome State Fault Refusal :=
  let l := s.led c
  if l.state == 0 || step != l.confirmed.nat then .next s
  else .next (s.modLed c fun l => { l with
    mirrorValid := true, state := if l.state == 3 then (if step < l.replayTo then 6 else 1) else l.state })

/-- A transfer aimed at a fenced partition ends at once (R372). -/
def State.ledFenced (s : State) (c : Nat) : State :=
  (s.modLed c fun l => { l with lastStatus := stFenced }).report 1 7 stFenced noPart c

/-- LEDGER_TRANSFER_RECEIVE: the partner accepts a step record (kind 0) or a gradient shard (kind 1) of its ward, whose
transfer digest must match; a gradient waits for its slot of the ring (R282, R287, R308, R372). -/
def execLedgerTransferReceive (c kind step : Nat) (bytes : List Byte) (digest : Nat) (s : State) : Host.Outcome State Fault Refusal :=
  let l := s.led c
  if l.state == 0 || l.wardDev == 0xFFF then .next s
  else if s.fencedOff c then .next (s.ledFenced c)
  else if dg bytes != digest then
    .next ((s.modLed c fun l => { l with lastStatus := stDigestMismatch }).report 1 7 stDigestMismatch noPart c)
  else
    let ok (t : State) : State := (t.modLed c fun l => { l with lastStatus := stOk }).acceptTo c l.wardDev step (ceilDiv bytes.length 2048)
    if kind == 0 then
      .next (ok ((s.ledWrite c (s.wardSlot c step) bytes).modLed c fun l => { l with wardRecs := l.wardRecs.filter (· != step) ++ [step] }))
    else if l.wardGrads.any fun j => j != step && j % l.k == step % l.k then .next s
    else
      .next (ok ((s.ledWrite c ((l.retRow + step % l.k * l.gRows) * s.rowBytes c) bytes).modLed c fun l => { l with
        wardGrads := l.wardGrads.filter (· != step) ++ [step] }))

end Sys2Proof.Machine
end

