-- ==== Sys2Proof/Machine/LoadParse.lean ====
section
/-! DEFINITION. The image file as the loader reads it: header, section table, tables, play lists, buffers
(spec/10_avavo_images_and_loader.md R223 to R232). -/

namespace Sys2Proof.Machine

/-! ### Header and section table (R223 to R226) -/

/-- Fields of the header (R224). -/
def hdrField (b : List Byte) (off n : Nat) : Nat := leAt b off n
def hdrSecs (b : List Byte) : Nat := hdrField b 6 2
def hdrParts (b : List Byte) : Nat := hdrField b 16 1
def hdrBulk (b : List Byte) : Nat := hdrField b 28 4
/-- The end of the padded section table. -/
def tableEnd (b : List Byte) : Nat := 64 + ceilDiv (16 * hdrSecs b) 64 * 64

/-- Decode a section-table entry (R225). -/
def Sec.of (x : Nat) : Sec := ⟨fld x 7 0, fld x 63 32, fld x 95 64, fld x 127 96⟩

/-- Decode a buffer declaration (R228). -/
def Buf.of (x : Nat) : Buf :=
  ⟨fld x 63 0, fld x 127 64, bitOf x 128, bitOf x 129, fld x 134 130, fld x 140 135, fld x 191 176, fld x 223 192,
    fld x 255 224⟩

/-- A list without its trailing zeros: a section is padded with zeros to whole units of 64 bytes
(DEDUCED, safe: notes/assumptions/25.md). -/
def dropZeroTail (l : List Nat) : List Nat := (l.reverse.dropWhile (· == 0)).reverse

/-- The entries of a table of `n`-byte entries. -/
def tableOf (bs : List Byte) (n : Nat) : List Nat :=
  dropZeroTail ((List.range (bs.length / n)).map fun i => leAt bs (n * i) n)

/-- The bytes of the section of a type, empty where the image has none. -/
def Image.file (im : Image) (typ : Nat) : List Byte :=
  match im.sec typ with
  | some x => slice im.bytes (64 * x.off) (64 * x.size)
  | none => []

/-- The 16-bit values of a section. -/
def halves (bs : List Byte) : List Nat := (List.range (bs.length / 2)).map fun i => leAt bs (2 * i) 2

/-- Decode a Pack group (R231): base, stride, count. -/
def packOf (x : Nat) : Nat × Nat × Nat := (fld x 13 0, fld x 30 17, fld x 45 31)

/-- Read the parts of an image that the loader keeps (R223 to R232). -/
def Image.parse (b : List Byte) : Image :=
  let im : Image := {
    secs := (List.range (hdrSecs b)).map fun i => Sec.of (leAt b (64 + 16 * i) 16)
    partCount := hdrParts b, period := hdrField b 17 1, stopMask := hdrField b 18 2 % 16
    training := bitOf (hdrField b 18 2) 4, calibEvery := hdrField b 20 2
    ranksHosted := hdrField b 22 2, ranksTotal := hdrField b 24 2, slew := hdrField b 32 4
    bytes := b, digest := slice b (b.length - 64) 32 }
  { im with
    bufs := (tableOf (im.file 8) 32).map Buf.of, power := halves (im.file 7), bounds := halves (im.file 5)
    groups := (tableOf (im.file 6) 16).map packOf }

/-- Placed section types (R225). -/
def placedType (t : Nat) : Bool := decide (1 ≤ t) && decide (t ≤ 6)

/-- The bulk space that the image declares, in bytes (R224). -/
def bulkBytes (b : List Byte) : Nat := hdrBulk b * 2 ^ 20

/-- The end of the last bank of a buffer (R228). -/
def Buf.last (x : Buf) : Nat := x.addr + x.banks * x.size

/-- Two half-open ranges meet. -/
def meets (a b x y : Nat) : Bool := decide (a < y) && decide (x < b) && decide (a < b) && decide (x < y)

/-- The header meets R223 and R224. -/
def headerOk (b : List Byte) : Bool :=
  decide (128 ≤ b.length) && b.length % 64 == 0 && hdrField b 0 4 == 0x32565641 && hdrField b 4 2 == 1 &&
  decide (1 ≤ hdrSecs b) && decide (hdrSecs b ≤ 32) && hdrField b 8 8 == b.length && decide (1 ≤ hdrParts b) &&
  decide (hdrParts b ≤ 64) && decide (4 ≤ hdrField b 17 1) && decide (hdrField b 17 1 ≤ 64) &&
  fld (hdrField b 18 2) 15 5 == 0 && decide (1 ≤ hdrField b 22 2) && decide (hdrField b 22 2 ≤ 16384) &&
  decide (1 ≤ hdrField b 24 2) && decide (hdrField b 24 2 ≤ 16384) && hdrField b 26 2 == 0 &&
  (slice b 36 28).all (· == 0) && (slice b (b.length - 32) 32).all (· == 0) && decide (tableEnd b ≤ b.length - 64) &&
  (slice b (64 + 16 * hdrSecs b) (tableEnd b - 64 - 16 * hdrSecs b)).all (· == 0)

/-- Section-table entry `i` meets R225 and R226. -/
def secEntryOk (b : List Byte) (im : Image) (i : Nat) : Bool :=
  match im.secs[i]? with
  | none => false
  | some x =>
    let before := im.secs.take i
    let raw := leAt b (64 + 16 * i) 16
    let lo := x.place * 64
    let hi := lo + x.size * 64
    let prev := match before.getLast? with | some y => y.off + y.size | none => tableEnd b / 64
    fld raw 31 8 == 0 && decide (1 ≤ x.typ) && decide (x.typ ≤ 10) && !(before.any fun y => y.typ == x.typ) &&
    decide (prev ≤ x.off) && decide ((x.off + x.size) * 64 ≤ b.length - 64) &&
    (if placedType x.typ then
      lo % 256 == 0 && decide (hi ≤ bulkBytes b) &&
      !(before.any fun y => placedType y.typ && meets lo hi (y.place * 64) ((y.place + y.size) * 64)) &&
      !(im.bufs.any fun f => !f.cm && meets lo hi f.addr f.last)
    else x.place == 0xFFFFFFFF) &&
    (x.typ != 2 || decide ((tableOf (im.file 2) 16).length ≤ 4095))

/-! ### Failures: section type and index (R235, R241) -/

/-- The place of a failure: the section type and the index. -/
abbrev Fail := Option (Nat × Nat)

/-- No entry is at fault. -/
def noIndex : Nat := 0xFFFFFFFF

/-- The first index of a list, below `n`, at which a check fails. -/
def firstBad (typ n : Nat) (ok : Nat → Bool) : Fail := ((List.range n).find? fun i => !ok i).map fun i => (typ, i)

/-- The first failure in section-table order; failures of the header come first (R235). -/
def inOrder (im : Image) (fs : List Fail) : Fail :=
  let pos (t : Nat) : Nat := if t == 0 then 0 else 1 + (im.secs.takeWhile fun x => x.typ != t).length
  fs.foldl (fun best f => match best, f with
    | none, _ => f
    | some _, none => best
    | some a, some b => if pos b.1 < pos a.1 then some b else some a) none

/-- 0x20: the form of the file (R223 to R226). -/
def checkFormat (b : List Byte) (im : Image) : Fail :=
  if !headerOk b then some (0, noIndex)
  else match (List.range im.secs.length).find? fun i => !secEntryOk b im i with
    | some i => some ((im.secs[i]?).elim 0 (·.typ), i)
    | none => ([1, 5, 7, 8].find? fun t => (im.sec t).isNone).map fun t => (t, noIndex)

/-- 0x21: the digest (R223). -/
def checkDigest (b : List Byte) : Fail :=
  if sha256 (slice b 0 (b.length - 64)) == slice b (b.length - 64) 32 then none else some (0, noIndex)

/-! ### The expanded streams (R227) -/

/-- One record of an expanded stream: partition index, cluster, position in its stream, index counted over all
streams, its place, its bits. -/
structure SRec where
  j : Nat
  n : Nat
  pos : Nat
  xi : Nat
  at_ : Where
  r : Nat
  deriving DecidableEq, Repr

/-- The directory entry of cluster `d % 18` of partition index `d / 18`. -/
def dirEntry (sec : List Byte) (d : Nat) : Nat := leAt sec (16 * d) 16
def dirLen (x : Nat) : Nat := fld x 95 80
def dirOff (x : Nat) : Nat := fld x 127 96

/-- A play list: the position of each entry in the section, in units of 32 bytes, and its bits. -/
def playsOf (sec : List Byte) (x : Nat) : List (Nat × Nat) :=
  (List.range (dirLen x)).map fun i => (2 * dirOff x + i, leAt sec (64 * dirOff x + 32 * i) 32)

/-- A play-list entry lies within its ranges and the section (R227). -/
def playOk (sec : List Byte) (p : Nat × Nat) : Bool :=
  let e := Play.of p.2
  decide (32 * p.1 + 32 ≤ sec.length) && decide (1 ≤ e.repeat_) && decide (1 ≤ e.len) && decide (64 * (e.off + e.len) ≤ sec.length)

/-- The records of a play-list entry. -/
def expandPlay (sec : List Byte) (e : Play) : List (Where × Nat) :=
  (List.range e.repeat_).flatMap fun rep => (List.range e.len).map fun k =>
    (⟨e.off + k, rep, e.tickBase + rep * e.stride⟩, leAt sec (64 * (e.off + k)) 64)

/-- The expanded stream of a cluster. -/
def expandDir (sec : List Byte) (x : Nat) : List (Where × Nat) :=
  ((playsOf sec x).filter (playOk sec)).flatMap fun p => expandPlay sec (Play.of p.2)

/-- Every expanded stream of an image, one for each directory entry. -/
def Image.streams (im : Image) : List (List SRec) :=
  let sec := im.file 1
  ((List.range (18 * im.partCount)).foldl (fun (acc : Nat × List (List SRec)) d =>
    let rs := expandDir sec (dirEntry sec d)
    let out := (rs.zip (List.range rs.length)).map fun e => (⟨d / 18, d % 18, e.2, acc.1 + e.2, e.1.1, e.1.2⟩ : SRec)
    (acc.1 + rs.length, acc.2 ++ [out])) (0, [])).2

/-! ### What the checks look at -/

/-- An image under check. -/
structure Chk where
  im : Image
  /-- partitions assigned to the context -/
  parts : List Nat
  tens : List Nat
  lasts : List Nat
  wsets : List WSet
  streams : List (List SRec)
  rankBase : Nat
  rankCount : Nat
  deriving DecidableEq, Repr

def Chk.of (im : Image) (parts : List Nat) (rankBase rankCount : Nat) : Chk :=
  { im, parts, tens := tableOf (im.file 2) 16, lasts := tableOf (im.file 3) 32,
    wsets := (tableOf (im.file 4) 32).map fun x => ⟨x⟩, streams := im.streams, rankBase, rankCount }

/-- Every record, in directory and stream order. -/
def Chk.recs (c : Chk) : List SRec := c.streams.flatten

/-- Channels of the context. -/
def Chk.chans (c : Chk) : Nat := 4 * c.im.partCount

/-- Descriptor `i` of the tensor table; an index that names none reads as zeros. -/
def Chk.tensor (c : Chk) (i : Nat) : Tensor := Tensor.of ((c.tens[i]?).getD 0)
/-- Last `i`. -/
def Chk.last (c : Chk) (i : Nat) : List Band :=
  let x := (c.lasts[i]?).getD 0
  (List.range 4).filterMap fun b => Band.of (fld x (64 * b + 63) (64 * b))
/-- Weight set `i`. -/
def Chk.wset (c : Chk) (i : Nat) : WSet := (c.wsets[i]?).getD ⟨0⟩

/-- A tile instruction with what it names, in the mode its image gives it. -/
def Chk.job (c : Chk) (x : SRec) : Job :=
  let t : TileI := ⟨x.r⟩
  let side := if t.ws == idxNone then (if t.b == idxNone then BSide.none_ else .dense) else .codes
  { ag := agentOf 0 0 x.n 0 0, t, a := c.tensor t.a, b := c.tensor t.b, d := c.tensor t.d, res := c.tensor t.res,
    bias := c.tensor t.bias, w := c.wset t.ws, side, part := x.j, n := x.n, rep := 0, mask := 0, outliers := [] }

/-- The first record, in record order, that fails a check. -/
def Chk.firstRec (c : Chk) (ok : SRec → Bool) : Fail := (c.recs.find? fun x => !ok x).map fun x => (1, x.xi)

/-- The initial contents that the image supplies in bulk space: address and bytes (R140, R228). -/
def Image.content (im : Image) : List (Nat × List Byte) :=
  ((im.secs.filter fun x => placedType x.typ).map fun x => (x.place * 64, im.file x.typ)) ++
  ((im.bufs.filter fun b => !b.cm && b.initLen != 0).map fun b => (b.addr, slice (im.file 9) (64 * b.initOff) (64 * b.initLen)))

/-- The bytes at an address of what the image supplies: `none` where it supplies none of them, an empty list where
it supplies only some (R140). -/
def Image.supplied (im : Image) (addr n : Nat) : Option (List Byte) :=
  let hit := im.content.filter fun e => meets addr (addr + n) e.1 (e.1 + e.2.length)
  match hit with
  | [] => none
  | es =>
    let byte (a : Nat) : Option Byte := es.findSome? fun e => if e.1 ≤ a then e.2[a - e.1]? else none
    let bs := (List.range n).filterMap fun i => byte (addr + i)
    some (if bs.length == n then bs else [])

/-- A range lies within bank 0 of one declared buffer (R228). -/
def Image.covers (im : Image) (cm : Bool) (j n lo hi : Nat) : Bool :=
  decide (hi ≤ lo) || im.bufs.any fun b => b.cm == cm && (!cm || (b.part == j && b.cluster == n)) &&
    decide (b.addr ≤ lo) && decide (hi ≤ b.addr + b.size)

end Sys2Proof.Machine
end

