-- ==== Sys2Proof/Machine/LoadRules.lean ====
section
/-! DEFINITION. The loader's checks 0x22 to 0x2B (spec/10_avavo_images_and_loader.md R235, R236 and the rules of
the chapters they name). -/

namespace Sys2Proof.Machine

/-! ### 0x23: encodings -/

/-- A format code that is not reserved and not LO16 (R67, R68). -/
def fmtFree (code : Nat) : Bool := match Fmt.ofCode code with | some f => f != .lo16 | none => false

/-- The tensors that a tile instruction names, in the order A, B, D, R, bias. -/
def TileI.named (t : TileI) : List Nat := [t.a, t.b, t.d, t.res, t.bias].filter (· != idxNone)

/-- A tile instruction's rsvd bits, ranges and formats (R164, R178). -/
def Chk.tileEnc (c : Chk) (t : TileI) : Bool :=
  fld t.r 511 502 == 0 && fld t.r 31 23 == 0 && decide (1 ≤ t.sLen) && decide (t.sLen ≤ 512) && t.p != 0 && t.m != 0 &&
  t.n != 0 && (t.unit == 3 || t.k != 0) &&
  (t.ord3 != 1 || (t.inW != 0 && t.inH != 0)) &&
  (t.named.all fun i => decide (c.tens.length ≤ i) || (c.tensor i).fmt != 10)

/-- A Retriever descriptor's rsvd bits, ranges and formats (R198, R201). -/
def retEnc (d : RetD) : Bool :=
  fld d.r 511 360 == 0 && !bitOf d.r 295 && fld d.r 31 23 == 0 && d.rows != 0 && d.elems != 0 && fmtFree d.dstFmtC &&
  (d.op != 0 || fmtFree d.srcFmtC) && (!(d.dstSpace == 2 || (d.op == 0 && d.srcSpace == 2)) || d.qp / 64 == 0)

/-- A Cobbler pass's rsvd bits and ranges (R248, R258). -/
def Chk.passEnc (c : Chk) (p : CobP) : Bool :=
  fld p.r 511 380 == 0 && p.op != 3 && c.im.training && p.k != 0 && p.rows != 0 &&
  decide (p.recs c.chans 0 * p.k < 2 ^ 30) && (p.op == 0 || (Fmt.ofCode p.emitC).isSome) &&
  (p.ws == idxNone || decide (p.ws < c.wsets.length))

/-- A collective phase's rsvd bits, ranges and formats (R264, R276). -/
def Chk.phaseEnc (c : Chk) (p : PhaseR) : Bool :=
  fld p.r 511 460 == 0 && p.op != 3 && p.slab != 3 && fmtFree p.fmtC && (p.gx || !p.combines) &&
  !(p.combine && p.op == 2) && (p.slab == 0 || c.im.training) && decide (p.len < 2 ^ 28)

/-- A record's encoding (R236, 0x23). -/
def Chk.recEnc (c : Chk) (r : Nat) : Bool :=
  match recKind r with
  | 1 => c.tileEnc ⟨r⟩
  | 2 => fld r 511 73 == 0 && fld r 31 9 == 0
  | 3 => retEnc ⟨r⟩
  | 4 => c.passEnc ⟨r⟩
  | 5 => c.phaseEnc ⟨r⟩
  | 6 => fld r 511 96 == 0 && fld r 19 8 == 0
  | _ => false

/-- A tensor descriptor's encoding (R162). -/
def tensorEnc (x : Nat) : Bool :=
  let t := Tensor.of x
  t.rsvd == 0 && (Fmt.ofCode t.fmt).isSome && t.pshare != 0 && t.pitch != 0

/-- A weight-set record's encoding (R138, R140). -/
def wsetEnc (w : WSet) : Bool :=
  fld w.r 255 254 == 0 && decide (4 ≤ w.fmtCode) && decide (w.fmtCode ≤ 7) &&
  (w.fbCode == 1 || w.fbCode == 2 || w.fbCode == w.fmtCode) && decide (w.groupCode ≤ 9) && w.n != 0 && w.k != 0 && scOk w.limit

/-- A Pack group's encoding (R231). -/
def packEnc (x : Nat) : Bool :=
  let g := packOf x
  fld x 127 46 == 0 && fld x 16 14 == 0 && decide (2 ≤ g.2.2) && decide (g.2.2 ≤ 16384) && decide (1 ≤ g.2.1)

/-- A buffer declaration's encoding (R228). -/
def Chk.bufEnc (c : Chk) (x : Nat) : Bool :=
  let b := Buf.of x
  fld x 175 141 == 0 && b.banks != 0 && decide (b.part < c.im.partCount) && decide (b.cluster ≤ 17)

/-- The first of several places. -/
def firstOf (l : List Fail) : Fail := l.findSome? id

/-- Play-list entries of every directory entry, in order. -/
def Chk.plays (c : Chk) : List (Nat × Nat) :=
  let sec := c.im.file 1
  (List.range (18 * c.im.partCount)).flatMap fun d => playsOf sec (dirEntry sec d)

/-- 0x23: a reserved kind, format code or LO16 operand, a set rsvd bit or a field out of range. -/
def Chk.checkEnc (c : Chk) : Fail :=
  let sec := c.im.file 1
  let streams := firstOf [
    firstBad 1 (18 * c.im.partCount) fun d => fld (dirEntry sec d) 79 0 == 0,
    (c.plays.find? fun p => (Play.of p.2).rsvd).map fun p => (1, p.1),
    c.firstRec fun x => c.recEnc x.r]
  let packs := tableOf (c.im.file 6) 16
  let bufs := tableOf (c.im.file 8) 32
  inOrder c.im [streams, firstBad 2 c.tens.length fun i => tensorEnc ((c.tens[i]?).getD 0),
    firstBad 4 c.wsets.length fun i => wsetEnc (c.wset i),
    firstBad 6 packs.length fun i => packEnc ((packs[i]?).getD 0),
    firstBad 8 bufs.length fun i => c.bufEnc ((bufs[i]?).getD 0)]

/-! ### 0x22: placement -/

/-- Rows of a weight set that the image's passes update (R140, R243): first row and end of each pass. -/
def Chk.shardSpans (c : Chk) (ws : Nat) : List (Nat × Nat) :=
  c.recs.filterMap fun x =>
    let p : CobP := ⟨x.r⟩
    if recKind x.r == 4 && p.ws == ws then some (p.n0, p.n0 + p.rows) else none

/-- Every codebook group of a weight set is updated whole or not at all (R140). -/
def Chk.shardOk (c : Chk) (i : Nat) : Bool :=
  let w := c.wset i
  let sp := c.shardSpans i
  let inn (n : Nat) : Bool := sp.any fun e => decide (e.1 ≤ n) && decide (n < e.2)
  (List.range (ceilDiv w.n w.group)).all fun g =>
    let rows := (List.range (min w.group (w.n - g * w.group))).map (g * w.group + ·)
    rows.all inn || rows.all fun n => !inn n

/-- 0x22: the image fits the context's partitions, window, ranks and job binding (R236, R342). -/
def Chk.checkPlace (c : Chk) (countK : Nat) (bound : Bool) : Fail :=
  let im := c.im
  if im.partCount != c.parts.length || countK * im.partCount < hdrBulk im.bytes || im.ranksHosted != c.rankCount ||
    c.rankCount == 0 || 16384 < c.rankCount || im.ranksTotal < c.rankBase + c.rankCount || !bound then some (0, noIndex)
  else if im.training then firstBad 4 c.wsets.length fun i => c.shardOk i
  else none

/-! ### 0x24: segments -/

/-- The bound of a scheduled length (R46). -/
def schedBound (period : Nat) : Nat := period * 1100 - 64

/-- A segment mark that opens a segment: its rel_tick with the repetition's ticks (R227). -/
def SRec.rel (x : SRec) : Nat := markRel x.r + x.at_.ticks

/-- The first record of a stream that breaks R161 or R46, by its index. -/
def segFail (period : Nat) (xs : List SRec) : Option Nat :=
  let last := xs.length - 1
  (xs.foldl (fun (acc : Option Nat × Option Nat) x =>
    if acc.1.isSome then acc
    else
      let mark := recKind x.r == 2
      let stop := mark && markEnd x.r
      let bad :=
        (x.pos == 0 && (!mark || stop || x.rel != 0)) || (x.pos == last && !stop) ||
        (stop && (x.pos != last || x.rel != 0 || markLen x.r != 0)) ||
        (mark && decide (schedBound period < markLen x.r)) ||
        (mark && !stop && match acc.2 with | some p => decide (x.rel ≤ p) | none => false)
      (if bad then some x.xi else none, if mark && !stop then some x.rel else acc.2)) (none, none)).1

/-- 0x24: directory and play lists in range, and R161. -/
def Chk.checkSeg (c : Chk) : Fail :=
  let sec := c.im.file 1
  firstOf [
    firstBad 1 (18 * c.im.partCount) fun d => decide (16 * d + 16 ≤ sec.length),
    (c.plays.find? fun p => !playOk sec p).map fun p => (1, p.1),
    (c.streams.findSome? fun xs => segFail c.im.period xs).map fun i => (1, i)]

/-! ### 0x25: tile instructions -/

/-- Formats that an operand tensor may have on a matrix unit or the Awl (R121, R165). -/
def wideAct (f : Fmt) : Bool := f == .bf16 || f == .hi16
def fp8Act (f : Fmt) : Bool := f == .e4m3 || f == .e5m2

/-- Chain operations that read a residual of full shape, and of one column (R174). -/
def readsRes (o : Nat) : Bool := o == 3 || o == 4
def readsRowv (o : Nat) : Bool := decide (5 ≤ o) && decide (o ≤ 8)
def readsBias (o : Nat) : Bool := o == 1 || o == 2

/-- The window fields are zero. -/
def TileI.noWindow (t : TileI) : Bool := fld t.r 501 456 == 0

/-- Fields that the unit does not use (R165), and the operand rules of each unit. -/
def Chk.unitRules (c : Chk) (j : Job) : Bool :=
  let t := j.t
  match t.unit with
  | 3 =>
    t.ws == idxNone && t.b == idxNone && t.lastIdx == idxNone && !t.lastPair && t.ord2 == 0 && t.ord3 == 0 && t.noWindow &&
    !t.transposed && t.k == 0 && t.kc == 0 && !j.a.format.narrow && (t.vred == 0 || t.nc == t.n)
  | 2 =>
    t.lastIdx == idxNone && !t.lastPair && t.ord2 == 0 && t.ord3 == 0 && t.noWindow && !t.tokScaleOut && t.vred == 0 &&
    t.ws != idxNone && decide (t.ws < c.wsets.length) && t.b == idxNone && !t.transposed && decide (t.m ≤ 8) &&
    (wideAct j.a.format || fp8Act j.a.format) &&
    decide (t.nc * (([1, 2, 4, 8].find? fun x => decide (t.mc ≤ x)).getD 8) ≤ 16384)
  | _ =>
    t.vred == 0 && decide (t.lastIdx + b2n t.lastPair < c.lasts.length) &&
    (if t.ws != idxNone then
      decide (t.ws < c.wsets.length) && t.b == idxNone &&
      (if t.transposed then wideAct j.a.format else wideAct j.a.format || fp8Act j.a.format)
    else
      t.b != idxNone && !t.transposed &&
      ((wideAct j.a.format && wideAct j.b.format) || (fp8Act j.a.format && fp8Act j.b.format)))

/-- Level-1 extents and orders (R167). -/
def extentRules (t : TileI) : Bool :=
  decide (t.ord1 ≤ 5) && decide (t.ord2 ≤ 5) && decide (1 ≤ t.mc) && decide (t.mc ≤ t.m) && decide (1 ≤ t.nc) && decide (t.nc ≤ t.n) &&
  (t.unit == 3 || (decide (1 ≤ t.kc) && decide (t.kc ≤ t.k) && (t.kc % 32 == 0 || decide (t.k ≤ t.kc))))

/-- The chain (R174). -/
def chainRules (t : TileI) : Bool :=
  let ops := t.chain
  ((List.range 8).drop ops.length).all (fun i => t.op (i + 1) == 0) && ops.all (fun o => decide (o ≤ 0x15)) &&
  !(ops.any readsRes && ops.any readsRowv) && (!(ops.any readsBias) || t.bias != idxNone) &&
  (!(ops.any fun o => readsRes o || readsRowv o) || t.res != idxNone)

/-- The window walk (R170). -/
def windowRules (t : TileI) : Bool :=
  decide (t.ord3 ≤ 1) && (t.ord3 == 0 ||
    (decide (t.unit ≤ 1) && decide (t.dil * (t.kw - 1) + 1 ≤ t.inW + 2 * t.padW) &&
     decide (t.dil * (t.kh - 1) + 1 ≤ t.inH + 2 * t.padH) && t.m == t.outH * t.outW && t.k % (t.kh * t.kw) == 0 && t.kc == t.k))

/-- The destination (R177, R178). -/
def destRules (j : Job) : Bool :=
  !j.d.format.narrow && (!j.t.tokScaleOut || (fp8Act j.d.format && j.d.hasScale && j.t.nc == j.t.n && j.t.unit != 2))

/-- S_max of a fold: a bank holds 16,384 output positions (R126). -/
def sMaxOf (j : Job) (bands : List Band) : Nat :=
  let cols := bands.foldl (fun a b => a + j.mode.perCol * b.colLen) 0
  if cols == 0 then 0 else 16384 / (cols * j.perElem)

/-- Passes of the dimensions that ord2 places inside the reduction, within one cluster tile (R169). -/
def innerPasses (j : Job) (d1 : List Band) : Nat :=
  let ext (d : Nat) : Nat := min (j.cut d) (j.extent d)
  let cnt (d : Nat) : Nat :=
    if d == j.streamDim then
      let per := j.perElem
      let e := ceilDiv (ext d) per
      if j.mode == .narrow && !j.t.transposed && j.w.fmt != .tern then
        (origins j.t.sLen e).foldl (fun a so => a + (splits j.w.group (per * so) per (min j.t.sLen (e - so))).length) 0
      else ceilDiv e j.t.sLen
    else ceilDiv (ext d) (max 1 (lastChi j.mode d1))
  (((ordDims j.t.ord2).dropWhile (· != j.redDim)).drop 1).foldl (fun a d => a * cnt d) 1

/-- The last chunk carries every padding position for every output column (R171). -/
def padsCarried (j : Job) (d1 d2 : List Band) : Bool :=
  j.padEnd == j.t.red ||
  (List.range j.perProblem).all fun tile =>
    if j.tileIdx tile j.redDim + 1 != j.tiles j.redDim then true
    else
      let ps := j.passes tile d1 d2
      let ct := (j.span tile j.arrayDim).2
      (List.range ct).all fun col => (List.range (j.padEnd - j.t.red)).all fun i => ps.any fun p =>
        (if p.second then d2 else d1).any fun b =>
          let r := j.bandRange tile p d1 b
          decide (p.co + b.col0 ≤ col) && decide (col < p.co + b.col0 + j.mode.perCol * b.colLen) &&
          decide (r.1 ≤ j.t.red + i) && decide (j.t.red + i < r.2)

/-- What a pair of descriptors must meet (R485). -/
def pairRules (j : Job) (d1 d2 : List Band) : Bool :=
  !j.t.lastPair ||
    let ct := j.cut j.arrayDim
    let x1 := lastChi j.mode d1
    decide (ct ≤ lastChi j.mode d2) &&
    decide (j.perElem * j.t.sLen * max (lastChi j.mode d2) (ceilDiv ct (max 1 x1) * x1) ≤ 16384)

/-- The array rules of a matrix-unit instruction whose descriptors are well formed (R169, R171, R485). -/
def Chk.arrayRules (c : Chk) (j : Job) : Bool :=
  decide (2 ≤ j.t.unit) ||
    let d1 := c.last j.t.lastIdx
    let d2 := c.last (j.t.lastIdx + 1)
    decide (j.t.sLen ≤ sMaxOf j d1) && (!j.t.lastPair || decide (j.t.sLen ≤ sMaxOf j d2)) && pairRules j d1 d2 &&
    decide (innerPasses j d1 ≤ 2) && (j.t.pad == 0x80000000 || padsCarried j d1 d2)

/-- A range of a space: cluster memory or bulk, first byte, end. -/
abbrev Rng := Bool × Nat × Nat

/-- The ranges of a tensor over every problem, its scales and GX16 exponents among them (R163). -/
def Tensor.ranges (t : Tensor) (rows cols srows p : Nat) : List Rng :=
  let blocks := ceilDiv p (max 1 t.pshare)
  let nb := if t.pstride == 0 then 1 else blocks
  ((List.range nb).map fun b =>
    let a := t.base * 64 + 64 * t.pstride * b
    (t.cm, a, a + 64 * t.pitch * (rows - 1) + t.format.rowBytes cols)) ++
  (if t.hasScale then [(t.cm, t.scaleBase * 64, t.scaleBase * 64 + 2 * srows * blocks)]
   else if t.format == .gx16 then [(t.cm, t.scaleBase * 64, t.scaleBase * 64 + srows * ceilDiv cols 64 * blocks)] else [])

/-- Bytes of the fallback region: the larger of the monitor buffer and the fallback copy (R140, R149, R152). -/
def WSet.fbBytes (w : WSet) : Nat :=
  max (512 * w.k) (w.n * row64 w.k (((Fmt.ofCode w.fbCode).getD .bf16).bits))

/-- The regions of a weight set (R138). -/
def WSet.ranges (w : WSet) : List Rng :=
  [(false, w.code * 64, w.code * 64 + (w.n - 1) * w.rowBytes + w.fmt.rowBytes w.k), (false, w.scale * 64, w.scale * 64 + 2 * w.n)] ++
  (if w.fmt == .tern then [] else [(false, w.book * 64, w.book * 64 + 64 * ceilDiv w.n w.group)]) ++
  (if w.outliers == 0 then [] else [(false, w.side * 64, w.side * 64 + w.listBytes + w.n * row64 w.outliers 16)]) ++
  (if w.trip == 0 then [] else [(false, w.fallback * 64, w.fallback * 64 + w.fbBytes)])

/-- The ranges that a tile instruction reads (R163, R178). -/
def readRanges (j : Job) : List Rng :=
  let t := j.t
  let aR := if t.ord3 == 1 then j.a.ranges (t.k / (t.kh * t.kw) * t.inH) t.inW (t.k / (t.kh * t.kw) * t.inH) t.p
    else j.a.ranges t.m j.aCols t.m t.p
  let bR := if t.b != idxNone then j.b.ranges t.n t.k t.n t.p else if t.ws != idxNone then j.w.ranges else []
  let rR := if t.res == idxNone then [] else j.res.ranges t.m (if t.chain.any readsRowv then 1 else t.outCols) t.m t.p
  let cR := if t.bias == idxNone then [] else j.bias.ranges 2 t.outCols 2 t.p
  aR ++ bR ++ rR ++ cR

/-- The ranges that a tile instruction writes. -/
def destRanges (j : Job) : List Rng :=
  let t := j.t
  let cols := if t.unit == 3 && t.vred != 0 then 1 else t.outCols
  if j.d.tstore then j.d.ranges cols t.m t.m t.p else j.d.ranges t.m cols t.m t.p

/-- Two ranges meet. -/
def Rng.meet (x y : Rng) : Bool := x.1 == y.1 && meets x.2.1 x.2.2 y.2.1 y.2.2

/-- The index rules of a tile instruction (R178). -/
def Chk.indexRules (c : Chk) (t : TileI) : Bool :=
  t.a != idxNone && t.d != idxNone && t.named.all fun i => decide (i < c.tens.length)

/-- A tile instruction's rules (R178) that do not rest on its Last descriptors. -/
def Chk.tileOk (c : Chk) (x : SRec) : Bool :=
  recKind x.r != 1 ||
    let j := c.job x
    c.indexRules j.t && c.unitRules j && extentRules j.t && chainRules j.t && windowRules j.t && destRules j &&
    !(destRanges j).any fun d => (readRanges j).any fun r => d.meet r

/-- The band rules of a Last that do not depend on who names it (R132). -/
def lastShape (d : List Band) : Bool :=
  !d.isEmpty && (d.all fun b => decide (b.rowStart + b.rowLen ≤ 32) && decide (b.colStart + b.colLen ≤ 32)) &&
  (List.range d.length).all fun i => (List.range i).all fun k =>
    match d[i]?, d[k]? with
    | some a, some b =>
      let rows := meets a.rowStart (a.rowStart + a.rowLen) b.rowStart (b.rowStart + b.rowLen)
      let cols := meets a.colStart (a.colStart + a.colLen) b.colStart (b.colStart + b.colLen)
      !(rows && cols) && (!rows || (a.rowStart == b.rowStart && a.rowLen == b.rowLen && a.k0 == b.k0 && a.str0 == b.str0))
    | _, _ => true

/-- No two bands hold one output position, for streams of `s` elements in a mode; in narrow modes col0 is a multiple
of 4 (R132). -/
def lastUse (md : MMode) (s : Nat) (d : List Band) : Bool :=
  (md != .narrow || d.all fun b => b.col0 % 4 == 0) &&
  (List.range d.length).all fun i => (List.range i).all fun k =>
    match d[i]?, d[k]? with
    | some a, some b =>
      !(meets a.col0 (a.col0 + md.perCol * a.colLen) b.col0 (b.col0 + md.perCol * b.colLen) && meets a.str0 (a.str0 + s) b.str0 (b.str0 + s))
    | _, _ => true

/-- The matrix-unit instructions of the image. -/
def Chk.arrayRecs (c : Chk) : List SRec := c.recs.filter fun x => recKind x.r == 1 && decide ((⟨x.r⟩ : TileI).unit ≤ 1)

/-- Last `i` meets R132 with every instruction that names it, or with S = 1. -/
def Chk.lastOk (c : Chk) (i : Nat) : Bool :=
  let d := c.last i
  let users := c.arrayRecs.filter fun x =>
    let t : TileI := ⟨x.r⟩
    t.lastIdx == i || (t.lastPair && t.lastIdx + 1 == i)
  lastShape d && (if users.isEmpty then lastUse .bf16 1 d else users.all fun x =>
    let j := c.job x
    lastUse j.mode j.t.sLen d)

/-- 0x25: tile rules. The array rules read only descriptors that meet R132, which check 0x27 answers for. -/
def Chk.checkTile (c : Chk) : Fail :=
  c.firstRec fun x => c.tileOk x && (recKind x.r != 1 ||
    let j := c.job x
    !(c.lastOk j.t.lastIdx && (!j.t.lastPair || c.lastOk (j.t.lastIdx + 1))) || c.arrayRules j)

/-- 0x26: stage regions below 2 MiB (R168). -/
def Chk.checkStage (c : Chk) : Fail :=
  c.firstRec fun x => recKind x.r != 1 ||
    let j := c.job x
    decide (j.t.stage * 64 + j.stageBytes ≤ cmBytes)

/-- 0x27: Last descriptors (R132). -/
def Chk.checkLast (c : Chk) : Fail := firstBad 3 c.lasts.length fun i => c.lastOk i

/-! ### 0x28: weight sets -/

/-- A codebook record holds finite BF16 values, strictly ascending (R77). -/
def bookOk (f : Fmt) (bs : List Byte) : Bool :=
  let v := (codebookOf f bs).map ffBF.decode
  v.all Val.isFin && (v.zip (v.drop 1)).all fun e => e.1.lt e.2

/-- An outlier list (R140). -/
def outliersOk (w : WSet) (bs : List Byte) : Bool :=
  let v := (List.range w.outliers).map fun i => leAt bs (4 * i) 4
  v.all (fun x => decide (x < w.k)) && (v.zip (v.drop 1)).all fun e => decide (e.1 < e.2)

/-- A weight-set record's rules beyond its ranges (R140, R259). -/
def Chk.wsetOk (c : Chk) (w : WSet) : Bool :=
  decide (w.outliers ≤ w.k / 64) &&
  (w.outliers == 0 || match c.im.supplied (w.side * 64) (4 * w.outliers) with
    | some bs => !bs.isEmpty && outliersOk w bs
    | none => false) &&
  (w.fmt == .tern || (List.range (ceilDiv w.n w.group)).all fun i =>
    match c.im.supplied (w.book * 64 + 64 * i) 64 with
    | some bs => !bs.isEmpty && bookOk w.fmt bs
    | none => true) &&
  (w.trip == 0 || (c.im.training && c.im.covers false 0 0 (w.fallback * 64) (w.fallback * 64 + w.fbBytes)))

/-- A Cobbler pass against its weight set (R255, R256, R258). -/
def Chk.passWs (c : Chk) (p : CobP) : Bool :=
  if p.ws == idxNone then p.op == 0 || p.emitC == 1 || p.emitC == 2
  else
    let w := c.wset p.ws
    w.fmt.narrow && (p.op == 0 || p.emitC == w.fmtCode) && decide (p.n0 + p.rows ≤ w.n) && p.k == w.k && decide ((p.books w).2 ≤ 256)

/-- 0x28: weight sets, Cobbler passes and what a frozen image must not set (R259). -/
def Chk.checkWset (c : Chk) : Fail :=
  inOrder c.im [
    if !c.im.training && c.im.calibEvery != 0 then some (0, noIndex) else none,
    firstBad 4 c.wsets.length fun i => c.wsetOk (c.wset i),
    c.firstRec fun x => recKind x.r != 4 || c.passWs ⟨x.r⟩]

/-! ### 0x29: buffers and ranges -/

/-- A buffer against R228 and R229 and the buffers before it. -/
def Chk.bufOk (c : Chk) (i : Nat) : Bool :=
  match c.im.bufs[i]? with
  | none => true
  | some b =>
    (if b.cm then b.addr % 64 == 0 && b.size % 64 == 0 && decide (b.last ≤ cmBytes) && b.initLen == 0
     else b.addr % 256 == 0 && b.size % 256 == 0 && b.part == 0 && b.cluster == 0 && decide (b.last ≤ bulkBytes c.im.bytes)) &&
    !(b.zeroDef && b.initLen != 0) &&
    (b.initLen == 0 || (decide (b.initLen * 64 ≤ b.size) && decide ((b.initOff + b.initLen) * 64 ≤ (c.im.file 9).length))) &&
    !((c.im.bufs.take i).any fun a => a.cm == b.cm && (!b.cm || (a.part == b.part && a.cluster == b.cluster)) &&
      meets a.addr a.last b.addr b.last)

/-- Rows of a Retriever transfer in a space: first byte and end of each. -/
def retRows (base pitch rows len : Nat) : List (Nat × Nat) := (List.range rows).map fun r => (base + r * pitch, base + r * pitch + len)

/-- A Retriever descriptor's rules beyond ranges and rsvd bits (R199, R201). -/
def Chk.retOk (c : Chk) (d : RetD) : Bool :=
  let conv (f : Fmt) : Bool := f == .fp32 || f == .bf16 || f == .e4m3 || f == .e5m2 || f == .sc || f == .hi16
  let dlen := d.rowUnits * 64
  let drows := retRows d.dst d.dstPitch d.rows dlen
  let srows := if d.op == 0 then retRows d.src d.srcPitch d.rows d.srcRowBytes else []
  let fits (sp : Nat) (rs : List (Nat × Nat)) : Bool :=
    rs.all fun r => if sp == 1 then decide (r.2 ≤ cmBytes) else if sp == 0 then decide (r.2 ≤ bulkBytes c.im.bytes) else true
  let prog := d.progCm * 64
  let g := if d.dstSpace == 0 then 256 else 64
  d.dst % 64 == 0 && d.dstPitch % 64 == 0 && (d.op != 0 || d.src % d.srcFmt.unit == 0) &&
  (d.op != 0 || d.srcFmt == d.dstFmt || (conv d.srcFmt && conv d.dstFmt)) &&
  (decide (d.op ≤ 1) || (decide (d.dstSpace ≤ 1) && drows.all fun r => r.1 % g == 0 && r.2 % g == 0)) &&
  fits d.dstSpace drows && fits d.srcSpace srows && decide (prog + 8 ≤ cmBytes) &&
  !(d.dstSpace == 1 && drows.any fun r => meets r.1 r.2 prog (prog + 8)) && decide (d.units < 2 ^ 32)

/-- The slabs of a Cobbler pass: first byte and end of each (R245, R258). -/
def Chk.slabsOf (c : Chk) (p : CobP) : List (Nat × Nat) :=
  let C := c.chans
  let w := c.wset p.ws
  let R := p.recs C 0
  let one (row cnt : Nat) : Nat × Nat := (row * C * 256, (row + cnt) * C * 256)
  let upd := if p.op == 2 then [] else [one p.loRow (R * p.rec2), one p.mRow (R * p.rec4), one p.vRow (R * p.rec4),
    one p.gRow (R * p.recG), one p.geRow (R * p.recGe)]
  let emi := if p.op == 0 then [] else [one p.eRow (R * p.recE w), one p.esRow (ceilDiv R 128)] ++
    (if p.narrow && w.trip != 0 then [one p.monRow (ceilDiv 256 C * p.rec2)] else [])
  (one p.hiRow (R * p.rec2) :: upd) ++ emi

/-- No two ranges of a list meet. -/
def disjointAll : List (Nat × Nat) → Bool
  | [] => true
  | x :: xs => !(xs.any fun y => meets x.1 x.2 y.1 y.2) && disjointAll xs

/-- The slabs of a collective phase (R265, R276): first byte and end. -/
def Chk.phaseSlabs (c : Chk) (p : PhaseR) : List (Nat × Nat) :=
  let C := c.chans
  let g := (c.im.groups[p.group]?).getD (0, 0, 0)
  let n := g.2.2
  let hs := (hosted g c.im.ranksTotal c.rankBase c.rankCount).length
  let one (row rec_ rows : Nat) : Nat × Nat := (row * C * 256, (row + ceilDiv rows C * rec_) * C * 256)
  if p.slab == 1 then one p.dst p.rec_ (hs * p.slabRows n true) :: (if p.gx then [one p.dstExp (ceilDiv p.bpr 256) (hs * p.slabRows n true)] else [])
  else if p.slab == 2 then one p.src p.rec_ (hs * p.slabRows n false) :: (if p.gx then [one p.srcExp (ceilDiv p.bpr 256) (hs * p.slabRows n false)] else [])
  else []

/-- The plain ranges of a phase for the member of ordinal `o`: source, destination, work area. -/
def PhaseR.areas (p : PhaseR) (n o : Nat) : List (Nat × Nat) × List (Nat × Nat) × List (Nat × Nat) :=
  let dlen := if p.op == 2 then ceilDiv p.len (max 1 n) else p.len
  let one (base ex len : Nat) : List (Nat × Nat) :=
    (base * 64 + o * p.rstride * 64, base * 64 + o * p.rstride * 64 + p.unit * len) ::
    (if p.gx then [(ex * 64 + o * p.estride * 64, ex * 64 + o * p.estride * 64 + len)] else [])
  (if p.slab == 2 then [] else one p.src p.srcExp p.len, if p.slab == 1 then [] else one p.dst p.dstExp dlen,
    if p.op == 2 then one p.wrk p.wrkExp p.len else [])

/-- Every range of every hosted member of a phase, and its progress words, lie in buffers; a destination overlaps
neither its source nor its work area; slab rows are whole (R276). -/
def Chk.phaseOk (c : Chk) (x : SRec) : Bool :=
  let p : PhaseR := ⟨x.r⟩
  let g := (c.im.groups[p.group]?).getD (0, 0, 0)
  let n := g.2.2
  let hs := hosted g c.im.ranksTotal c.rankBase c.rankCount
  let prog := p.progCm * 64
  let inBuf (r : Nat × Nat) : Bool := c.im.covers false 0 0 r.1 r.2
  let slabs := c.phaseSlabs p
  ((List.range hs.length).all fun o =>
    let a := p.areas n o
    a.1.all inBuf && a.2.1.all inBuf && a.2.2.all inBuf &&
    !(a.2.1.any fun d => (a.1 ++ a.2.2 ++ (if p.slab == 2 then slabs else [])).any fun e => meets d.1 d.2 e.1 e.2) &&
    !(p.slab == 1 && (a.1 ++ a.2.2).any fun e => slabs.any fun d => meets d.1 d.2 e.1 e.2)) &&
  slabs.all inBuf && (p.op != 1 || inBuf (p.perm * 64, p.perm * 64 + 2 * n)) &&
  (p.slab == 0 || (p.bpr != 0 && p.len % p.bpr == 0 && (p.op != 2 || p.len % max 1 n == 0))) &&
  decide (prog + 8 * hs.length ≤ cmBytes) && c.im.covers true x.j x.n prog (prog + 8 * hs.length)

/-- The ranges that a record touches in cluster and bulk memory (R228). -/
def Chk.rangesOf (c : Chk) (x : SRec) : List Rng :=
  match recKind x.r with
  | 1 =>
    let j := c.job x
    readRanges j ++ destRanges j ++ [(true, j.t.stage * 64, j.t.stage * 64 + j.stageBytes)]
  | 3 =>
    let d : RetD := ⟨x.r⟩
    let rows (sp base pitch len : Nat) : List Rng := if sp ≤ 1 then (retRows base pitch d.rows len).map fun r => (sp == 1, r.1, r.2) else []
    rows d.dstSpace d.dst d.dstPitch (d.rowUnits * 64) ++ (if d.op == 0 then rows d.srcSpace d.src d.srcPitch d.srcRowBytes else []) ++
      [(true, d.progCm * 64, d.progCm * 64 + 8)]
  | 4 =>
    let p : CobP := ⟨x.r⟩
    ((c.slabsOf p).map fun r => (false, r.1, r.2)) ++
      [(false, p.hyper * 64, p.hyper * 64 + 64), (true, p.progCm * 64, p.progCm * 64 + 8 * c.chans)]
  | _ => []

/-- Record `a` comes before record `b` by their unit's queue, or by tokens that it gives and `b` takes (R258). -/
def SRec.before (parts : Nat) (a b : SRec) : Bool :=
  let sameStream := a.j == b.j && a.n == b.n
  (sameStream && decide (a.pos < b.pos) && recUnit a.r == recUnit b.r) ||
  ((!sameStream || decide (a.pos < b.pos)) && (recWaits b.r).any fun w => w.2 != 0 &&
    (((recSigs a.r).any fun g => g.2 != 0 && g.1 == w.1) && a.j == b.j ||
     (recSends a.r).any fun g => g.2.1 != 0 && g.1 == w.1 && g.2.2 == b.j && decide (g.2.2 < parts)))

/-- The records reached from a set in one round. -/
def Chk.reach (c : Chk) : Nat → List SRec → List SRec
  | 0, l => l
  | k + 1, l =>
    let more := c.recs.filter fun b => !l.contains b && l.any fun a => a.before c.im.partCount b
    if more.isEmpty then l else c.reach k (l ++ more)

/-- Two records are ordered by sync objects. -/
def Chk.ordered (c : Chk) (a b : SRec) : Bool :=
  (c.reach c.recs.length [a]).contains b || (c.reach c.recs.length [b]).contains a

/-- The slabs that a record holds (R258, R276). -/
def Chk.slabUse (c : Chk) (x : SRec) : List (Nat × Nat) :=
  match recKind x.r with
  | 4 => c.slabsOf ⟨x.r⟩
  | 5 => c.phaseSlabs ⟨x.r⟩
  | _ => []

/-- No slab of a pass overlaps another of it, nor a slab of another pass or phase that is not ordered against it. -/
def Chk.slabOk (c : Chk) (x : SRec) : Bool :=
  let mine := c.slabUse x
  (recKind x.r != 4 || disjointAll mine) &&
  (mine.isEmpty || c.recs.all fun y => decide (x.xi ≤ y.xi) || !(recKind x.r == 4 || recKind y.r == 4) ||
    !((c.slabUse y).any fun a => mine.any fun b => meets a.1 a.2 b.1 b.2) || c.ordered x y)

/-- 0x29: buffers, ranges and slabs (R201, R228, R229, R258, R276). -/
def Chk.checkBuf (c : Chk) : Fail :=
  inOrder c.im [firstBad 8 c.im.bufs.length fun i => c.bufOk i && decide (i < 65535),
    c.firstRec fun x =>
      ((c.rangesOf x).all fun r => c.im.covers r.1 x.j x.n r.2.1 r.2.2) && c.slabOk x &&
      (match recKind x.r with | 3 => c.retOk ⟨x.r⟩ | 5 => c.phaseOk x | _ => true)]

/-! ### 0x2A and 0x2B: sync and Pack -/

/-- Tokens that a record takes and gives balance, and what is not used is zero (R209, R212, R230). -/
def Chk.syncRec (c : Chk) (x : SRec) : Bool :=
  let w := recWaits x.r
  let g := recSigs x.r
  let sd := recSends x.r
  (w.foldl (fun a e => a + e.2) 0) == (g.foldl (fun a e => a + e.2) 0) + (sd.foldl (fun a e => a + e.2.1) 0) &&
  w.all (fun e => e.2 != 0 || e.1 == 0) && g.all (fun e => e.2 != 0 || e.1 == 0) &&
  sd.all fun e => if e.2.1 == 0 then e.1 == 0 && e.2.2 == 0 else decide (e.2.2 < c.im.partCount)

/-- What a step gives to and takes from object `o` of partition index `j` (R210). -/
def Chk.flow (c : Chk) (j o : Nat) : Nat × Nat :=
  c.recs.foldl (fun acc x =>
    let mine := x.j == j
    let take := if mine then (recWaits x.r).foldl (fun a e => if e.1 == o then a + e.2 else a) 0 else 0
    let give := (if mine then (recSigs x.r).foldl (fun a e => if e.1 == o then a + e.2 else a) 0 else 0) +
      (recSends x.r).foldl (fun a e => if e.1 == o && e.2.2 == j then a + e.2.1 else a) 0
    (acc.1 + give, acc.2 + take)) (0, 0)

/-- 0x2A: R230. -/
def Chk.checkSync (c : Chk) : Fail :=
  inOrder c.im [c.firstRec c.syncRec,
    if (c.im.file 5).length != 4096 * c.im.partCount then some (5, noIndex)
    else firstOf [firstBad 5 (2048 * c.im.partCount) fun i => (c.flow (i / 2048) (i % 2048)).1 == (c.flow (i / 2048) (i % 2048)).2,
      if 0xFFFF < c.im.bounds.foldl (· + ·) 0 then some (5, noIndex) else none]]

/-- A Pack group (R231). -/
def Chk.groupOk (c : Chk) (g : Nat × Nat × Nat) : Bool :=
  let t := c.im.ranksTotal
  decide (g.1 < t) && decide (g.2.2 ≤ t / max 1 (gcdN g.2.1 t)) && !(hosted g t c.rankBase c.rankCount).isEmpty

/-- A permutation table is a bijection (R276). -/
def bijection (n : Nat) (v : List Nat) : Bool := v.length == n && (List.range n).all fun i => v.contains i

/-- A phase names a group, and its mapping is one (R231, R276). -/
def Chk.phasePack (c : Chk) (x : SRec) : Bool :=
  let p : PhaseR := ⟨x.r⟩
  match c.im.groups[p.group]? with
  | none => false
  | some g =>
    (p.op != 0 || decide (p.dist < g.2.2)) &&
    (p.op != 1 || match c.im.supplied (p.perm * 64) (2 * g.2.2) with
      | some bs => bijection g.2.2 (halves bs)
      | none => false)

/-- The phase with number 65,535 or more of its group in its cluster's stream order (R276). -/
def Chk.phaseCount (c : Chk) (x : SRec) : Bool :=
  let p : PhaseR := ⟨x.r⟩
  decide ((c.recs.filter fun y => recKind y.r == 5 && decide (y.xi ≤ x.xi) && (⟨y.r⟩ : PhaseR).group == p.group).length ≤ 65535)

/-- 0x2B: R231 and R276, with `free` Pack table entries. -/
def Chk.checkPack (c : Chk) (free : Nat) : Fail :=
  let n := c.im.groups.length
  inOrder c.im [
    if 4095 < n || free < n then some (6, noIndex) else firstBad 6 n fun i => c.groupOk ((c.im.groups[i]?).getD (0, 0, 0)),
    c.firstRec fun x => recKind x.r != 5 || (c.phasePack x && c.phaseCount x)]

end Sys2Proof.Machine
end

