-- ==== Sys2Proof/Machine/LoadFit.lean ====
section
/-! DEFINITION. Tick fit and the power envelope: the loader's charges and checks 0x2C and 0x2D
(spec/10_avavo_images_and_loader.md R232, R237, R238; spec/11_optimiser_and_masters.md R257;
spec/12_gradient_exchange_and_collectives.md R277). -/

namespace Sys2Proof.Machine

/-- A charge that no segment can hold: an arbitration weight of 0 moves no byte. -/
def never : Nat := 2 ^ 40

/-- ⌈bytes × den ÷ num⌉ for a rate of num ÷ den bytes per clk. -/
def overRate (bytes num den : Nat) : Nat := if bytes == 0 then 0 else if num == 0 then never else ceilDiv (bytes * den) num

/-- What the charges take from the package: arbitration weights and the Welt links between dies. -/
structure FitEnv where
  wCluster : Nat
  wCobbler : Nat
  wPort : Nat
  /-- Welt links crossed from die `a` to die `b`, under 4a + b (R23) -/
  paths : List (List Nat)
  deriving DecidableEq, Repr

def FitEnv.path (e : FitEnv) (a b : Nat) : List Nat := (e.paths[4 * a + b]?).getD []

/-- The environment of the present state. -/
def State.fitEnv (s : State) : FitEnv :=
  { wCluster := s.memc.wCluster, wCobbler := s.memc.wCobbler, wPort := s.memc.wPort,
    paths := (List.range 16).map fun i => (s.weltPath (i / 4) (i % 4)).getD [] }

/-! ### Charges (R237) -/

/-- A matrix-unit instruction: T of R136 over its passes, or the charge of a fallback set. -/
def Chk.matrixCharge (c : Chk) (x : SRec) : Nat :=
  let j := c.job x
  let d1 := c.last j.t.lastIdx
  let d2 := c.last (j.t.lastIdx + 1)
  let ps := (List.range (j.t.p * j.perProblem)).flatMap fun tile => (j.passes tile d1 d2).map fun p => (tile, p)
  let lens := ps.map fun e => e.2.sHi - e.2.sLo
  if j.side == .codes && j.w.trip != 0 && j.w.fbCode != j.w.fmtCode then
    63 + (if j.w.fbCode == 2 then 2 else 4) * lens.foldl (· + ·) 0
  else
    63 + (ps.foldl (fun (acc : Nat × Nat × Nat) e =>
      let key := j.statKey x.pos e.1 e.2
      let sm := j.sMin e.1 e.2 (if e.2.second then d2 else d1) (acc.2.2 == key)
      let len := e.2.sHi - e.2.sLo
      (acc.1 + (if acc.2.2 == 0 then 0 else max acc.2.1 sm - acc.2.1) + len, len, key)) (0, 0, 0)).1

/-- Token slots, rows in flight and build clk of the Awl (R154). -/
def awlSlots (m : Nat) : Nat := ([1, 2, 4, 8].find? fun x => decide (m ≤ x)).getD 8
def awlRows (f : Fmt) (m : Nat) : Nat := if f == .w2 || f == .tern then 256 / awlSlots m else min (256 / awlSlots m) 128
def awlBuild (f : Fmt) (m : Nat) : Nat := (match f with | .w4 => 8 | .w3 => 4 | .w2 => 2 | _ => 0) * awlSlots m

/-- T_awl of R155 over the instruction tiles. -/
def Chk.awlCharge (c : Chk) (x : SRec) : Nat :=
  let j := c.job x
  (List.range (j.t.p * j.perProblem)).foldl (fun a tile =>
    let m := (j.span tile 1).2
    let rows := ceilDiv (j.span tile 0).2 (awlRows j.w.fmt m)
    let chunks := ceilDiv (j.span tile 2).2 32
    let next := if tile + 1 < j.t.p * j.perProblem then awlBuild j.w.fmt (j.span (tile + 1) 1).2 else 0
    a + 12 + j.w.outliers * rows + (chunks - 1) * max (32 * rows) (awlBuild j.w.fmt m) + max (32 * rows) next) 0

/-- Weight of a chain operation (R237). -/
def opWeight (o : Nat) : Nat := if o == 0x0E || o == 0x0F || o == 0x10 || o == 0x11 || o == 0x12 || o == 8 then 4 else 1

/-- A vector instruction. -/
def vectorCharge (t : TileI) : Nat :=
  t.p * (32 + ceilDiv (t.m * t.n) 128 * (1 + (t.chain.foldl (fun a o => a + opWeight o) 0) + b2n (t.vred != 0)))

/-- Bytes that a Retriever descriptor moves in a space (R237). -/
def RetD.moved (d : RetD) (sp : Nat) : Nat :=
  (if d.op == 0 && d.srcSpace == sp then d.rows * d.srcRowBytes else 0) +
  (if d.op ≤ 1 && d.dstSpace == sp then d.rows * d.rowUnits * 64 else 0)

/-- A Retriever descriptor or port transfer; `busy` where a Cobbler pass or port transfer shares its rel_tick. -/
def Chk.retCharge (c : Chk) (e : FitEnv) (busy : Bool) (d : RetD) : Nat :=
  let w := if busy then e.wCluster else 16
  if 2 ≤ d.op then
    let g := if d.dstSpace == 0 then 256 else 64
    32 + ceilDiv (d.rows * ceilDiv (d.rowUnits * 64) g) 64
  else
    32 + max (max (ceilDiv (d.moved 1) 64) (overRate (d.moved 0) (c.chans * 128 * w) (18 * c.im.partCount * 16)))
      (max (ceilDiv (d.moved 2) 100) (ceilDiv (d.moved 3) 85))

/-- A Cobbler pass (R257); `shared` where another record of the rel_tick moves bulk bytes. -/
def Chk.passCharge (c : Chk) (e : FitEnv) (shared : Bool) (p : CobP) : Nat :=
  let C := c.chans
  let w := c.wset p.ws
  let pre := 64 + (if p.narrow then 64 * (p.books w).2 + 4 * w.outliers else 0)
  let gn := if shared then 128 * e.wCobbler else 128
  let gd := if shared then 16 else 1
  let bits := if p.narrow && w.trip != 0 then max w.fmt.bits (((Fmt.ofCode w.fbCode).getD .bf16).bits)
    else ((Fmt.ofCode p.emitC).getD .bf16).bits
  let mon := if p.narrow && w.trip != 0 then ceilDiv 256 C else 0
  let n := p.recs C 0 * p.k
  96 + ceilDiv pre 64 + (if p.op == 2 then 0 else max (ceilDiv n 4) (overRate (26 * n) gn gd)) +
    (if p.op == 0 then 0 else max (ceilDiv n 4) (overRate ((16 + bits) * n) (8 * gn) gd + overRate (2 * p.k * mon) gn gd))

/-- Bytes that member `i` sends and receives in stage `s` of a phase (R277). -/
def PhaseR.stageBytes (p : PhaseR) (n s i : Nat) : Nat × Nat :=
  if p.op == 2 then
    let mv := stageMoves n s
    let sum (l : List (Nat × Nat × Nat)) : Nat := l.foldl (fun a e => a + (shardOf p.len n e.2.2).2) 0
    (p.unitAll * sum (mv.filter fun e => e.1 == i), p.unitAll * sum (mv.filter fun e => e.2.1 == i))
  else (p.unitAll * p.len, p.unitAll * p.len)

/-- λ and ρ of a route class; class 0 is limited by bulk memory alone (R277). -/
def classCost (k : Nat) : Nat × Option Nat :=
  match k with | 0 => (32, none) | 1 => (180, some 200) | 2 => (700, some 400) | _ => (3300, some 800)

/-- A collective phase (R277). -/
def Chk.phaseCharge (c : Chk) (e : FitEnv) (p : PhaseR) : Nat :=
  let g := (c.im.groups[p.group]?).getD (0, 0, 0)
  let hs := hosted g c.im.ranksTotal c.rankBase c.rankCount
  let stages := if p.op == 2 then treeHeight g.2.2 else 1
  let lim (b : Nat) : Nat := overRate b (c.chans * 128 * e.wPort) (16 * (if p.combines then 3 else 2))
  let cost := classCost p.cls
  64 + (List.range stages).foldl (fun a s =>
    let b := hs.foldl (fun m i => max m (max (p.stageBytes g.2.2 s i).1 (p.stageBytes g.2.2 s i).2)) 0
    a + cost.1 + max (lim b) (match cost.2 with | some r => ceilDiv b r | none => 0)) 0

/-! ### Fit (R238) -/

/-- One segment: its mark, its partition index, its records. -/
structure Seg where
  mark : SRec
  recs : List SRec
  deriving DecidableEq, Repr

/-- The segments of a stream; the final mark opens none. -/
def segsOf (xs : List SRec) : List Seg :=
  (xs.foldl (fun (acc : List Seg) x =>
    if recKind x.r == 2 then (if markEnd x.r then acc else ⟨x, []⟩ :: acc)
    else match acc with
      | g :: gs => { g with recs := x :: g.recs } :: gs
      | [] => []) []).reverse.map fun g => { g with recs := g.recs.reverse }

/-- Bulk bytes that a record moves to and from its cluster. -/
def Chk.bulkMoved (c : Chk) (x : SRec) : Nat :=
  match recKind x.r with
  | 1 =>
    let j := c.job x
    (readRanges j ++ destRanges j).foldl (fun a r => if r.1 then a else a + (r.2.2 - r.2.1)) 0
  | 3 => (⟨x.r⟩ : RetD).moved 0
  | 5 =>
    let p : PhaseR := ⟨x.r⟩
    let g := (c.im.groups[p.group]?).getD (0, 0, 0)
    2 * p.unitAll * p.len * (hosted g c.im.ranksTotal c.rankBase c.rankCount).length
  | _ => 0

/-- The record is a Cobbler pass or a port transfer. -/
def SRec.slows (x : SRec) : Bool :=
  recKind x.r == 4 || (recKind x.r == 3 &&
    (decide (2 ≤ (⟨x.r⟩ : RetD).dstSpace) || ((⟨x.r⟩ : RetD).op == 0 && decide (2 ≤ (⟨x.r⟩ : RetD).srcSpace))))

/-- The charge of a record (R237). (DEDUCED, unsafe: notes/assumptions/47.md.) -/
def Chk.charge (c : Chk) (e : FitEnv) (busy : Bool) (movers : List SRec) (x : SRec) : Nat :=
  match recKind x.r with
  | 1 => match (⟨x.r⟩ : TileI).unit with
    | 2 => c.awlCharge x
    | 3 => vectorCharge ⟨x.r⟩
    | _ => c.matrixCharge x
  | 3 => c.retCharge e busy ⟨x.r⟩
  | 4 => c.passCharge e (movers.any fun y => y.xi != x.xi) ⟨x.r⟩
  | 5 => c.phaseCharge e ⟨x.r⟩
  | 6 =>
    let here := dieOf ((c.parts[x.j]?).getD 0)
    32 + 24 * (recSends x.r).foldl (fun m sd => if sd.2.1 == 0 then m else max m (e.path here (dieOf ((c.parts[sd.2.2]?).getD 0))).length) 0
  | _ => 0

/-- The first record of a segment whose finish time passes sched_len (R238). -/
def Chk.segOver (c : Chk) (e : FitEnv) (busy : Bool) (movers : List SRec) (g : Seg) : Option Nat :=
  (g.recs.foldl (fun (acc : Option Nat × List (Nat × Nat) × List (Nat × Nat)) x =>
    if acc.1.isSome then acc
    else
      let u := recUnit x.r
      let waits := ((recWaits x.r).filter fun w => w.2 != 0).map fun w => Tab.get acc.2.2 w.1 0
      let F := c.charge e busy movers x + waits.foldl max (Tab.get acc.2.1 u 0)
      let sigs := ((recSigs x.r).filter fun w => w.2 != 0).map (·.1) ++
        ((recSends x.r).filter fun w => w.2.1 != 0 && w.2.2 == x.j).map (·.1)
      (if markLen g.mark.r < F then some x.xi else none, Tab.set acc.2.1 u F, sigs.foldl (fun t o => Tab.set t o F) acc.2.2))
    (none, [], [])).1

/-- Bulk bytes that Welt link `l` carries at a rel_tick, times the channels of the context (R238). -/
def Chk.linkLoad (c : Chk) (e : FitEnv) (here : List SRec) (l : Nat) : Nat :=
  here.foldl (fun a x =>
    let die := dieOf ((c.parts[x.j]?).getD 0)
    a + c.bulkMoved x * 4 * (c.parts.filter fun g => (e.path die (dieOf g)).contains l).length) 0

/-- 0x2C: the period, and every segment against R238. -/
def Chk.checkFit (c : Chk) (e : FitEnv) (period : Nat) : Fail :=
  if c.im.period != period then some (0, noIndex)
  else
    let segs := c.streams.flatMap segsOf
    let dies := (c.parts.map dieOf).eraseDups
    let at_ (rel : Nat) : List SRec := (segs.filter fun g => g.mark.rel == rel).flatMap (·.recs)
    (segs.findSome? fun g =>
      let here := at_ g.mark.rel
      let movers := here.filter fun x => recKind x.r == 4 || c.bulkMoved x != 0
      match c.segOver e (here.any SRec.slows) movers g with
      | some i => some i
      | none =>
        if 1 < dies.length && (List.range 12).any fun l => decide (1818 * markLen g.mark.r * c.chans < c.linkLoad e here l)
        then some g.mark.xi else none).map fun i => (1, i)

/-! ### Power (R232) -/

/-- The step length: one more than the largest rel_tick (R232). -/
def Chk.stepLen (c : Chk) : Nat := 1 + c.recs.foldl (fun m x => if recKind x.r == 2 then max m x.rel else m) 0

/-- |a − b|. -/
def absDiff (a b : Nat) : Nat := (a - b) + (b - a)

/-- 0x2D: the power envelope, against the slew setting and L in mW. Zero padding follows the entries. -/
def Chk.checkPower (c : Chk) (slew limitMw : Nat) : Fail :=
  let n := c.stepLen
  let p := c.im.power
  let v (i : Nat) : Nat := (p[i]?).getD 0
  if c.im.slew != slew then some (0, noIndex)
  else if p.length < n || !((p.drop n).all (· == 0)) then some (7, noIndex)
  else firstBad 7 n fun i => decide (v i ≤ 16000) && decide (absDiff (v i) (v ((i + 1) % n)) * 100 ≤ limitMw)

/-- All checks after the digest, in the order of the reason codes (R235): reason, section, index. -/
def Chk.all (c : Chk) (e : FitEnv) (countK free period slew limitMw : Nat) (bound : Bool) : Option (Nat × Nat × Nat) :=
  let r (code : Nat) (f : Unit → Fail) : Unit → Option (Nat × Nat × Nat) := fun _ => (f ()).map fun x => (code, x.1, x.2)
  [r 0x22 fun _ => c.checkPlace countK bound, r 0x23 fun _ => c.checkEnc, r 0x24 fun _ => c.checkSeg, r 0x25 fun _ => c.checkTile,
    r 0x26 fun _ => c.checkStage, r 0x27 fun _ => c.checkLast, r 0x28 fun _ => c.checkWset, r 0x29 fun _ => c.checkBuf,
    r 0x2A fun _ => c.checkSync, r 0x2B fun _ => c.checkPack free, r 0x2C fun _ => c.checkFit e period,
    r 0x2D fun _ => c.checkPower slew limitMw].findSome? fun f => f ()

end Sys2Proof.Machine
end

