-- ==== Sys2Proof/Machine/Collective.lean ====
section
/-! DEFINITION. Collective phases at work and fabric packets: sending, routing, forwarding, the Collar, holding and
parking, combining on arrival and accepts (spec/12_gradient_exchange_and_collectives.md R262 to R280;
spec/15_fabric_links_and_topology.md R329 to R333, R343). -/

namespace Sys2Proof.Machine

/-! ### The plan of a phase (R267, R270, R271) -/

/-- One unit's transfer: sender, receiver, unit, where the sender holds it (0 source, 1 work area), where the
receiver writes it (1 work area, 2 destination), and where the receiver's own operand lies if it combines. -/
structure Xfer where
  a : Nat
  d : Nat
  u : Nat
  from_ : Nat
  into : Nat
  with_ : Option Nat
  deriving DecidableEq, Repr

/-- Where the holder of node (s, j) of T(n) has it: still in its source, or in its work area (R270). -/
def nodeLoc (n : Nat) : Nat → Nat → Nat
  | 0, _ => 0
  | s + 1, j => if nodeHere n s (2 * j + 1) then 1 else nodeLoc n s (2 * j)

/-- The unit numbers of shard `q` of `n`. -/
def shardUnits (v n q : Nat) : List Nat := (List.range (shardOf v n q).2).map ((shardOf v n q).1 + ·)

/-- Stage `s` of T(n) over `v` blocks, among the members that `lead` names; `base` is where leaves lie and `last`
where the final stage writes (R270). -/
def treeStage (v n s base last : Nat) (lead : Nat → Nat) : List Xfer :=
  (List.range n).flatMap fun q => (List.range (2 ^ (treeHeight n - s - 1))).flatMap fun j =>
    if nodeHere n s (2 * j + 1) then
      let d := holder n q (s + 1) j
      let l := holder n q s (2 * j)
      let r := holder n q s (2 * j + 1)
      let loc (jj : Nat) : Nat := max base (nodeLoc n s jj)
      let x := if d == l then (r, loc (2 * j + 1), loc (2 * j)) else (l, loc (2 * j), loc (2 * j + 1))
      (shardUnits v n q).map fun u =>
        ⟨lead x.1, lead d, u, x.2.1, if s + 1 == treeHeight n then last else 1, some x.2.2⟩
    else []

/-- The host blocks of a group: maximal runs of members hosted by one device, each as its lowest member and its
length (R271). -/
def hostBlocks (devs : List Nat) : List (Nat × Nat) :=
  ((devs.zip (List.range devs.length)).foldl (fun (acc : List (Nat × Nat × Nat)) e =>
    match acc with
    | (dv, lo, k) :: t => if dv == e.1 then (dv, lo, k + 1) :: t else (e.1, e.2, 1) :: acc
    | [] => [(e.1, e.2, 1)]) []).reverse.map fun e => e.2

/-- The stages of a phase on `n` members: `pi` is the permutation of op 1, `devs` the devices of the members where
the reduction is device-major. -/
def PhaseR.plan (p : PhaseR) (n : Nat) (pi : List Nat) (devs : Option (List Nat)) : List (List Xfer) :=
  if p.op == 2 then
    match devs with
    | none => (List.range (treeHeight n)).map fun s => treeStage p.len n s 0 2 id
    | some ds =>
      let hb := hostBlocks ds
      let m := hb.length
      let lead (i : Nat) : Nat := ((hb[i]?).getD (0, 0)).1
      let q' (u : Nat) : Nat := ((List.range m).find? fun q => (shardUnits p.len m q).contains u).getD 0
      ((List.range (treeHeight m)).map fun s => treeStage p.len m s 1 1 lead) ++
        [(List.range n).flatMap fun q => (shardUnits p.len n q).map fun u => ⟨lead (q' u), q, u, 1, 2, none⟩]
  else
    let dest (i : Nat) : Nat := if p.op == 0 then (i + p.dist) % n else (pi[i]?).getD 0
    [(List.range n).flatMap fun i => (List.range p.len).map fun u =>
      ⟨i, dest i, u, 0, 2, if p.combine then some 2 else none⟩]

/-- A phase that a cluster runs, with what its group and its image give it. (DEDUCED, unsafe: notes/assumptions/57.md.) -/
structure Ph where
  c : Nat
  g : Nat
  n : Nat
  r : Run
  grp : Nat × Nat × Nat
  total : Nat
  here : List Nat
  chans : Nat
  plan : List (List Xfer)
  deriving DecidableEq, Repr

def Ph.p (x : Ph) : PhaseR := ⟨x.r.rec_⟩
def Ph.ag (x : Ph) : Agent := agentOf x.c x.g x.n 4 x.r.instr
def Ph.k (x : Ph) : Nat := 18 * x.g + x.n
def Ph.phase (x : Ph) : Nat := (x.r.aux[0]?).getD 0
def Ph.rank (x : Ph) (m : Nat) : Nat := memberRank x.grp x.total m

/-- The phase that run `r` of a cluster is. Its aux words are its number, whether it is device-major, and then the
permutation or the members' devices as they were when it started. -/
def State.phaseOf (s : State) (c g n : Nat) (r : Run) : Ph :=
  let im := s.image c
  let p : PhaseR := ⟨r.rec_⟩
  let grp := (im.groups[p.group]?).getD (0, 1, 1)
  let more := r.aux.drop 2
  { c, g, n, r, grp, total := im.ranksTotal, here := hosted grp im.ranksTotal im.rankBase im.ranksHosted,
    chans := (s.chList c).length,
    plan := p.plan grp.2.2 more (if (r.aux[1]?).getD 0 == 1 then some more else none) }

/-- Counts of a member at a stage: kind 0 sent, 1 accepted, 2 received, 3 received and told to the sender. -/
def cntKey (m st kind : Nat) : Nat := (m * 64 + st) * 4 + kind
def Ph.cnt (x : Ph) (m st kind : Nat) : Nat := Tab.get x.r.cnts (cntKey m st kind) 0
def Ph.sends (x : Ph) (m st : Nat) : List Xfer := ((x.plan[st]?).getD []).filter fun t => t.a == m
def Ph.recvs (x : Ph) (m st : Nat) : List Xfer := ((x.plan[st]?).getD []).filter fun t => t.d == m

/-- Every earlier write of unit `u` at member `m` has been made (R270). -/
def Ph.ready (x : Ph) (m u st : Nat) : Bool :=
  (List.range st).all fun t =>
    let l := (x.recvs m t).map (·.u)
    !l.contains u || decide ((l.takeWhile (· != u)).length < x.cnt m t 2)

/-- Add to a count of the run. -/
def State.bumpCnt (s : State) (x : Ph) (m st kind n : Nat) : State :=
  s.modRunOf x.k x.r.idx fun r => { r with cnts := Tab.set r.cnts (cntKey m st kind) (Tab.get r.cnts (cntKey m st kind) 0 + n) }

/-- The phase with its run as it is now. -/
def State.refresh (s : State) (x : Ph) : Ph :=
  match (s.clu x.k).runs.find? fun r => r.idx == x.r.idx with
  | some r => { x with r := r }
  | none => x

/-- Data and exponent addresses of unit `u` of member `m` at a place (R265). -/
def State.phAddr (s : State) (x : Ph) (m u loc : Nat) : Nat × Nat :=
  let p := x.p
  let o := ordinalOf x.here m
  let n := x.grp.2.2
  let v := if loc == 2 && p.op == 2 then u - (shardOf p.len n m).1 else u
  let b := match loc with | 0 => (p.src, p.srcExp) | 1 => (p.wrk, p.wrkExp) | _ => (p.dst, p.dstExp)
  let slab := (loc == 0 && p.slab == 2) || (loc == 2 && p.slab == 1)
  let im := s.image x.c
  (im.subst false 0 0 x.r.rep (p.dataAddr x.chans n slab (loc == 2) b.1 o v),
    im.subst false 0 0 x.r.rep (p.expAddr x.chans n slab (loc == 2) b.2 o v))

/-- Read a unit: its status and its bytes, mantissas and then the exponent for GX16. -/
def State.readUnit (s : State) (x : Ph) (m u loc : Nat) : Nat × List Byte × State :=
  let a := s.phAddr x m u loc
  let r := s.readRange x.ag 0 a.1 x.p.unit
  if r.1 != 0 || !x.p.gx then r
  else
    let e := r.2.2.readRange x.ag 0 a.2 1
    (e.1, r.2.1 ++ e.2.1, e.2.2)

/-- Write a unit. -/
def State.writeUnit (s : State) (x : Ph) (m u loc : Nat) (bs : List Byte) : State :=
  let a := s.phAddr x m u loc
  let s1 := (s.writeRange x.ag 0 a.1 (bs.take x.p.unit)).2
  if x.p.gx then (s1.writeRange x.ag 0 a.2 (slice bs x.p.unit 1)).2 else s1

/-- The progress word of a member (R274): stages completed and units of the next one. -/
def Ph.word (x : Ph) (m : Nat) : Nat :=
  let done := ((List.range x.plan.length).takeWhile fun t => decide ((x.recvs m t).length ≤ x.cnt m t 2)).length
  at' done 28 + if done < x.plan.length then x.cnt m done 2 else 0

/-- Write the progress word of a member (R274). -/
def State.phWord (s : State) (x : Ph) (m v : Nat) : State :=
  (s.writeRange x.ag 1 (x.p.progCm * 64 + 8 * ordinalOf x.here m) (leBytes 4 v ++ leBytes 4 (0xFFFFFFFF - v % 2 ^ 32))).2

/-- Every unit of every hosted member has been accepted and written (R266). -/
def Ph.complete (x : Ph) : Bool :=
  x.here.all fun m => (List.range x.plan.length).all fun t =>
    decide ((x.sends m t).length ≤ x.cnt m t 1) && decide ((x.recvs m t).length ≤ x.cnt m t 2)

/-- Every unit of every hosted member has been sent: the Retriever may start its next record (R159). -/
def Ph.allSent (x : Ph) : Bool :=
  x.here.all fun m => (List.range x.plan.length).all fun t => decide ((x.sends m t).length ≤ x.cnt m t 0)

/-- A complete phase may retire. -/
def State.phDone (s : State) (x : Ph) : State :=
  let y := s.refresh x
  if y.complete then s.modRunOf x.k x.r.idx fun r => { r with issued := true, finished := true }
  else if y.allSent then s.modRunOf x.k x.r.idx fun r => { r with issued := true }
  else s

/-! ### Routing (R332) -/

/-- The ports of the mask of a route word, ascending (R321, R332). -/
def routePorts (w : Nat) : List Nat :=
  match fld w 30 29 with
  | 1 => (bitsOf 16 w).filter (· < 3)
  | 2 => ((bitsOf 16 w).filter (· < 4)).map (3 + ·)
  | 3 => (bitsOf 16 w).map (7 + ·)
  | _ => []

/-- The port that a packet takes: the outer `none` where the entry is not valid or names the device itself, the
inner one where no port of the mask is up. -/
def State.routeTo (s : State) (k : Packet) : Option (Option Nat) :=
  let w := Tab.get s.fab.route k.dstDev 0
  if !bitOf w 31 || fld w 30 29 == 0 then none
  else
    let up := (routePorts w).filter fun p => (s.port p).state == 3
    if up.isEmpty then some none
    else
      let h := (k.dstDev * 0x9E3779B1 + k.index * 0x85EBCA77 + k.group) % 2 ^ 32 % 2 ^ 16
      some (up[h % up.length]?)

/-- The channel of a packet that the device itself sends (R322). -/
def pktVc (k : Packet) : Nat := if k.typ == 0x12 || k.typ == 0x13 then 0 else 1

/-- Report ST_LINK_DOWN for the ports of a route's mask, none of which is up (R332). -/
def State.maskDown (s : State) (dst : Nat) : State :=
  (routePorts (Tab.get s.fab.route dst 0)).foldl (fun t p => t.report 0 9 stLinkDown noPart noCtx p) s

/-! ### The Collar (R330, R331) -/

/-- The job slot that holds a job id. -/
def State.slotOfJob (s : State) (job : Nat) : Option Nat :=
  (List.range 16).find? fun i => (s.job_ i).valid && (s.job_ i).jobId == job

/-- The context bound to a slot that hosts a rank (R263). -/
def State.ctxOfRank (s : State) (slot rank : Nat) : Option Nat :=
  (s.boundTo slot).find? fun c =>
    let im := s.image c
    decide (im.rankBase ≤ rank) && decide (rank < im.rankBase + im.ranksHosted)

/-- The epoch difference as a signed 32-bit value (R330). -/
def epochDiff (pkt slot : Nat) : Int := signed 32 ((pkt + 2 ^ 32 - slot) % 2 ^ 32)

/-- Report a discard of a port at most once per tick and kind (R330). -/
def State.tellPort (s : State) (p kind status : Nat) (ctx : Nat := noCtx) : State :=
  if 22 < p then s.report 0 9 status noPart ctx 0
  else if (s.port p).told.contains (kind, s.tickNo) then s
  else (s.modPort p fun x => { x with
    lastStatus := status, told := (kind, s.tickNo) :: x.told.filter fun e => e.1 != kind }).report 0 9 status noPart ctx p

/-- Free the buffers of a packet (R323). -/
def State.freePkt (s : State) (h : HeldPkt) : State := s.freeBufs h.port h.vc h.gen (1 + h.pkt.data.length / 64)

/-- A packet of another job or for a rank that is not hosted (R330 checks 1 and 2). -/
def State.dropForeign (s : State) (h : HeldPkt) : State :=
  let s1 := s.freePkt h
  let s2 := if 22 < h.port then s1 else s1.modPort h.port fun x => { x with foreign := satAdd 0xFFFF x.foreign 1 }
  s2.tellPort h.port 1 stCollarForeign

def State.modPack (s : State) (c : Nat) (f : PackCtx → PackCtx) : State :=
  { s with packCtx := Tab.set s.packCtx c (f (Tab.get s.packCtx c {})) }

/-- A packet of a stale epoch (R266, R280). -/
def State.dropStale (s : State) (h : HeldPkt) (c : Nat) : State :=
  ((s.freePkt h).tellPort h.port 2 stEpochStale c).modPack c fun x => { x with staleDrops := satAdd 0xFFFF x.staleDrops 1 }

/-- Cells that a park holds. -/
def FabJob.cells (j : FabJob) : Nat := j.park.foldl (fun a e => a + 1 + e.2.data.length / 64) 0

/-- A packet keeps its buffers until it can be taken. -/
def State.hold (s : State) (h : HeldPkt) : State := { s with fab := { s.fab with held := s.fab.held ++ [h] } }

/-! ### Delivery of a unit (R266 to R268) -/

/-- The phases that a context runs, with their runs. -/
def State.phases (s : State) (c : Nat) : List Ph :=
  (s.partsOf c).flatMap fun g => if s.residentOf g == some c then
    (List.range 18).flatMap fun n => ((s.clu (18 * g + n)).runs.filter fun r => recKind r.rec_ == 5 && r.begun).map (s.phaseOf c g n)
    else []

/-- The phase that a packet names, if it is issued. -/
def State.phaseFor (s : State) (c : Nat) (k : Packet) : Option Ph :=
  (s.phases c).find? fun x => x.p.group == k.group && x.phase == k.phase

/-- Tell a sender of another device what it has had accepted (R329). -/
def State.tellAccept (s : State) (x : Ph) (d st : Nat) (k : Packet) : State :=
  let rl := x.recvs d st
  let got := x.cnt d st 2
  let owed := got - x.cnt d st 3
  let next := (rl[got]?).map (·.a)
  let same := next.isSome && next == (rl[got - 1]?).map (·.a)
  if owed == 0 || (owed < 64 && same) then s
  else
    (s.bumpCnt x d st 3 owed).emit {
      typ := 0x13, aux := owed, phase := k.phase, group := k.group, stage := st, srcRank := k.rank, rank := k.srcRank,
      epoch := k.epoch, job := k.job, srcDev := s.fab.num, dstDev := k.srcDev }

/-- A sender's units accepted at their destination (R274, R329). -/
def State.accepted (s : State) (c : Nat) (group phase st rank n : Nat) : State :=
  match s.phaseFor c { typ := 0x13, group := group, phase := phase } with
  | none => s
  | some x => match x.here.find? fun m => x.rank m == rank with
    | none => s
    | some m => (s.bumpCnt x m st 1 n).phDone x

/-- COMBINE_ON_ARRIVAL (R268): the arriving bytes combined with the receiver's own operand: the status of reading it,
the bytes to write, whether the work stops, the state. -/
def State.combine (s : State) (x : Ph) (d u loc : Nat) (bs : List Byte) : Nat × List Byte × Option Nat × State :=
  let r := s.readUnit x d u loc
  if r.1 != 0 then (r.1, [], none, r.2.2)
  else
    let gx (b : List Byte) : Gx := Gx.ofBytes ((b[128]?).getD 0).toNat (b.take 128)
    let y := (gx r.2.1).comb (gx bs)
    let ch := match r.2.2.bulkLoc x.c (r.2.2.phAddr x d u 2).1 with | some key => key / chanBytes | none => 0
    let z := r.2.2.raise { x.ag with unit := 6, loc := ch } x.r.mask u 0 y.2
    let s1 := z.2.modPack x.c fun q => { q with
      combined := satAdd 0xFFFFFFFF q.combined 1, clamps := satAdd 0xFFFF q.clamps (b2n (y.2.ovf != 0)) }
    (0, y.1.mantBytes ++ [BitVec.ofNat 8 y.1.e], z.1, s1)

/-- What came of a delivery. -/
inductive Took where
  /-- written, or not wanted: its buffers are free -/
  | done (s : State)
  /-- it waits -/
  | wait
  deriving DecidableEq, Repr

/-- Deliver a collective unit to the context that hosts its rank (R266 to R268, R280, R372). -/
def State.takeUnitPkt (s : State) (c : Nat) (k : Packet) : Took :=
  match s.phaseFor c k with
  | none => if k.phase < Tab.get (s.run c).phases k.group 0 || s.fencedOff c then .done s else .wait
  | some x =>
    if x.r.finished then .done s
    else match x.here.find? fun m => x.rank m == k.rank with
      | none => .done s
      | some d =>
        let rl := x.recvs d k.stage
        let got := x.cnt d k.stage 2
        let at_ := ((rl.map (·.u)).takeWhile (· != k.index)).length
        match rl[at_]? with
        | none => .done s
        | some t =>
          if at_ < got then .done s
          else if got < at_ then .wait
          else if t.with_.isSome && !x.ready d t.u k.stage then .wait
          else if s.locked c (s.phAddr x d t.u t.into).1 x.p.unit then .wait
          else if (s.bulkLoc c (s.phAddr x d t.u t.into).1).any (s.walled x.ag) then .done (s.endRun x.k x.r.idx stFenced)
          else
            let y := match t.with_ with
              | some loc => s.combine x d t.u loc k.data
              | none => (0, k.data, none, s)
            if y.1 != 0 then .done (y.2.2.2.endRun x.k x.r.idx y.1)
            else
              let s1 := ((y.2.2.2.writeUnit x d t.u t.into y.2.1).bumpCnt x d k.stage 2 1).progress x.g
              let x1 := s1.refresh x
              let s2 := s1.phWord x1 d (x1.word d)
              let s3 := if k.srcDev == s.fab.num then s2.accepted c k.group k.phase k.stage k.srcRank 1 else s2.tellAccept x1 d k.stage k
              .done (match y.2.2.1 with
                | some st => s3.endRun x.k x.r.idx st true
                | none => s3.phDone x1)

/-- A packet for this device goes through R330's checks: discarded, parked, held or delivered. -/
def State.arrive (s : State) (h : HeldPkt) : State :=
  let k := h.pkt
  match s.slotOfJob k.job with
  | none => s.dropForeign h
  | some slot => match s.ctxOfRank slot k.rank with
    | none => s.dropForeign h
    | some c =>
      let δ := epochDiff k.epoch (s.job_ slot).epoch.nat
      if δ < 0 then s.dropStale h c
      else if 0 < δ then
        if 64 < (s.job_ slot).cells + 1 + k.data.length / 64 then s.hold h
        else (s.freePkt h).modJob slot fun j => { j with park := j.park ++ [(h.port, k)] }
      else if k.typ == 0x10 then
        match s.takeUnitPkt c k with
        | .done t => t.freePkt h
        | .wait => s.hold h
      else if k.typ == 0x13 && k.group == 0xFFF then (s.ledgerAccept c k.phase k.aux).freePkt h
      else if k.typ == 0x13 then (s.accepted c k.group k.phase k.stage k.rank k.aux).freePkt h
      else s.freePkt h

/-- PACKET_FORWARD (R333): a packet for another device goes on by this device's own route entry, with hops one
higher and in its arrival channel, or from VC1 into VC2 where it came by a dateline port. -/
def State.forward (s : State) (h : HeldPkt) : State :=
  let drop : State := ((s.freePkt h).modPort h.port fun x => { x with noRoute := satAdd 0xFFFF x.noRoute 1 }).tellPort h.port 3 stNoRoute
  if 8 ≤ h.pkt.hops then drop
  else match s.routeTo h.pkt with
    | none => drop
    | some none => (s.maskDown h.pkt.dstDev).hold h
    | some (some p) =>
      let v := if h.vc == 1 && (s.port h.port).dateline then 2 else h.vc
      (s.freePkt h).givePacket p v { h.pkt with hops := h.pkt.hops + 1 }

/-- The packet is addressed to this device (R330). -/
def State.mine (s : State) (k : Packet) : Bool := s.fab.role == 1 && k.dstDev == s.fab.num

/-- Try the held packets again, oldest first. -/
def State.retryOnce (s : State) : State :=
  s.fab.held.foldl (fun t h => if t.mine h.pkt then t.arrive h else t.forward h) { s with fab := { s.fab with held := [] } }

/-- Try the held packets until none can be taken. -/
def State.retryHeld (s : State) : State := (List.range (s.fab.held.length + 1)).foldl (fun t _ => t.retryOnce) s

/-- PACKET_ROUTE: the outgoing packet at place `i` of the device's waiting packets is given a port from its route
mask, waits for one to come up, or is discarded where its entry is not valid (R332). -/
def execPacketRoute (i : Nat) (s : State) : Host.Outcome State Fault Refusal :=
  match s.fab.waiting[i]? with
  | none => .next s
  | some k =>
    let s1 := { s with fab := { s.fab with waiting := s.fab.waiting.eraseIdx i } }
    if s.mine k then .next ((s1.arrive ⟨63, pktVc k, 256, k⟩).retryHeld) else match s.routeTo k with
    | none => .next (s1.report 0 9 stNoRoute)
    | some none => .next (s.maskDown k.dstDev)
    | some (some p) => .next (s1.givePacket p (pktVc k) k)

/-- EPOCH_INSTALL (R331): the slot takes an epoch; parked packets of it are delivered in order, older ones
discarded. -/
def State.installEpoch (s : State) (slot epoch : Nat) : State :=
  let park := (s.job_ slot).park
  let s1 := s.modJob slot fun j => { j with epoch := pairOf 32 epoch, park := [] }
  (park.foldl (fun t e => t.arrive ⟨e.1, 1, 256, e.2⟩) s1).retryHeld

/-! ### Sending a phase (R265 to R267, R270) -/

/-- Send one unit of a hosted member: read it and hand it to its destination. Answers the status of the read. -/
def State.sendUnit (s : State) (x : Ph) (st : Nat) (t : Xfer) : Nat × State :=
  let r := s.readUnit x t.a t.u t.from_
  if r.1 != 0 then (r.1, r.2.2)
  else
    let s1 := r.2.2.bumpCnt x t.a st 0 1
    let slot := (s.jobOf x.c).getD 0
    let dev := s.devOfRank slot (x.rank t.d)
    let k : Packet := {
      typ := 0x10, index := t.u, phase := x.phase, group := x.p.group, stage := st, srcRank := x.rank t.a,
      rank := x.rank t.d, epoch := (s.job_ slot).epoch.nat, job := (s.job_ slot).jobId, srcDev := s.fab.num,
      dstDev := dev, data := padTo (ceilDiv r.2.1.length 64 * 64) r.2.1 }
    (0, if dev == s.fab.num then s1.arrive ⟨63, 1, 256, k⟩ else s1.emit k)

/-- A member's units of a stage from the first not sent, as far as their operands are written; a read that fails
ends the phase at that unit (R270, R280). (DESIGN CHOICE, safe: notes/assumptions/55.md.) -/
def State.sendStage (s : State) (x : Ph) (m st : Nat) : State :=
  let r := ((x.sends m st).drop (x.cnt m st 0)).foldl (fun (acc : Bool × State) t =>
    let y := acc.2.refresh x
    if acc.1 || y.r.finished || !y.ready m t.u st then (true, acc.2)
    else
      let z := acc.2.sendUnit y st t
      if z.1 != 0 then (true, z.2.endRun x.k x.r.idx z.1) else (false, z.2)) (false, s)
  r.2.retryHeld.phDone x

/-- The fold of a host block in device-major order (R271): FP32 from −0 over the leaves, encoded once into the work area of the
block's lowest member, with its events (R114). Answers the status that ends the phase, if one does. -/
def State.foldBlock (s : State) (x : Ph) (lo n u : Nat) : Nat × State :=
  let r := (List.range n).foldl (fun (acc : Nat × List (Val × Evs) × State) i =>
    if acc.1 != 0 then acc
    else
      let y := acc.2.2.readUnit x (lo + i) u 0
      if y.1 != 0 then (y.1, [], y.2.2)
      else
        let b := Gx.ofBytes ((y.2.1[128]?).getD 0).toNat (y.2.1.take 128)
        (0, (List.range 64).map fun k =>
          let v := (acc.2.1[k]?).getD (negZero, {})
          let z := add32 x.p.sat v.1 (b.elem k)
          (z.1, v.2.add z.2), y.2.2))
    (0, List.replicate 64 (negZero, {}), s)
  if r.1 != 0 then (r.1, r.2.2)
  else
    let g := toGx (r.2.1.map (·.1))
    let ch := match r.2.2.bulkLoc x.c (r.2.2.phAddr x lo u 1).1 with | some key => key / chanBytes | none => 0
    let z := r.2.2.raise { x.ag with unit := 6, loc := ch } x.r.mask u 0 ((r.2.1.map (·.2.cap)).foldl Evs.add g.2)
    (z.1.getD 0, z.2.writeUnit x lo u 1 (g.1.mantBytes ++ [BitVec.ofNat 8 g.1.e]))

/-- The folds of the host blocks of this device (R271). -/
def State.foldAll (s : State) (x : Ph) (devs : List Nat) : Nat × State :=
  ((hostBlocks devs).filter fun b => x.here.contains b.1).foldl (fun (acc : Nat × State) b =>
    (List.range x.p.len).foldl (fun (a : Nat × State) u => if a.1 != 0 then a else a.2.foldBlock x b.1 b.2 u) acc) (0, s)

/-- A collective phase starts (R266): it takes its number, its progress words are 0, and a shift or permutation
begins to send. -/
def State.startPhase (s : State) (c g n : Nat) (r : Run) : State :=
  let p : PhaseR := ⟨r.rec_⟩
  let k := 18 * g + n
  let im := s.image c
  let grp := (im.groups[p.group]?).getD (0, 1, 1)
  let num := Tab.get (s.run c).phases p.group 0
  let s1 := s.modRun c fun x => { x with phases := Tab.set x.phases p.group (num + 1) }
  let major := p.op == 2 && !s.glb.deterministic
  let slot := (s.jobOf c).getD 0
  let tbl := if p.op == 1 then s1.readRange (agentOf c g n 4 r.instr) 0 (im.subst false 0 0 r.rep (p.perm * 64)) (2 * grp.2.2) else (0, [], s1)
  let devs := (List.range grp.2.2).map fun i => s.devOfRank slot (memberRank grp im.ranksTotal i)
  let aux := [num, b2n major] ++ if major then devs else if p.op == 1 then (List.range grp.2.2).map fun i => leAt tbl.2.1 (2 * i) 2 else []
  let s2 := tbl.2.2.modRunOf k r.idx fun x => { x with begun := true, aux := aux }
  if tbl.1 != 0 then s2.endRun k r.idx tbl.1
  else
    let x := s2.refresh (s2.phaseOf c g n { r with aux := aux })
    let s3 := x.here.foldl (fun t m => t.phWord x m 0) s2
    let f := if major then s3.foldAll x devs else (0, s3)
    if f.1 != 0 then f.2.endRun k r.idx f.1 (f.1 == stArith || f.1 == stRsvdEncoding)
    else
      let s4 := if p.op == 2 then f.2 else x.here.foldl (fun t m => t.sendStage (t.refresh x) m 0) f.2
      s4.retryHeld.phDone x

/-- REDUCE_STAGE: a hosted member's stage of a reduce phase begins for the blocks whose local operands are written
(R270). -/
def execReduceStage (g n idx m st : Nat) (s : State) : Host.Outcome State Fault Refusal :=
  match s.mayIssue g with
  | none => .next s
  | some c => match (s.clu (18 * g + n)).runs.find? fun r => r.idx == idx && recKind r.rec_ == 5 && r.begun && !r.finished with
    | none => .next s
    | some r =>
      let x := s.phaseOf c g n r
      if x.p.op == 2 && x.here.contains m && decide (st < x.plan.length) then .next (s.sendStage x m st) else .next s

/-! ### Packets from the links (R330, R333) -/

/-- A packet is taken from a port's buffers. -/
def State.fromLink (s : State) (h : HeldPkt) : State :=
  if s.mine h.pkt then (s.arrive h).retryHeld else s.forward h

/-- The frames of a packet lie in a port's buffers. -/
def State.hasCells (s : State) (p v : Nat) (k : Packet) : Bool :=
  decide (p < 23) && (s.port p).state == 3 && decide (1 + k.data.length / 64 ≤ ((s.port p).vc v).o.nat)

/-- FABRIC_PACKET_RECEIVE: a packet taken in order from a port's channel is checked by Collar and epoch and is
delivered, parked, held or discarded, or goes on to another device (R266 to R268, R330, R331, R333). -/
def execFabricPacketReceive (p v : Nat) (k : Packet) (s : State) : Host.Outcome State Fault Refusal :=
  if s.hasCells p v k then .next (s.fromLink ⟨p, v, (s.port p).gen, k⟩) else .next s

/-- ACCEPT_RECEIVE: an accept packet marks a run of units as accepted at the destination (R329). -/
def execAcceptReceive (p v : Nat) (k : Packet) (s : State) : Host.Outcome State Fault Refusal :=
  if s.hasCells p v k && k.typ == 0x13 then .next (s.fromLink ⟨p, v, (s.port p).gen, k⟩) else .next s

/-! ### Job slots (R331, R342) -/

/-- FAB_JOB_WRITE: a write of a job slot's job_id is accepted while no context bound to the slot is loaded, one of its
epoch while none is released; otherwise it is refused (R331, R342). -/
def execFabJobWrite (slot : Nat) (epoch : Bool) (value : Nat) (s : State) : Host.Outcome State Fault Refusal :=
  let cs := s.boundTo slot
  if epoch then
    if cs.any fun c => s.released c then .next s.fabRefuse else .next (s.installEpoch slot (value % 2 ^ 32))
  else if cs.any fun c => (s.load c).state == 4 then .next s.fabRefuse
  else .next (s.modJob slot fun j => { j with jobId := value % 2 ^ 32 })

/-- DETERMINISTIC_WRITE: a write to GLB_DET takes effect only while no context is loaded, and otherwise sets
det_refused; det_refused is cleared by writing 1 (R273, R278). -/
def execDeterministicWrite (value : Nat) (s : State) : Host.Outcome State Fault Refusal :=
  let loaded := s.loads.any fun e => e.2.state == 4
  let cleared := s.glb.detRefused && !bitOf value 1
  if loaded then .next { s with glb := { s.glb with detRefused := true } }
  else .next { s with glb := { s.glb with
    detRefused := cleared, deterministic := bitOf value 0, digestStale := s.glb.digestStale || bitOf value 0 != s.glb.deterministic } }

end Sys2Proof.Machine
end

