-- ==== Sys2Proof/Machine/Port.lean ====
section
/-! DEFINITION. Transfers of the host and storage ports: permission, requests, arriving data, endings
(spec/19_host_and_service_ports.md R402, R404, R407, R409; spec/08_memory.md R199, R200). -/

namespace Sys2Proof.Machine

def State.qp (s : State) (q : Nat) : Qp := Tab.get s.stor.qps q {}
def State.modQp (s : State) (q : Nat) (f : Qp → Qp) : State :=
  { s with stor := { s.stor with qps := Tab.set s.stor.qps q (f (s.qp q)) } }
def State.sport (s : State) (p : Nat) : StorPort := (s.stor.ports[p]?).getD {}
def State.modSport (s : State) (p : Nat) (f : StorPort → StorPort) : State :=
  { s with stor := { s.stor with ports := s.stor.ports.set p (f (s.sport p)) } }

/-- HOST_CTX_FN binds context `c` to function `f` (R402). -/
def State.bound (s : State) (c f : Nat) : Bool :=
  let w := Tab.get s.host.ctxFn c 0
  bitOf w 31 && fld w 5 0 == f

/-- Why an operation of context `c` on a port ends at issue, 0 where it proceeds (R402, R404, R407, R409): space 2 is
the host, 3 storage; `q` the function or queue pair. -/
def State.portDeny (s : State) (c space q : Nat) : Nat :=
  if space == 2 then
    if q / 64 != 0 || !s.bound c q then stPortDenied else if !(s.fn q).bme then stHostDisabled else 0
  else if space == 3 then
    if (s.qp q).ctx != c || (s.qp q).state == 0 then stPortDenied else if (s.qp q).state == 2 then stStorQp else 0
  else 0

/-- Tags of the host port in use, quarantined ones too (R400, R404). -/
def State.hostTags (s : State) : Nat := (s.tags.filter fun t => t.space == 2).length

/-- A further read can be issued (R400, R404, R407, R408): for storage, the queue pair ready, its port up and not
paused, fewer than 16 reads open. -/
def State.canRead (s : State) (space q : Nat) : Bool :=
  if space == 2 then (s.fn q).bme && decide (s.hostTags < 512)
  else (s.qp q).state == 1 && (s.sport (s.qp q).port).up && !(s.sport (s.qp q).port).paused &&
    decide ((s.tags.filter fun t => t.space == 3 && t.qp == q).length < 16)

/-- The lowest tag number not in use. -/
def State.freeTag (s : State) : Nat := ((List.range (s.tags.length + 1)).find? fun i => !(s.tags.any fun t => t.id == i)).getD 0

/-- Issue a read: its tag is open and its request leaves. -/
def State.askPort (s : State) (t : PortTag) : State :=
  let t1 := { t with id := s.freeTag, clk := s.clk }
  let s1 := { s with tags := s.tags ++ [t1] }
  let s2 := if t.space == 3 && (s.qp t.qp).timer.isNone then s1.modQp t.qp fun q => { q with timer := some s.clk } else s1
  s2.send (.portRead t.space t.qp t1.id t.addr t.len)

/-- Cut a range into requests of at most 4 KiB that do not cross a 4 KiB boundary (R402): offset from its start,
address, length. -/
def cut4k (addr n : Nat) : List (Nat × Nat × Nat) :=
  if n == 0 then []
  else (List.range ((addr + n - 1) / 4096 + 1 - addr / 4096)).map fun i =>
    let lo := max addr ((addr / 4096 + i) * 4096)
    let hi := min (addr + n) ((addr / 4096 + i + 1) * 4096)
    (lo - addr, lo, hi - lo)

/-! ### Copies from a port (R199, R200, R402) -/

/-- The requests of a copy, in order: offset in its source stream, address, length. -/
def RetD.requests (d : RetD) : List (Nat × Nat × Nat) :=
  (List.range d.rows).flatMap fun row =>
    (cut4k (d.src + row * d.srcPitch) d.srcRowBytes).map fun e => (row * d.srcRowBytes + e.1, e.2)

/-- Requests of a copy that have been issued. -/
def Run.asked (r : Run) : Nat := (r.aux[0]?).getD 0

/-- Issue the requests of one copy as far as the port allows. -/
def State.pumpCopy (s : State) (c k : Nat) (r : Run) : State :=
  let d : RetD := ⟨r.rec_⟩
  ((d.requests.drop r.asked).foldl (fun (acc : Bool × Nat × State) q =>
    if acc.1 || !acc.2.2.canRead d.srcSpace d.qp then (true, acc.2)
    else (false, acc.2.1 + 1, acc.2.2.askPort {
      id := 0, space := d.srcSpace, qp := d.qp, ctx := c, g := k / 18, n := k % 18, idx := r.idx, op := 0, off := q.1,
      addr := q.2.1, len := q.2.2, clk := 0 })) (false, r.asked, s)).2 |> fun x =>
    x.2.modRunOf k r.idx fun y => { y with aux := y.aux.set 0 x.1 }

/-- Issue the requests of the load in progress: 4 KiB each, at most 64 outstanding (R234). -/
def State.pumpLoad (s : State) : State :=
  match s.loader.busy with
  | none => s
  | some c =>
    let total := s.loader.curLen * 64
    if (s.load c).state != 1 then s
    else (List.range 64).foldl (fun t _ =>
      let l := t.loader
      let open_ := (t.tags.filter fun x => x.op == 1 && !x.quarantined).length
      if total ≤ l.asked || 64 ≤ open_ || !t.canRead l.curSrc l.curQp then t
      else
        let a := l.curAddr + l.asked
        let len := min (total - l.asked) (4096 - a % 4096)
        { t.askPort {
            id := 0, space := l.curSrc, qp := l.curQp, ctx := c, g := 64, n := 0, idx := 0, op := 1, off := l.asked,
            addr := a, len := len, clk := 0 } with loader := { l with asked := l.asked + len } }) s

/-- A Retriever copy from a port that has requests left. -/
def Run.portCopy (r : Run) : Bool :=
  recKind r.rec_ == 3 && r.begun && !r.issued && (⟨r.rec_⟩ : RetD).op == 0 && decide (2 ≤ (⟨r.rec_⟩ : RetD).srcSpace)

/-- Issue what the ports can take: the load, then the copies of every cluster. -/
def State.pumpPorts (s : State) : State :=
  (s.pumpLoad.clus.map (·.1)).foldl (fun t k => match t.residentOf (k / 18) with
    | none => t
    | some c => if t.cutOff (k / 18) then t
      else ((t.clu k).runs.filter Run.portCopy).foldl (fun u r => u.pumpCopy c k r) t) s.pumpLoad

/-- The bytes at the head of a list of pieces that follow on from offset `off`, and the pieces left. -/
def takePieces : Nat → Nat → List (Nat × List Byte) → List Byte × List (Nat × List Byte)
  | 0, _, ps => ([], ps)
  | fuel + 1, off, ps => match ps.find? fun p => p.1 == off with
    | none => ([], ps)
    | some p =>
      let r := takePieces fuel (off + p.2.length) (ps.filter fun q => q.1 != off)
      (p.2 ++ r.1, r.2)

/-- Rows of a port copy consumed, bytes of the next one consumed, and source bytes taken into order. -/
def Run.portRow (r : Run) : Nat := (r.aux[1]?).getD 0
def Run.portDone (r : Run) : Nat := (r.aux[2]?).getD 0
def Run.portGot (r : Run) : Nat := (r.aux[3]?).getD 0

/-- Units cut from destination bytes of row `row` of which `sent` are cut already, and what is left. -/
def State.cutUnits (s : State) (c g n : Nat) (r : Run) (row sent : Nat) (bs : List Byte) : List UnitW :=
  let d : RetD := ⟨r.rec_⟩
  unitsOf d.dstSpace (s.retAddr c g n r.rep d.dstSpace (d.dst + row * d.dstPitch) + sent) bs true

/-- Consume the source bytes in order of one row (R199): converted once, cut into units. `aux` counts requests, rows,
source bytes of the row, source bytes in all, destination bytes of the row cut. -/
def State.feedRow (s : State) (c k idx : Nat) : State :=
  match (s.clu k).runs.find? fun r => r.idx == idx && r.portCopy with
  | none => s
  | some r =>
    let d : RetD := ⟨r.rec_⟩
    let ag := retAgent c (k / 18) (k % 18) r
    let want := d.srcRowBytes - r.portDone
    let same := d.srcFmt == d.dstFmt
    let got := if same then min want r.blob.length else min want (r.blob.length / d.srcFmt.unit * d.srcFmt.unit)
    if got == 0 then s
    else
      let src := r.blob.take got
      let e0 := r.portDone / d.srcFmt.unit
      let n := min (d.elems - e0) (got / d.srcFmt.unit)
      let x := if same then (([] : List Nat), (none : Option Nat), s)
        else (List.range n).foldl (fun (acc : List Nat × Option Nat × State) i =>
          if acc.2.1.isSome then acc
          else
            let v := d.srcFmt.decode (d.srcFmt.elem src i)
            let e := d.dstFmt.encode d.sat v.1
            let z := acc.2.2.raise ag r.mask r.portRow (e0 + i) (v.2.add e.2).cap
            (acc.1 ++ [e.1], z.1, z.2)) ([], none, s)
      let out := r.out ++ if same then src else d.dstFmt.packRow x.1
      let ends := decide (want ≤ got)
      let sent := (r.aux[4]?).getD 0
      let row := if ends && x.2.1.isNone then padTo (ceilDiv out.length 64 * 64) out else out.take (out.length / 64 * 64)
      let us := x.2.2.cutUnits c (k / 18) (k % 18) r r.portRow sent row
      let tail := if x.2.1.isSome then (x.2.2.cutUnits c (k / 18) (k % 18) r r.portRow (sent + row.length) (out.drop row.length)).map
        fun u => { u with counts := false } else []
      let done := x.2.1.isSome || (ends && decide (d.rows ≤ r.portRow + 1))
      x.2.2.modRunOf k idx fun y => { y with
        blob := y.blob.drop got, out := if ends then [] else out.drop row.length, units := y.units ++ us ++ tail,
        aux := if ends then [r.asked, r.portRow + 1, 0, r.portGot, 0] else [r.asked, r.portRow, r.portDone + got, r.portGot, sent + row.length],
        issued := done, status := x.2.1.getD y.status, stopped := y.stopped || x.2.1.isSome,
        finished := done && y.units.isEmpty && us.isEmpty && tail.isEmpty }

/-- Data of a copy's read has arrived: it goes into its place, and what is in order is consumed. -/
def State.feedCopy (s : State) (t : PortTag) (bs : List Byte) : State :=
  let k := 18 * t.g + t.n
  match (s.clu k).runs.find? fun r => r.idx == t.idx && r.portCopy with
  | none => s
  | some r =>
    let x := takePieces (r.pieces.length + 1) r.portGot (r.pieces ++ [(t.off, bs)])
    let s1 := s.modRunOf k r.idx fun y => { y with
      pieces := x.2, blob := y.blob ++ x.1, aux := y.aux.set 3 (r.portGot + x.1.length) }
    (List.range ((⟨r.rec_⟩ : RetD).rows + 1)).foldl (fun u _ => u.feedRow t.ctx k r.idx) s1

/-! ### Endings (R402, R404, R409) -/

/-- The port on which a Retriever descriptor depends: its space and its function or queue pair. -/
def RetD.port (d : RetD) : Option (Nat × Nat) :=
  if 2 ≤ d.dstSpace then some (d.dstSpace, d.qp)
  else if d.op == 0 && 2 ≤ d.srcSpace then some (d.srcSpace, d.qp)
  else none

/-- Reads of a run that are still open: of the host they stay quarantined, of storage they are gone. -/
def State.dropTags (s : State) (hit : PortTag → Bool) : State :=
  let s1 := (s.tags.filter fun t => hit t && t.space == 2 && !t.quarantined && t.g < 64 && s.cutOff t.g).foldl
    (fun u t => u.modCtl t.g fun p => { p with quarantined := satAdd 0xFFFF p.quarantined 1 }) s
  { s1 with tags := (s1.tags.filter fun (t : PortTag) => !(hit t) || t.space == 2).map fun (t : PortTag) =>
      if hit t then { t with quarantined := true, held := t.held || (!t.quarantined && decide (t.g < 64) && s.cutOff t.g) } else t }

/-- A descriptor ends because of its port: what has arrived in order is still accepted, what has arrived ahead of its turn may
have been, and the status is reported (R200, R402, R404, R405). -/
def State.endPort (s : State) (k : Nat) (r : Run) (status : Nat) : State :=
  let d : RetD := ⟨r.rec_⟩
  let s0 := if 2 ≤ d.dstSpace then s else match s.residentOf (k / 18) with
    | some c => s.leaveUnits c k { r with units := [] }
    | none => s
  let s1 := s0.dropTags fun t => t.op == 0 && t.g == k / 18 && t.n == k % 18 && t.idx == r.idx
  let s2 := if 2 ≤ d.dstSpace then (s1.endRun k r.idx status).modRunOf k r.idx fun y => { y with units := [] }
    else s1.modRunOf k r.idx fun y => { y with
      status := status, issued := true, finished := y.units.isEmpty, pieces := [], blob := [], out := [] }
  s2.report 1 (match d.port with | some (3, _) => 12 | _ => 11) status (k / 18) ((s.residentOf (k / 18)).getD noCtx) k r.instr

/-- Descriptors that use a port and still have a unit to be accepted. -/
def State.portRuns (s : State) (space q : Nat) : List (Nat × Run) :=
  s.clus.flatMap fun e => (e.2.runs.filter fun r =>
    recKind r.rec_ == 3 && r.begun && !r.finished && (⟨r.rec_⟩ : RetD).port == some (space, q)).map fun r => (e.1, r)

/-- A Retriever copy begins (R199, R402, R407): it ends at issue where its port denies it; from a port it sends its
first requests; from on-package memory it reads its rows. -/
def execRetrieverCopy (g n at_ : Nat) (s0 : State) : Host.Outcome State Fault Refusal :=
  let s := s0.atClk at_
  match s.mayIssue g with
  | none => .next s
  | some c => match (s.clu (18 * g + n)).descriptor 0 with
    | none => .next s
    | some r =>
      let d : RetD := ⟨r.rec_⟩
      let k := 18 * g + n
      let deny := max (if 2 ≤ d.dstSpace then s.portDeny c d.dstSpace d.qp else 0) (if 2 ≤ d.srcSpace then s.portDeny c d.srcSpace d.qp else 0)
      if deny != 0 then
        let s1 := ((s.beginRet c g n r).modRunOf k r.idx fun y => { y with units := [] }).endPort k { r with begun := true } deny
        .next (if deny == stHostDisabled then s1.modFn d.qp fun f => { f with disabledEnds := satAdd 0xFFFF f.disabledEnds 1 } else s1)
      else if 2 ≤ d.srcSpace then
        .next (((s.beginRet c g n r).modRunOf k r.idx fun y => { y with aux := [0, 0, 0, 0, 0] }).pumpPorts)
      else .next (s.retrieverCopy c g n r)

/-- A unit for a port can leave (R402, R404, R408, R409). -/
def State.canWrite (s : State) (space q : Nat) : Bool :=
  if space == 2 then (s.fn q).bme
  else if space == 3 then (s.qp q).state == 1 && (s.sport (s.qp q).port).up && !(s.sport (s.qp q).port).paused
  else true

/-- A queue pair's request has been answered: its retries and its timer start afresh (R409). -/
def State.qpHeard (s : State) (q : Nat) : State := s.modQp q fun x => { x with tried := 0, timer := some s.clk }

/-- UNIT_ACCEPT: the destination accepts the next unit of a cluster's oldest Retriever transfer: memory is written, the
link to the host has taken the unit, or storage has acknowledged it; the progress word is advanced (R200, R402,
R407). A unit for a locked range (R286) or a held granule with no pool granule left (R314) waits. (DESIGN CHOICE, unsafe: notes/assumptions/80.md.) -/
def execUnitAccept (g n at_ : Nat) (s0 : State) : Host.Outcome State Fault Refusal :=
  let s := s0.atClk at_
  match s.mayIssue g with
  | none => .next s
  | some c =>
    let k := 18 * g + n
    match (s.clu k).runs.find? fun r => recKind r.rec_ == 3 && !r.units.isEmpty with
    | none => .next s
    | some r =>
      match r.units with
      | [] => .next s
      | u :: us =>
        let d : RetD := ⟨r.rec_⟩
        let ag := retAgent c g n r
        let full := if u.space == 0 then match s.bulkLoc c u.addr with | some key => s.cowFull (key / 256) | none => false else false
        if !s.canWrite u.space d.qp || (u.space == 0 && s.locked c u.addr u.bytes.length) then .next s
        else if full then .next (match s.bulkLoc c u.addr with | some key => s.urge (key / 256) | none => s)
        else
          let w := s.takeUnit ag d.qp u
          if w.1 != 0 then .next (w.2.endRun k r.idx w.1)
          else
            let prog := r.prog + b2n u.counts
            let s1 := (w.2.writeProg ag d.progCm prog).progress g
            let s2 := if u.space == 3 then s1.qpHeard d.qp else s1
            .next (s2.modRunOf k r.idx fun x => { x with units := us, prog := prog, finished := x.issued && us.isEmpty })

end Sys2Proof.Machine
end

