-- ==== Sys2Proof/Machine/TickOps.lean ====
section
/-! DEFINITION. The tick: beacons and alignment, starts, segments, slip and the power governor
(spec/02_the_tick.md R41 to R66). -/

namespace Sys2Proof.Machine

/-! ### Alignment (R48 to R53) -/

/-- Insert a number into an ascending list. -/
def insertAsc (x : Nat) : List Nat → List Nat
  | [] => [x]
  | y :: ys => if x ≤ y then x :: y :: ys else y :: insertAsc x ys

/-- The median of the last measurements: of an even number, the lower middle one (R50). -/
def median (xs : List Nat) : Nat :=
  let s := xs.foldl (fun a x => insertAsc x a) []
  (s[(s.length - 1) / 2]?).getD 0

/-- The last `n` elements of a list with `x` added. -/
def pushLast {α : Type} (n : Nat) (xs : List α) (x : α) : List α :=
  let ys := xs ++ [x]
  ys.drop (ys.length - n)

/-- The upstream port in use (R51, R52). -/
def Tick.upstream (t : Tick) : Nat := if t.onBackup then t.backupPort else t.upstreamPort

/-- The device's own digest64 (R49). -/
def State.digest64 (s : State) : Nat := s.glb.cfgDigest % 2 ^ 64

/-- A beacon meets the conditions of R51. -/
def State.beaconOk (s : State) (port : Nat) (b : Beacon) : Bool :=
  !b.echo && b.tickN == not64 b.tick && (b.tick == s.tickNo || !s.tick.everAligned || s.tick.adoptNext) &&
  b.periodUs == s.tick.period && port == s.tick.upstream && port != 0x3F

/-- The alignment error taken up: the correction of the current tick and what is carried on (R50). The error is measured
anew at each beacon, so that it replaces what was still carried. -/
def Tick.correct (t : Tick) (e : Int) : Tick :=
  let c := clampI (-4) 4 e
  { t with lastError := clampI (-128) 127 e, corr := c, residual := e - c, corrections := pushLast 64 t.corrections c }

/-- An accepted beacon (R50, R51, R53). (DEDUCED, unsafe: notes/assumptions/34.md.) (DEDUCED, unsafe: notes/assumptions/52.md.) -/
def State.acceptBeacon (s : State) (b : Beacon) : State :=
  let t := s.tick
  let adopting := !t.everAligned || t.adoptNext
  let rootChange := t.everAligned && t.rootId != b.rootId
  let e : Int := (s.clk : Int) - ((t.lastEdge + median t.delays : Nat) : Int)
  let t1 := t.correct e
  let differs := b.digest64 != s.digest64
  let t2 := { t1 with
    number := if adopting then pairOf 64 b.tick else t.number,
    aligned := decide (-8 ≤ e) && decide (e ≤ 8), everAligned := true, adoptNext := false, holdover := false,
    holdoverTicks := 0, hopCount := min 0xF (b.hopCount + 1), rootId := b.rootId, acceptedThisTick := true,
    delays := if b.turnaround == 0 then t.delays else pushLast 8 t.delays b.turnaround,
    digestDiffers := t.digestDiffers || differs, configMismatchTold := t.configMismatchTold || differs,
    lastBeaconClk := s.clk, lastBeacon := some b }
  let s1 := { s with tick := t2 }
  let s2 := if rootChange then s1.report 0 1 (openStatus 3) else s1
  if differs && !t.configMismatchTold then s2.report 0 1 stConfigMismatch else s2

/-- BEACON_RECEIVE: an arriving beacon is checked, accepted or discarded, and the alignment error computed (R50,
R51). (DEDUCED, unsafe: notes/assumptions/32.md.) -/
def execBeaconReceive (port : Nat) (b : Beacon) (at_ : Nat) (s0 : State) : Host.Outcome State Fault Refusal :=
  let s := (s0.atClk at_).takeVc0 port 1
  if s.beaconOk port b then .next (s.acceptBeacon b)
  else
    let s1 := { s with tick := { s.tick with drop := wrapAdd 32 s.tick.drop 1 } }
    .next (if b.tickN == not64 b.tick then s1 else s1.pairNote 1)

/-- ECHO_SEND: once every 256 ticks the device returns a received beacon upstream as an echo (R49, R50). -/
def execEchoSend (at_ : Nat) (s0 : State) : Host.Outcome State Fault Refusal :=
  let s := s0.atClk at_
  match s.tick.lastBeacon with
  | none => .next s
  | some b =>
    if s.tick.ticksSinceEcho < 256 then .next s
    else
      let e := { b with echo := true, turnaround := min 0xFFFF (s.clk - s.tick.lastBeaconClk) }
      .next ({ s with tick := { s.tick with ticksSinceEcho := 0 } }.giveCell s.tick.upstream 0 (.beacon e))

/-- ECHO_RECEIVE: the upstream device measures the round trip of an echo, less its turnaround, and returns half of
it in its next beacon on that port (R50). -/
def execEchoReceive (port : Nat) (b : Beacon) (at_ : Nat) (s0 : State) : Host.Outcome State Fault Refusal :=
  let s := (s0.atClk at_).takeVc0 port 1
  match s.tick.beaconSent.find? fun e => e.1 == port && e.2.1 == b.tick with
  | none => .next s
  | some e =>
    let d := (s.clk - e.2.2 - b.turnaround) / 2
    .next { s with tick := { s.tick with delayBack := Tab.set s.tick.delayBack port d } }

/-- HOLDOVER_EXPIRE: after holdover_max ticks of holdover the device switches to the backup upstream port, or
clears aligned and reports its upstream port down, once (R52). -/
def execHoldoverExpire (s : State) : Host.Outcome State Fault Refusal :=
  let t := s.tick
  if !t.holdover || !t.aligned || t.holdoverTicks < t.holdoverMax then .next s
  else if t.backupPort != 0x3F && !t.onBackup then
    .next { s with tick := { t with onBackup := true, holdoverTicks := 0 } }
  else .next ({ s with tick := { t with aligned := false } }.report 0 1 stLinkDown noPart noCtx t.upstream)

/-- RELOCK: aligned is cleared, and the device adopts the next valid beacon of its upstream port (R53). -/
def execRelock (s : State) : Host.Outcome State Fault Refusal :=
  .next { s with tick := { s.tick with aligned := false, adoptNext := true, onBackup := false } }

/-- A context is armed, ramping or released (R64). -/
def State.anyStarted (s : State) : Bool := s.starts.any fun e => e.2.state == 1 || e.2.state == 2 || e.2.state == 3

/-- TICK_PERIOD_WRITE: period_us from 4 to 64 takes effect at the next edge; another value, or any while a context
is armed, ramping or released, is discarded with period_refused (R64). -/
def execTickPeriodWrite (value : Nat) (s : State) : Host.Outcome State Fault Refusal :=
  let p := fld value 6 0
  if p < 4 || 64 < p || s.anyStarted then .next { s with tick := { s.tick with periodRefused := true } }
  else .next { s with tick := { s.tick with periodNext := some p } }

/-! ### Starts (R54 to R56) and the power limit (R59 to R63) -/

/-- L of R59 in mW. -/
def State.limitMw (s : State) : Nat := s.gov.slew * s.tick.period

/-- P₁ of a context's image, in 0.1 W (R232). -/
def State.p1 (s : State) (c : Nat) : Nat := ((s.image c).power[0]?).getD 0

/-- The sum of the P₁ of the contexts in one of some start states, in mW. (DEDUCED, unsafe: notes/assumptions/36.md.) -/
def State.sumP1 (s : State) (sts : List Nat) : Nat :=
  (s.starts.filter fun e => sts.contains e.2.state).foldl (fun a e => a + e.2.p1 * 100) 0

/-- What pre-warm must reach in a tick: the sum of the P₁ of the contexts that ramp in it, less L (R60, R66). -/
def State.prewarmNow (s : State) : Nat := s.sumP1 [2] - s.limitMw

/-- The ramp ticks m of R60 for context `c` beside those already armed (R66). -/
def State.rampTicks (s : State) (c : Nat) : Nat :=
  let all := { s with starts := Tab.erase s.starts c }.sumP1 [1, 2] + s.p1 c * 100
  ceilDiv (all - s.limitMw - s.gov.pEst * 100) s.limitMw

/-- START_ARM: the final word of TICK_START_AT arms the context named in TICK_START_CTX for tick S, or refuses it
(R54, R66). A settled context of a rollback moves to replaying (R297). An arm of a released or withheld context changes nothing (DEDUCED, unsafe: notes/assumptions/23.md). -/
def execStartArm (S : Nat) (s0 : State) : Host.Outcome State Fault Refusal :=
  let s := { s0 with tick := { s0.tick with startAt := pairOf 64 S } }
  let c := s.tick.startCtx
  let st := (s.start c).state
  if st == 3 || st == 6 then .next s
  else if !s.tick.aligned || (s.load c).state != 4 then .next (s.modStart c fun x => { x with state := 5 })
  else if S < s.tickNo + 2 + s.rampTicks c then .next (s.modStart c fun x => { x with state := 4 })
  else
    let s1 := { s.modStart c fun _ => { state := 1, s := S, p1 := s.p1 c } with gov := { s.gov with ballastCtx := some c } }
    let l := s.led c
    .next (if l.state == 5 && l.settled && !l.needTail then s1.modLed c fun l => { l with state := 6 } else s1)

/-- START_DISARM: a TICK_START_CTX write with disarm = 1 stops the pre-warm, or ends withheld_unaligned; a release
stands (R56, R66). The ballast that remains is charged to the context (R62). -/
def execStartDisarm (c : Nat) (s0 : State) : Host.Outcome State Fault Refusal :=
  let s := { s0 with tick := { s0.tick with startCtx := c } }
  let st := (s.start c).state
  if st == 1 || st == 2 || st == 6 then
    .next { s.modStart c fun x => { x with state := 0 } with gov := { s.gov with ballastCtx := some c } }
  else .next s

/-- The ceiling that a throttle (R475), or bring-up's wake_cap (R396), sets to power, in 0.1 W. -/
def State.powerCap (s : State) : Nat :=
  min (s.therm.ceiling.getD 0xFFFFF) (if s.boot.state < 5 then s.boot.wakeCap * 10 else 0xFFFFF)

/-- GOVERNOR_ENERGY_CHECK: every 1,100 clk the running energy, as a mean power in 0.1 W, is held against
P_est(n − 1) + L and the throttle's ceiling (R475); running ahead, matrix issue of one more cluster is withheld, and otherwise one is let go (R60). (DEDUCED, unsafe: notes/assumptions/46.md.) -/
def execGovernorEnergyCheck (running : Nat) (s : State) : Host.Outcome State Fault Refusal :=
  let g := s.gov
  let ahead := decide (min (g.pEst * 100 + s.limitMw) (s.powerCap * 100) < running * 100)
  let pick (want : Bool) : Option Nat := (List.range 1152).find? fun i => bitOf g.gated i == want
  let gated := if ahead then (match pick false with | some i => g.gated + 2 ^ i | none => g.gated)
    else (match pick true with | some i => g.gated - 2 ^ i | none => g.gated)
  .next { s with gov := { g with running := running, checks := g.checks + 1, gated := gated } }

/-- GOVERNOR_TICK_CLOSE (R59 to R63): the energy estimate of the ending tick is closed. `work` is the power of the
work of the tick and `room` the most that ballast could add, both in 0.1 W. -/
def State.governorClose (s : State) (work room : Nat) : State :=
  let L := s.limitMw
  let prev := s.gov.pEst * 100
  let floor := prev - L
  let want := min (s.powerCap * 100) (max floor (if s.therm.throttling then 0 else min (prev + L) s.prewarmNow))
  let ballast := min (room * 100) (want - work * 100) / 100
  let p := work + ballast
  let viol := decide (prev + L < p * 100) || decide (p * 100 + 100 < floor)
  let s1 := { s with gov := { s.gov with
    pEst := min 0xFFFF p, pBallast := min 0xFFFF ballast, checks := 0, running := 0,
    slewViol := if viol then satAdd 0xFFFF s.gov.slewViol 1 else s.gov.slewViol } }
  if viol then s1.report 3 2 (openStatus 2) else s1

/-! ### Segments and slip (R44 to R47, R57, R58, R161) -/

/-- The mark or record at a cluster's position: its bits and place. -/
def State.nextRec (s : State) (c g n : Nat) : Option (Where × Nat) :=
  (s.fetchRec (agentOf c g n 4 0) (s.partIndex c g) n (s.clu (18 * g + n)).pos).2.1

/-- The segment in progress of a cluster has finished (R45): nothing queued or running, and the stream stands at a
mark or at its end. -/
def State.segDone (s : State) (c g n : Nat) : Bool :=
  let cl := s.clu (18 * g + n)
  cl.queue.isEmpty && cl.runs.isEmpty && match s.nextRec c g n with
    | some (_, r) => recKind r == 2
    | none => true

/-- SEGMENT_OVERRUN (R57): a segment not finished at the edge of the tick after its own is counted once and
reported. A slip_max of 0 fences the partition at its first overrun (R58). -/
def State.overruns (s : State) (c : Nat) : State :=
  (s.partsOf c).foldl (fun t g =>
    let late := (List.range 18).filter fun n =>
      let cl := t.clu (18 * g + n)
      cl.segOpen && !cl.segLate && decide (cl.segEdge < t.tickNo) && !t.segDone c g n
    let v := late.foldl (fun u n => ((u.modClu (18 * g + n) fun x => { x with segLate := true }).modMon g
      fun m => { m with overruns := satAdd 0xFFFFFF m.overruns 1 }).report 0 1 stTickOverrun g c) t
    if v.tick.slipMax == 0 && !late.isEmpty then v.fence g 2 else v) s

/-- A context may have segments released (R365, R377): released or in tail replay, resident everywhere, not stopped, no
partition cut off, the lease not lapsed, no unload due at its barrier (R240), and its ledger lets it. -/
def State.mayRelease (s : State) (c : Nat) : Bool :=
  (s.released c || (s.run c).tail) && s.residentAll c && !(s.run c).stopped && !(s.run c).broken && s.dog.leaseState != 2 &&
  (!(s.run c).unloadDue || (s.run c).inStep) && s.ledgerLets c &&
  (s.partsOf c).all fun g => !s.cutOff g && (s.part g).ctl.parkedFor == none

/-- Release the segment of a cluster at this edge (R44, R57, R366). -/
def State.releaseSeg (s : State) (g n : Nat) : State :=
  (s.modClu (18 * g + n) fun c => { c with
    pos := c.pos + 1, segOpen := true, segEdge := s.tickNo, segLate := false }).progress g

/-- SEGMENT_RELEASE of one cluster (R57, R58, R161): the mark it stands at, when its edge plus the slip has come
and the segment before it has finished; a later edge sets the slip, and a slip above slip_max fences. -/
def State.tryRelease (s : State) (c g n : Nat) : State :=
  let cl := s.clu (18 * g + n)
  if cl.ended || s.cutOff g || !s.segDone c g n then s
  else match s.nextRec c g n with
    | none => s
    | some (w, r) =>
      if recKind r != 2 || markEnd r then s
      else
        let sched := (s.run c).stepBase + (markRel r + w.ticks - if (s.run c).tail then (s.led c).tailTick else 0)
        let slip := (s.part g).mon.slip
        if s.tickNo < sched + slip then s
        else
          let late := s.tickNo - sched
          if slip < late && s.tick.slipMax < late then s.fence g 2
          else (s.modMon g fun m => { m with slip := max slip late }).releaseSeg g n

/-- A cluster has no stream: its directory entry has no play-list entries (R227). -/
def State.idleClu (s : State) (c g n : Nat) : Bool :=
  let d := leNat (s.peekRange (agentOf c g n 4 0) 0 ((s.image c).place 1 + 16 * (18 * s.partIndex c g + n)) 16)
  fld d 95 80 == 0

/-- The first edge of a step (R47): the ledger does what comes before its release (R285), the streams start again at
their first records, phases count from 0 (R266) and the slip is 0. -/
def State.beginStep (s : State) (c : Nat) : State :=
  let s1 := (s.ledgerRelease c).modRun c fun r => { r with stepBase := s.tickNo, boundary := false, inStep := true, phases := [] }
  (s1.partsOf c).foldl (fun t g =>
    (List.range 18).foldl (fun u n => u.modClu (18 * g + n) fun cl => { cl with
      pos := 0, segOpen := false, segLate := false, ended := s.idleClu c g n })
      (t.modMon g fun m => { m with slip := 0 })) s1

/-- Release the due segments of a context at this edge. -/
def State.releaseCtx (s : State) (c : Nat) : State :=
  if !s.mayRelease c then s
  else
    let s1 := if (s.run c).boundary then s.beginStep c else s
    if !(s1.run c).inStep then s1
    else (s1.partsOf c).foldl (fun t g => (List.range 18).foldl (fun u n => u.tryRelease c g n) t) s1

/-- Starts at an edge (R54, R55, R60): pre-warm from the tick after the arm; at S the context is released, or
withheld where aligned is 0. -/
def State.startEdge (s : State) : State :=
  (s.starts.map (·.1)).foldl (fun t c =>
    let st := t.start c
    if (st.state == 1 || st.state == 2) && st.s ≤ t.tickNo then
      if t.tick.aligned then (t.modStart c fun x => { x with state := 3 }).modRun c fun r => { r with boundary := true }
      else { (t.modStart c fun x => { x with state := 6 }) with gov := { t.gov with ballastCtx := some c } }.report 1 1
        (openStatus 1) noPart c
    else if st.state == 1 then t.modStart c fun x => { x with state := 2 }
    else t) s

/-- QUIET_TICK (R366, R367): quiet_ticks rises at an edge with no progress event while the resident context has a
dispatched, unretired record; an excused wait holds it at 0. -/
def State.quietTicks (s : State) (excused : Nat → Bool) : State :=
  (List.range 64).foldl (fun t g =>
    if (Tab.find t.parts g).isNone then t
    else
      let m := (t.part g).mon
      let busy := (clusOf g).any fun k => !(t.clu k).runs.isEmpty || !(t.clu k).queue.isEmpty
      let ex := match t.residentOf g with
        | none => true
        | some c => t.cutOff g || (t.part g).ctl.parkedFor.isSome || !t.residentAll c || (t.run c).stopped || (t.run c).broken || excused c
      t.modMon g fun _ => { m with
        progress := false,
        quiet := if m.progress || ex then 0 else if busy then satAdd 0xFFFFFF m.quiet 1 else m.quiet,
        hangTold := m.hangTold && !(m.progress || ex) }) s

/-- What was written for the next edge takes effect: period, role and ports, arbitration weights, stops. -/
def State.edgePending (s : State) : State :=
  let t := s.tick
  let t1 := match t.periodNext with | some p => { t with period := p, periodNext := none } | none => t
  let t2 := match t1.ctrlNext with
    | some (r, b, u) => { t1 with role := r, backupPort := b, upstreamPort := u, ctrlNext := none, onBackup := false }
    | none => t1
  let t3 := if t2.role then { t2 with aligned := true, everAligned := true, hopCount := 0, holdover := false, holdoverTicks := 0 } else t2
  let m := match s.memc.arbNext with
    | some (a, b, c, d) => { s.memc with wCluster := a, wCobbler := b, wPort := c, wTg := d, arbNext := none }
    | none => s.memc
  { s with
    tick := t3, memc := m,
    ctxRuns := s.ctxRuns.map fun e => (e.1, if e.2.stopNext then { e.2 with stopped := true, stopNext := false } else e.2) }

/-- HOLDOVER (R52): with no beacon accepted since the last edge a follower that has been aligned runs in holdover,
on the mean of its last 64 corrections. What R50 carries on is applied with it, within ±4 clk. (DEDUCED, unsafe: notes/assumptions/33.md.) -/
def Tick.holdoverEdge (t : Tick) : Tick :=
  let carry (base : Int) (u : Tick) : Tick :=
    let c := clampI (-4) 4 (base + t.residual)
    { u with corr := c, residual := base + t.residual - c, acceptedThisTick := false }
  if t.role || !t.everAligned then carry 0 t
  else if t.acceptedThisTick then carry 0 { t with holdover := false, holdoverTicks := 0 }
  else
    let n := t.corrections.length
    let mean := if n == 0 then 0 else (t.corrections.foldl (· + ·) 0).tdiv n
    carry mean { t with holdover := true, holdoverTicks := satAdd 255 t.holdoverTicks 1 }

/-- The tick number at an edge (R48): one more, wrapping; a broken pair is reported and left unused (R17). -/
def State.countTick (s : State) : State :=
  if s.tick.number.ok then
    { s with tick := { s.tick with number := pairOf 64 (wrapAdd 64 s.tickNo 1), lastEdge := s.clk, ticksSinceEcho := s.tick.ticksSinceEcho + 1 } }
  else ({ s with tick := { s.tick with lastEdge := s.clk } }).report 3 1 stPairBroken

/-- BEACON_TRANSMIT (R48, R49): the device's own beacon on each downstream port, with the delay measured there. A
device that is 8 hops from the root sends none, nor one that has never been aligned. -/
def State.sendBeacons (s : State) (ports : List Nat) : State :=
  let t := s.tick
  if 8 < t.hopCount || !t.everAligned then s
  else
    let s1 := ports.foldl (fun x p => x.giveCell p 0 (.beacon {
      echo := false, turnaround := Tab.get t.delayBack p 0, rootId := if t.role then s.fab.num else t.rootId, hopCount := t.hopCount,
      periodUs := t.period, digest64 := s.digest64, tickN := not64 s.tickNo, tick := s.tickNo })) s
    let sent := (t.beaconSent.filter fun e => s.tickNo < e.2.1 + 512) ++ ports.map fun p => (p, s.tickNo, s.clk)
    { s1 with tick := { t with delayBack := [], beaconSent := sent } }

end Sys2Proof.Machine
end

