-- ==== Sys2Proof/Machine/Loader.lean ====
section
/-! DEFINITION. The load command: fetch, checks, commit, abort, unload, and the fit repeated after a Welt change
(spec/10_avavo_images_and_loader.md R233 to R242; spec/01_package_and_hierarchy.md R24). -/

namespace Sys2Proof.Machine

/-- A go that is refused or fails at once: what PART_LOAD_STATE records of it (R233, R241). -/
def State.loadReject (s : State) (c reason fetch : Nat) : State :=
  (s.modLoad c fun l => { l with
    status := stLoaderReject, reason := reason, section_ := 0, index := noIndex, fetchStatus := fetch }).report 1 6 stLoaderReject noPart c

/-- The load in progress is rejected (R235, R240). -/
def State.rejectLoad (s : State) (c reason sect index fetch : Nat) : State := s.endLoad c stLoaderReject reason sect index fetch

/-- A load or unload is in progress in the package (R233). -/
def State.loadBusy (s : State) : Bool := s.loader.busy.isSome || s.loads.any fun e => e.2.state == 5

/-- A go is accepted (R233). -/
def State.goOk (s : State) (c : Nat) : Bool :=
  !s.loadBusy && (s.load c).state == 0 && s.notStarted c && (s.window c).isSome && !(s.partsOf c).isEmpty

/-- LOAD_GO: the go command starts a load, or refuses it (R233, R234, R372, R402). -/
def execLoadGo (src q c at_ : Nat) (s0 : State) : Host.Outcome State Fault Refusal :=
  let s := { s0.atClk at_ with loader := { s0.loader with src := src, qp := q, ctx := c } }
  if !s.goOk c then .next (s.loadReject c 0x2F 0)
  else
    let l := s.loader
    let s1 := { s with loader := { l with
      busy := some c, curSrc := src, curQp := q, curLen := l.len, curAddr := l.addr.nat, curRankCount := l.rankCount,
      curRankBase := l.rankBase, bytes := [], pieces := [], asked := 0, winChanged := false } }.modLoad c fun x => { x with
        state := if l.len == 0 then 2 else 1 }
    if s.fencedOff c then .next (s1.endLoad c stFenced 0 0 noIndex 0)
    else if src < 2 then .next (s1.rejectLoad c 0x2E 0 noIndex 0)
    else
      let deny := s.portDeny c src q
      if deny != 0 then
        let s2 := s1.rejectLoad c 0x2E 0 noIndex deny
        .next (if deny == stHostDisabled then (s2.modFn q fun f => { f with disabledEnds := satAdd 0xFFFF f.disabledEnds 1 }).report 1 11 deny noPart c else s2)
      else .next s1.pumpPorts

/-! ### Arriving data (R234) -/

/-- Write to the context's bulk space what newly arrived bytes, from offset `old` of the file on, bring of placed
sections. -/
def State.placeNew (s : State) (c old : Nat) (b : List Byte) : State :=
  if b.length < 64 || b.length < tableEnd b then s
  else (((List.range (min 32 (hdrSecs b))).map fun i => Sec.of (leAt b (64 + 16 * i) 16)).filter fun x => placedType x.typ).foldl
    (fun t x =>
      let lo := max old (x.off * 64)
      let hi := min b.length ((x.off + x.size) * 64)
      if hi ≤ lo || t.bulkEnd c < (x.place + x.size) * 64 then t
      else (t.writeRange { ctx := c, loc := 0, unit := 4, instr := 0 } 0 (x.place * 64 + (lo - x.off * 64)) (slice b lo (hi - lo))).2) s

/-- Bytes of an image that hub memory holds: header, table and unplaced sections (R234). -/
def hubBytes (b : List Byte) : Nat :=
  (((List.range (min 32 (hdrSecs b))).map fun i => Sec.of (leAt b (64 + 16 * i) 16)).filter fun x => !placedType x.typ).foldl
    (fun a x => a + x.size * 64) (tableEnd b)

/-- Image data has arrived for the load in progress: in file order it is held and placed; the last byte ends the
fetch (R234). (DEDUCED, unsafe: notes/assumptions/49.md.) -/
def State.loadArrive (s : State) (off len : Nat) (bs : List Byte) : State :=
  match s.loader.busy with
  | none => s
  | some c =>
    if bs.length != len then s.rejectLoad c 0x2E 0 noIndex 0
    else
      let old := s.loader.bytes.length
      let x := takePieces (s.loader.pieces.length + 1) old (s.loader.pieces ++ [(off, bs)])
      let b := s.loader.bytes ++ x.1
      let s1 := { s with loader := { s.loader with bytes := b, pieces := x.2 } }
      let s2 := s1.placeNew c (if old < 64 || old < tableEnd b then 0 else old) b
      if 64 ≤ b.length && tableEnd b ≤ b.length && 2 ^ 26 < hubBytes b then s2.rejectLoad c 0x2E 0 noIndex 0
      else if b.length == s.loader.curLen * 64 then s2.modLoad c fun l => { l with state := 2 }
      else s2.pumpPorts

/-- The tag numbered `id`. -/
def State.tagOf (s : State) (id : Nat) : Option PortTag := s.tags.find? fun t => t.id == id
/-- A tag is free again; one that a fence quarantined leaves its partition's count (R372, R384). -/
def State.freeTagId (s : State) (id : Nat) : State :=
  let s1 := match s.tagOf id with
    | some t => if t.held then s.modCtl t.g fun p => { p with quarantined := p.quarantined - 1 } else s
    | none => s
  { s1 with tags := s1.tags.filter fun t => t.id != id }

/-- A read of the load in progress was answered: its tag is free and its bytes taken, or its error ends the load with
the port's status (R234, R242). -/
def State.loadAnswer (s : State) (t : PortTag) (status : Nat) (bs : List Byte) : State :=
  let s1 := s.freeTagId t.id
  if t.quarantined then s1.pumpPorts
  else match s1.loader.busy with
    | none => s1
    | some c => if status != 0 then s1.rejectLoad c 0x2E 0 noIndex status else s1.loadArrive t.off t.len bs

/-- LOAD_FETCH_DATA: image data that arrives under a tag of the load is hashed, held or placed (R234); an error of the
port ends the load. -/
def execLoadFetchData (tag status at_ : Nat) (bs : List Byte) (s0 : State) : Host.Outcome State Fault Refusal :=
  let s := s0.atClk at_
  match s.tagOf tag with
  | none => .next s
  | some t => if t.op == 1 then .next (s.loadAnswer t status bs) else .next s

/-! ### Checks and commit (R235, R239) -/

/-- Pack table entries that are free, ascending (R262). -/
def State.freePacks (s : State) : List Nat := (List.range 4096).filter fun i => !(Tab.get s.packs i {}).valid

/-- Install the Pack groups of a context in free entries (R239, R262). -/
def State.installPacks (s : State) (c : Nat) (gs : List (Nat × Nat × Nat)) : State × List Nat :=
  let at_ := s.freePacks.take gs.length
  (((gs.zip at_).foldl (fun (t : State) (e : (Nat × Nat × Nat) × Nat) => { t with packs := Tab.set t.packs e.2 ⟨true, e.1.2.1, e.1.1, c, e.1.2.2⟩ }) s), at_)

/-- Remove the Pack groups of a context. -/
def State.removePacks (s : State) (c : Nat) : State := { s with packs := s.packs.filter fun e => e.2.ctx != c }

/-- Define the zero-defined buffers of a context (R229, R239): bulk ones in every bank, those of cluster memory where
the context is resident. -/
def State.defineZero (s : State) (c : Nat) (im : Image) : State :=
  let s1 := (im.bufs.filter fun b => b.zeroDef && !b.cm).foldl (fun t b =>
    (t.rangeState { ctx := c, loc := 0, unit := 4, instr := 0 } 0 b.addr (b.size * b.banks) 1).2) s
  (s1.partsOf c).foldl (fun t g => if t.residentOf g == some c then t.zeroCmBufs c g else t) s1

/-- Copy the initial data of the buffers into their first banks (R228). -/
def State.copyInit (s : State) (c : Nat) (im : Image) : State :=
  (im.bufs.filter fun b => !b.cm && b.initLen != 0).foldl (fun t b =>
    (t.writeRange { ctx := c, loc := 0, unit := 4, instr := 0 } 0 b.addr (slice (im.file 9) (64 * b.initOff) (64 * b.initLen))).2) s

/-- The drift slots that an image's weight sets give (R153). -/
def driftOf (ws : List WSet) : List (Nat × Drift) :=
  ws.map fun w => (w.slot, { fmtNow := w.fmtCode, fallbackFmt := w.fbCode, trip := w.trip, limit := w.limit })

/-- Mint (R211, R239): the objects of the context's partitions where no other context is resident, and the minted
total. -/
def State.mint (s : State) (c : Nat) (im : Image) : State :=
  let s1 := (s.partsOf c).foldl (fun t g => match t.residentOf g with
    | some x => if x == c then t.reseed c g else t
    | none => t.reseed c g) s
  s1.modCens c fun _ => { minted := im.bounds.foldl (· + ·) 0 }

/-- The records and counters that a load clears, and stop_mask (R117, R153, R204, R221, R239, R279). -/
def State.clearAtLoad (s : State) (c : Nat) (im : Image) : State :=
  let s1 := s.modArith c fun _ => { stopMask := im.stopMask }
  let s2 := s1.modMemCtx c fun m => { win := m.win }
  let s3 := { s2 with
    packCtx := Tab.erase s2.packCtx c
    drifts := (driftOf ((tableOf (im.file 4) 32).map fun x => ⟨x⟩)).foldl (fun (t : Tab Drift) (e : Nat × Drift) => Tab.set t (c * 256 + e.1) e.2)
      (Tab.eraseRange s2.drifts (c * 256) (c * 256 + 256)) }
  s3.modRun c fun r => { assign := r.assign }

/-- LOAD_COMMIT (R239). -/
def State.commitLoad (s : State) (c : Nat) (im : Image) : State :=
  let dg := im.digest
  let s0 := s.modLoad c fun l => { l with img := im }
  let s1 := (s0.defineZero c im).copyInit c im
  let p := s1.installPacks c im.groups
  let s2 := p.1.modLoad c fun l => { l with
    state := 4, status := stOk, reason := 0, section_ := 0, index := noIndex, fetchStatus := 0,
    loads := wrapAdd 16 l.loads 1, digest32 := leNat (dg.take 4), img := { im with packAt := p.2 } }
  let s3 := (s2.clearAtLoad c im).mint c im
  { s3.modLoad c fun l => { l with ctxDigest := s3.contextDigest c } with
    loader := { s3.loader with busy := none, bytes := [], pieces := [] }, glb := { s3.glb with digestStale := true } }

/-- The first failed check of the load in progress (R235): reason, section type, index. (DEDUCED, unsafe: notes/assumptions/48.md.) -/
def State.checkLoad (s : State) (c : Nat) (im : Image) : Option (Nat × Nat × Nat) :=
  let b := s.loader.bytes
  let l := s.loader
  let tag (code : Nat) (f : Fail) : Option (Nat × Nat × Nat) := f.map fun x => (code, x.1, x.2)
  match tag 0x20 (checkFormat b im) with
  | some r => some r
  | none => match tag 0x21 (checkDigest b) with
    | some r => some r
    | none =>
      if l.winChanged then some (0x22, 0, noIndex)
      else
        let k := Chk.of im (s.partsOf c) l.curRankBase l.curRankCount
        k.all s.fitEnv (((s.window c).map (·.2)).getD 0) s.freePacks.length s.tick.period s.gov.slew s.limitMw (s.jobOf c).isSome

/-- LOAD_CHECK: after the fetch the loader checks the image in reason-code order, and commits one that passes (R235,
R239). -/
def execLoadCheck (at_ : Nat) (s0 : State) : Host.Outcome State Fault Refusal :=
  let s := s0.atClk at_
  match s.loader.busy with
  | none => .next s
  | some c =>
    if (s.load c).state != 2 then .next s
    else
      let im := { Image.parse s.loader.bytes with rankBase := s.loader.curRankBase }
      match s.checkLoad c im with
      | some r => .next (s.rejectLoad c r.1 r.2.1 r.2.2 0)
      | none => .next (s.commitLoad c im)

/-! ### Abort and unload (R240, R242) -/

/-- LOAD_ABORT: the abort command stops the load of a context and cleans up, or reports ST_ALREADY_DONE (R242). -/
def execLoadAbort (c at_ : Nat) (s0 : State) : Host.Outcome State Fault Refusal :=
  let s := { s0.atClk at_ with loader := { s0.loader with ctx := c } }
  if s.loader.busy == some c then .next (s.endLoad c stAborted 0 0 noIndex 0)
  else .next (s.modLoad c fun l => { l with status := stAlreadyDone, reason := 0 })

/-- Burn (R211): the objects of the partitions in which the context is resident become 0, and nothing is resident. -/
def State.burn (s : State) (c : Nat) : State :=
  (s.partsOf c).foldl (fun t g => if t.residentOf g == some c || t.residentOf g == none then
      (t.emptySync g).modCtl g fun p => { p with residentValid := false, resident := 0 }
    else t) s

/-- Unload a context (R240): final census, burn, Pack groups removed, window unwritten, state empty, start idle. What
ballast remains is charged to it (R62). -/
def State.doUnload (s : State) (c : Nat) : State :=
  let was := s.released c
  let s1 := (((s.finalFlag c).takeCensus c true).2.burn c).removePacks c
  let s2 := (s1.cleanLoad c).modLoad c fun l => { l with
    state := 0, status := stOk, reason := 0, section_ := 0, index := noIndex, fetchStatus := 0, digest32 := 0, ctxDigest := 0, img := {} }
  let s3 := (s2.modStart c fun x => { x with state := 0 }).modRun c fun r => { assign := r.assign }
  { s3 with gov := { s3.gov with ballastCtx := if was then some c else s3.gov.ballastCtx }, glb := { s3.glb with digestStale := true } }

/-- UNLOAD: the unload command runs at once for a context that is not released, and otherwise is deferred to the next
step boundary barrier; a load in progress is aborted (R240, R242). -/
def execUnload (c at_ : Nat) (s0 : State) : Host.Outcome State Fault Refusal :=
  let s := { s0.atClk at_ with loader := { s0.loader with ctx := c } }
  if s.loader.busy == some c then .next (s.endLoad c stAborted 0 0 noIndex 0)
  else if (s.load c).state != 4 then .next (s.modLoad c fun l => { l with status := stAlreadyDone, reason := 0 })
  else if s.loadBusy then .next (s.loadReject c 0x2F 0)
  else if s.released c && !(s.run c).stopped then
    .next ((s.modLoad c fun l => { l with state := 5 }).modRun c fun r => { r with unloadDue := true })
  else .next (s.doUnload c)

/-- DEFERRED_UNLOAD: a deferred unload runs at the step boundary barrier (R240). -/
def execDeferredUnload (c at_ : Nat) (s0 : State) : Host.Outcome State Fault Refusal :=
  let s := s0.atClk at_
  if (s.run c).unloadDue && (!(s.run c).inStep || (s.run c).stopped) then .next (s.doUnload c) else .next s

/-! ### Welt changes (R24, R238, R242) -/

/-- Repeat R238 for every loaded image with the Welt links as they will be; an image that no longer fits is reported
and stays loaded. -/
def State.refit (s : State) (up : List Bool) : State :=
  let e := { s with weltUp := up }.fitEnv
  (s.loads.filter fun x => x.2.state == 4).foldl (fun t x =>
    let im := x.2.img
    let k := Chk.of im (s.partsOf x.1) im.rankBase im.ranksHosted
    if (k.checkFit e im.period).isSome then t.report 0 6 0x2C noPart x.1 else t) s

/-- The Welt links as they will be once what waits for the next edge has taken effect. -/
def State.weltSoon (s : State) : List Bool := s.weltNext.foldl (fun l e => l.set e.1 e.2) s.weltUp

/-- WELT_LINK_DOWN: a Welt link goes out of service from the next edge; its traffic goes the other way round, or
partitions are fenced at that edge; tick fit is repeated for every loaded image (R24, R238). -/
def execWeltLinkDown (l : Nat) (s : State) : Host.Outcome State Fault Refusal :=
  if 11 < l then .next s
  else
    let s1 := { s with weltNext := s.weltNext.filter (fun (e : Nat × Bool) => e.1 != l) ++ [(l, false)] }
    .next ((s1.report 0 9 stLinkDown).refit s1.weltSoon)

/-- WELT_LINK_RESTORED: a Welt link returns to service from the next edge, and tick fit is repeated (R24, R238). -/
def execWeltLinkRestored (l : Nat) (s : State) : Host.Outcome State Fault Refusal :=
  if 11 < l then .next s
  else
    let s1 := { s with weltNext := s.weltNext.filter (fun (e : Nat × Bool) => e.1 != l) ++ [(l, true)] }
    .next (s1.refit s1.weltSoon)

/-- The dies that cannot reach every other die (R24). -/
def State.cutDies (s : State) : List Nat :=
  (List.range 4).filter fun d => (List.range 4).any fun e => (s.weltPath d e).isNone

/-- Welt changes take effect at an edge (R24, R343): partitions of dies that are cut off are fenced with cause 3; the
ports of an engine with both its links down fail. -/
def State.weltEdge (s : State) : State :=
  if s.weltNext.isEmpty then s
  else
    let s1 := { s with weltUp := s.weltSoon, weltNext := [] }
    let s2 := (List.range 64).foldl (fun t g => if s1.cutDies.contains (dieOf g) then t.fence g 3 else t) s1
    let fail (t : State) (ps : List Nat) : State := ps.foldl (fun u p => if (u.port p).state == 0 then u else u.portFailed p) t
    let s3 := if !s2.welt 8 && !s2.welt 9 then fail s2 ((List.range 8).map (7 + ·)) else s2
    if !s3.welt 10 && !s3.welt 11 then fail s3 ((List.range 8).map (15 + ·)) else s3

end Sys2Proof.Machine
end

