-- ==== Sys2Proof/Machine/Optics.lean ====
section
/-! DEFINITION. The optical engines: ring search and assignment, lock, feed-forward, lanes out, calibration, laser
loss, temperature tables, the switch fabric, plans and circuits, and the monitor ADCs
(spec/16_optical_engines.md R344 to R363). -/

namespace Sys2Proof.Machine

def stRingSearchFail : Nat := 0x50
def stLaserLoss : Nat := 0x51
def stLockLost : Nat := 0x52
def stCalFail : Nat := 0x53
def stMapInvalid : Nat := 0x54
def stTableRange : Nat := 0x55
def stCircuitCold : Nat := 0x56

def State.eng (s : State) (e : Nat) : Eng := (s.opt.engs[e]?).getD {}
def State.modEng (s : State) (e : Nat) (f : Eng → Eng) : State :=
  { s with opt := { s.opt with engs := s.opt.engs.set e (f (s.eng e)) } }
def State.bus (s : State) (b : Nat) : Bus := Tab.get s.opt.buses b {}
def State.modBus (s : State) (b : Nat) (f : Bus → Bus) : State :=
  { s with opt := { s.opt with buses := Tab.set s.opt.buses b (f (s.bus b)) } }
def State.ring (s : State) (i : Nat) : Ring := Tab.get s.opt.rings i {}
def State.modRing (s : State) (i : Nat) (f : Ring → Ring) : State :=
  { s with opt := { s.opt with rings := Tab.set s.opt.rings i (f (s.ring i)) } }
def State.adc (s : State) (e : Nat) : Adc := (s.opt.adcs[e]?).getD {}
def State.modAdc (s : State) (e : Nat) (f : Adc → Adc) : State :=
  { s with opt := { s.opt with adcs := s.opt.adcs.set e (f (s.adc e)) } }

/-- An optical status: kept in last_status and reported as a note (R361, R362, R484). -/
def State.optStatus (s : State) (e status : Nat) (loc : Nat := 0) : State :=
  (s.modEng e fun x => { x with lastStatus := status }).report 0 10 status noPart noCtx loc

/-- A refusal of an engine (R362). -/
def State.optRefuse (s : State) (e : Nat) : State := s.modEng e fun x => { x with cmdRefused := true }
def State.mapRefuse (s : State) (e : Nat) : State := (s.optRefuse e).optStatus e stMapInvalid

/-- The fabric port of fibre port `t` of engine `e` (R344). -/
def fibrePort (e t : Nat) : Nat := 7 + 8 * e + t
/-- Fibre ports. -/
def fibres : List Nat := List.range 8

/-- Every fibre port of an engine is off. -/
def State.allOff (s : State) (e : Nat) : Bool := fibres.all fun t => (s.port (fibrePort e t)).state == 0

/-- The bus of a transceiver: `k` 0 transmit, 1 receive. -/
def busOf (e t k : Nat) : Nat := 16 * e + 2 * t + k

/-! ### Search and assignment (R345 to R347) -/

/-- One channel unit, and the most that a heater moves a ring. -/
def chanUnit : Nat := 20000
def heatMax : Nat := 60000

/-- The least heater code whose shift reaches `sh` (R345, R347). (DEDUCED, unsafe: notes/assumptions/63.md.) -/
def heaterFor (sh : Nat) : Nat := ((List.range 4096).find? fun h => decide (sh * 4095 * 4095 ≤ h * h * heatMax)).getD 4095

/-- The shift of a heater code (R345). -/
def heaterShift (h : Nat) : Nat := h * h * heatMax / (4095 * 4095)

/-- One candidate of `assign` (R347): ring, rings skipped, lanes, worst shift, and the rings that serve. -/
structure Cand where
  r : Nat
  used : Nat
  lanes : Nat
  worst : Nat
  /-- ring, wavelength, shift -/
  serves : List (Nat × Nat × Nat)
  deriving DecidableEq, Repr

/-- Skip bad rings. -/
def Cand.skip (bad : Nat) : Nat → Cand → Cand
  | 0, c => c
  | k + 1, c => if c.used < 18 && bitOf bad c.r then Cand.skip bad k { c with r := (c.r + 1) % 18, used := c.used + 1 } else c

/-- Place wavelength `w`. -/
def Cand.place (rho : List Nat) (bad w : Nat) (c0 : Cand) : Cand :=
  let c := c0.skip bad 18
  if c.used == 18 then c
  else
    let s := (w * chanUnit + 18 * chanUnit - ((rho[c.r]?).getD 0) % (18 * chanUnit)) % (18 * chanUnit)
    let c1 := if s ≤ heatMax then { c with lanes := c.lanes + 1, worst := max c.worst s, serves := c.serves ++ [(c.r, w, s)] } else c
    { c1 with r := (c.r + 1) % 18, used := c.used + 1 }

/-- The candidate that starts at ring `st`. -/
def candFrom (rho : List Nat) (bad st : Nat) : Cand :=
  (List.range 16).foldl (fun c w => if c.used == 18 then c else c.place rho bad w) ⟨st, 0, 0, 0, []⟩

/-- `assign` of R347: the best start and its candidate. -/
def assignRings (rho : List Nat) (bad : Nat) : Nat × Cand :=
  (List.range 18).foldl (fun (b : Nat × Cand) st =>
    let c := candFrom rho bad st
    if b.2.lanes < c.lanes || (b.2.lanes == c.lanes && c.worst < b.2.worst) then (st, c) else b) (0, candFrom rho bad 0)

/-- Put an assignment of a bus into its rings. -/
def State.setBus (s : State) (b start bad : Nat) (c : Cand) : State :=
  let lanes := c.serves.foldl (fun a x => a + 2 ^ x.2.1) 0
  let s1 := (List.range 18).foldl (fun t r => t.modRing (18 * b + r) fun g =>
    match c.serves.find? fun x => x.1 == r with
    | some x => { g with role := 1, wavelength := x.2.1, heater := heaterFor x.2.2, missed := 0 }
    | none => { g with role := if bitOf bad r then 2 else 0, wavelength := 0, heater := 0, missed := 0 }) s
  s1.modBus b fun x => { x with assigned := true, start := start, bad := bad, lanesIn := lanes, locked := lanes }

/-- Wavelengths that both buses of a transceiver serve (R347). -/
def State.laneMask (s : State) (e t : Nat) : Nat := (s.bus (busOf e t 0)).lanesIn &&& (s.bus (busOf e t 1)).lanesIn

/-- A search command, if every fibre port of the engine is off and the engine is not in table mode (R346, R354). Known
circuits are forgotten (R358). -/
def State.startSearch (s : State) (e : Nat) (cached : Bool) : State :=
  if 1 < e then s
  else if !s.allOff e || (s.eng e).tableMode then s.optRefuse e
  else
    let s1 := s.modEng e fun x => { x with state := 1, cached := cached }
    { s1 with opt := { s1.opt with circs := s1.opt.circs.filter fun (x : Nat × Circ) => x.1 < fibrePort e 0 || fibrePort e 7 < x.1 } }

/-- ENGINE_SEARCH: the search command runs a full ring search on every bus of an engine (R346). -/
def execEngineSearch (e : Nat) (s : State) : Host.Outcome State Fault Refusal := .next (s.startSearch e false)

/-- ENGINE_SEARCH_CACHED: the search_cached command runs a cached ring search (R346). -/
def execEngineSearchCached (e : Nat) (s : State) : Host.Outcome State Fault Refusal := .next (s.startSearch e true)

/-- A cached search falls back to a full one (R346): a stored record is absent, the temperature moved by more than
10 °C, or a ring lies off its expected point. -/
def State.mustSearch (s : State) (e temp : Nat) (found : Bool) : Bool :=
  !found || (List.range 16).any fun i => match (s.bus (16 * e + i)).stored with
    | some r => decide (10 < max r.temp temp - min r.temp temp)
    | none => true

/-- The stored assignment of a bus with the shifts that the sweep measured. -/
def storedCand (r : BusRec) (rho : List Nat) : Cand :=
  let c := candFrom rho r.bad r.start
  { c with lanes := c.serves.length }

/-- A full search of a bus: its rings are assigned from the resonances measured and stored with their heater codes (R346,
R347). -/
def State.searchBus (s : State) (b : Nat) (meas : List Nat) (bad temp : Nat) : State :=
  let a := assignRings meas bad
  (s.setBus b a.1 bad a.2).modBus b fun x => { x with
    stored := some ⟨a.1, bad, (List.range 18).map fun r => match a.2.serves.find? fun y => y.1 == r with
      | some y => heaterFor y.2.2
      | none => 0, temp⟩ }

/-- An element that goes on to train by full search during bring-up sets full_search (R398). -/
def State.elemSearch (s : State) (full : Bool) : State :=
  { s with boot := { s.boot with fullSearch := s.boot.fullSearch || (full && s.boot.state == 4) } }

/-- SEARCH_COMPLETE: a completed search assigns the rings of every bus and brings each port's lanes into service; a port
with fewer than 8 lanes enters failed (R346, R347). `buses` gives for each of the 16 buses the resonances measured and
the bad rings; `found` says that a cached search found every ring where it was expected. -/
def execSearchComplete (e : Nat) (buses : List (List Nat × Nat)) (found : Bool) (temp : Nat) (s : State) : Host.Outcome State Fault Refusal :=
  if 1 < e || (s.eng e).state != 1 then .next s
  else if (s.eng e).cached && s.mustSearch e temp found then
    .next ((s.modEng e fun x => { x with cached := false, tempC := min 127 temp }).elemSearch true)
  else
    let s1 := (List.range 16).foldl (fun t i =>
      let b := 16 * e + i
      let m := (buses[i]?).getD ([], 0x3FFFF)
      match (s.eng e).cached, (t.bus b).stored with
      | true, some r => t.setBus b r.start r.bad (storedCand r m.1)
      | _, _ => t.searchBus b m.1 m.2 temp) s
    let s2 := s1.modEng e fun x => { x with state := 2, cached := false, tempC := min 127 temp, searches := wrapAdd 16 x.searches 1, out := [], faulty := [] }
    .next (fibres.foldl (fun t i =>
      if popCount 16 (t.laneMask e i) < 8 then
        (t.modPort (fibrePort e i) fun x => { x with state := 5, failedAt := t.clk, lastStatus := stRingSearchFail }).optStatus e stRingSearchFail (fibrePort e i)
      else t) s2)

/-! ### Lanes out and back (R350, R351) -/

/-- The ring that serves wavelength `w` on a bus. -/
def State.ringFor (s : State) (b w : Nat) : Option Nat :=
  ((List.range 18).map (18 * b + ·)).find? fun i => ((s.ring i).role == 1 || (s.ring i).role == 3) && (s.ring i).wavelength == w

/-- Change the roles of the two rings of a lane, and its bits of lanes_in. -/
def State.setLane (s : State) (e key role : Nat) (on : Bool) : State :=
  let t := key / 16
  let w := key % 16
  [busOf e t 0, busOf e t 1].foldl (fun u b =>
    let u1 := match u.ringFor b w with
      | some i => u.modRing i fun g => { g with role := role, missed := 0 }
      | none => u
    u1.modBus b fun x => { x with
      lanesIn := if on then x.lanesIn ||| 2 ^ w else if bitOf x.lanesIn w then x.lanesIn - 2 ^ w else x.lanesIn }) s

/-- A lane in service on this side: not out, not leaving. -/
def State.laneIn (s : State) (e key : Nat) : Bool :=
  bitOf (s.laneMask e (key / 16)) (key % 16) && !((s.eng e).out.any fun x => x.key == key)

/-- Send a lane-out request (R350). -/
def State.askLane (s : State) (e key : Nat) (fault : Bool) : State :=
  if (s.eng e).asked.any fun x => x.1 == key then s
  else (s.modEng e fun x => { x with asked := x.asked ++ [(key, fault, s.tickNo)] }).giveCell (fibrePort e (key / 16)) 0
    (.laneOut (key % 16) fault)

/-- A lane has a fault (R351): it is asked out, and recalibrated in the next free slot. -/
def State.laneFault (s : State) (e key : Nat) : State :=
  let s1 := s.modEng e fun x => { x with faulty := if x.faulty.any (fun y => y.1 == key) then x.faulty else x.faulty ++ [(key, 0)] }
  if s.laneIn e key then s1.askLane e key true else s1

/-- A lane returns to service (R350). -/
def State.laneBack (s : State) (e key : Nat) : State :=
  match (s.eng e).out.find? fun x => x.key == key with
  | none => s
  | some o =>
    let s1 := s.modEng e fun x => { x with out := x.out.filter (fun y => y.key != key), faulty := x.faulty.filter (fun y => y.1 != key) }
    if !o.gone then s1
    else (s1.setLane e key 1 true).modPort (fibrePort e (key / 16)) fun x => { x with
      width := if x.state == 3 then min 16 (x.width + 1) else x.width }

/-- A lane leaves at an edge (R350, R351): the port runs on the rest, or goes down below 8. -/
def State.laneLeaves (s : State) (e : Nat) (o : LaneOut) : State :=
  let p := fibrePort e (o.key / 16)
  let s1 := (s.setLane e o.key (if o.fault then 1 else 3) false).modPort p fun x => { x with
    width := x.width - 1, degraded := x.degraded || o.fault }
  let s2 := s1.modEng e fun x => { x with
    out := x.out.map fun y => if y.key == o.key then { y with gone := true } else y,
    calLane := if o.fault then x.calLane else some (o.key, s.tickNo + x.calTicks, false) }
  if (s2.port p).state == 3 && (s2.port p).width < 8 then (s2.portDown p).portStatus p stLinkDown else s2

/-- The engine has a lane out, leaving or asked out for calibration (R352). -/
def Eng.calBusy (x : Eng) : Bool := x.calLane.isSome || (x.out.any fun o => !o.fault) || x.asked.any fun a => !a.2.1

/-- LANE_OUT_REQUEST: a lane-out request received from the peer is accepted, and the lane leaves from edge n + 2, or
refused (R350, R352). -/
def execLaneOutRequest (p w : Nat) (fault : Bool) (s0 : State) : Host.Outcome State Fault Refusal :=
  let s := s0.takeVc0 p 1
  if p < 7 || 22 < p || 15 < w || (s.port p).state != 3 then .next s
  else
    let e := (p - 7) / 8
    let key := 16 * ((p - 7) % 8) + w
    let ok := s.laneIn e key && (fault || (!(s.eng e).calBusy && !(s.adc e).manual))
    let s1 := s.giveCell p 0 (.laneReply w ok)
    .next (if ok then s1.modEng e fun x => { x with out := x.out ++ [⟨key, fault, s.tickNo + 2, false⟩] } else s1)

/-! ### Calibration (R351, R352) -/

/-- The transceiver is looped back (R355). -/
def State.loopedBack (s : State) (e t : Nat) : Bool :=
  let m := (s.eng e)
  let c := if mapCode m.overlay t != 0xF then mapCode m.overlay t else mapCode m.base t
  c != 8

/-- Begin the calibration of a lane of the queue: a faulty lane that is out starts its slot, a looped-back one leaves,
on an up port the end with the lower serial asks. Answers whether the lane was taken up. -/
def State.tryLane (s : State) (e key : Nat) : Bool × State :=
  let p := fibrePort e (key / 16)
  if (s.eng e).out.any fun o => o.key == key && o.gone then
    (true, s.modEng e fun x => { x with calLane := some (key, s.tickNo + x.calTicks, false) })
  else if !s.laneIn e key then (false, s)
  else if s.loopedBack e (key / 16) then
    (true, s.modEng e fun x => { x with out := x.out ++ [⟨key, false, s.tickNo + 2, false⟩] })
  else if (s.port p).state == 3 && Config.serial < (s.port p).peerSerial then (true, s.askLane e key false)
  else (false, s)

/-- The next lane of the cycle, if the engine is free and its service ADC is not in manual use (R352, R360). -/
def State.calNext (s : State) (e : Nat) : State :=
  let x := s.eng e
  if !x.calEn || x.calBusy || (s.adc e).manual then s
  else
    let due := (x.faulty.filter fun f => f.2 < 3).map (·.1)
    let all := due ++ x.calQueue ++ x.calRetry
    let r := all.foldl (fun (acc : Bool × State) key =>
      if acc.1 then acc
      else
        let s1 := acc.2.modEng e fun y => if due.contains key && !(y.calQueue.contains key) then y
          else if y.calQueue.contains key then { y with calQueue := y.calQueue.filter (· != key) }
          else { y with calRetry := y.calRetry.filter (· != key) }
        s1.tryLane e key) (false, s)
    r.2

/-- CAL_CYCLE_START: every cal_interval_s seconds a calibration cycle starts over every lane (R352). -/
def execCalCycleStart (e at_ : Nat) (s0 : State) : Host.Outcome State Fault Refusal :=
  let s := s0.atClk at_
  let x := s.eng e
  if 1 < e || !x.calEn || (x.state != 2 && x.state != 3) || s.clk < x.calClk + x.calInterval * 1100000000 then .next s
  else
    let lanes := fibres.flatMap fun t =>
      if (s.port (fibrePort e t)).state == 3 || s.loopedBack e t then (bitsOf 16 (s.laneMask e t)).map (16 * t + ·) else []
    .next ((s.modEng e fun x => { x with calQueue := lanes, calRetry := [], calClk := s.clk }).calNext e)

/-- LANE_OUT_REPLY: a reply to a lane-out request takes the lane out from edge n + 2, n the tick of the request, or
leaves it in (R350, R352). -/
def execLaneOutReply (p w : Nat) (accept : Bool) (s0 : State) : Host.Outcome State Fault Refusal :=
  let s := s0.takeVc0 p 1
  if p < 7 || 22 < p then .next s
  else
    let e := (p - 7) / 8
    let key := 16 * ((p - 7) % 8) + w
    match (s.eng e).asked.find? fun a => a.1 == key with
    | none => .next s
    | some a =>
      let s1 := s.modEng e fun x => { x with asked := x.asked.filter fun y => y.1 != key }
      if accept then .next (s1.modEng e fun x => { x with out := x.out ++ [⟨key, a.2.1, a.2.2 + 2, false⟩] })
      else if a.2.1 then .next s1
      else .next ((s1.modEng e fun x => { x with calRetry := x.calRetry ++ [key] }).calNext e)

/-- OPT_TTAB's pair of ring `i` (18 × bus + ring) at temperature index `k` (R354, R362). -/
def Opt.table (o : Opt) (i k : Nat) : Paired 32 :=
  let key := 16 * i + k
  Tab.get o.ttab key (pairOf 32 (Config.tableCode key % 4096))

/-- The table entries that bracket the engine temperature in quarter degrees (R354). -/
def tableIdx (t4 : Int) : Nat := if t4 ≤ 80 then 0 else min 15 ((t4.toNat - 80) / 16)

/-- A ring takes its new lock point (R352): `d` is where the fit put it from the old one. -/
def State.relock (s : State) (e i : Nat) (d : Int) : State :=
  let old := (s.ring i).heater
  let new := heaterFor ((heaterShift old : Int) - d).toNat
  let s1 := s.modRing i fun g => { g with heater := new, missed := 0 }
  if !(s.eng e).tableMode then s1
  else
    let k := tableIdx (4 * (s.eng e).tempC : Nat)
    [k, min 15 (k + 1)].eraseDups.foldl (fun t j =>
      let v := ((t.opt.table i j).nat : Int) + new - old
      { t with opt := { t.opt with ttab := Tab.set t.opt.ttab (16 * i + j) (pairOf 32 (clampI 0 4095 v).toNat) } }) s1

/-- CAL_SLOT_END: after cal_ticks ticks a lane's calibration is judged by where the fits of its transmit and receive ring
lie from the old lock points, and the lane returns or stays out for a fault; an abandoned one returns without a failure
(R352, R360, R363). -/
def execCalSlotEnd (e : Nat) (dTx dRx : Int) (s : State) : Host.Outcome State Fault Refusal :=
  match (s.eng e).calLane with
  | none => .next s
  | some (key, end_, abandoned) =>
    if 1 < e || s.tickNo < end_ then .next s
    else
      let b := busOf e (key / 16) 0
      let s0 := s.modEng e fun x => { x with calLane := none }
      if abandoned then .next (((s0.laneBack e key).modEng e fun x => { x with calRetry := x.calRetry ++ [key] }).calNext e)
      else
        let bad (d : Int) : Bool := d < -400 || 400 < d
        if bad dTx || bad dRx then
          let s1 := (s0.modEng e fun x => { x with
            calFail := satAdd 0xFFFF x.calFail 1, out := x.out.map fun o => if o.key == key then { o with fault := true } else o,
            faulty := x.faulty.filter (fun f => f.1 != key) ++ [(key, ((x.faulty.find? fun f => f.1 == key).map (·.2)).getD 0 + 1)] })
          let s2 := [(b, dTx), (b + 1, dRx)].foldl (fun t f => if bad f.2 then t.modBus f.1 fun x => { x with calFails := satAdd 0xFFFF x.calFails 1 } else t) s1
          .next (((s2.modPort (fibrePort e (key / 16)) fun x => { x with degraded := true }).optStatus e stCalFail).calNext e)
        else
          let tune (t : State) (bus : Nat) (d : Int) : State := match t.ringFor bus (key % 16) with
            | some i => t.relock e i d
            | none => t
          let s1 := tune (tune s0 b dTx) (b + 1) dRx
          .next (((s1.modEng e fun x => { x with calDone := satAdd 0xFFFF x.calDone 1 }).laneBack e key).calNext e)

/-- The bound of cal_ticks for a period: 512 µs (R352). -/
def calBound (period : Nat) : Nat := ceilDiv 512 period

/-! ### Holding the rings (R348, R349, R351, R353, R354) -/

/-- LOCK_VISIT: the lock loop visits a ring and corrects its heater by at most 2 GHz; a ring out of its window on two
visits in a row has lost lock and its lane goes out (R348). -/
def execLockVisit (b r : Nat) (err : Int) (s : State) : Host.Outcome State Fault Refusal :=
  let e := b / 16
  let i := 18 * b + r
  let g := s.ring i
  if 31 < b || 17 < r || (s.eng e).state != 2 || g.role != 1 then .next s
  else
    let wide := err < -600 || 600 < err
    let move := clampI (-200) 200 err
    let s1 := s.modRing i fun g => { g with
      err := unsigned 12 (clampI (-2048) 2047 err), missed := if wide then g.missed + 1 else 0,
      heater := heaterFor ((heaterShift g.heater : Int) - move).toNat }
    let bit := 2 ^ g.wavelength
    if wide && 1 ≤ g.missed then
      let s2 := ((s1.modRing i fun g => { g with missed := 0 }).modBus b fun x => { x with
          locked := if bitOf x.locked g.wavelength then x.locked - bit else x.locked, lockLosses := satAdd 0xFFFF x.lockLosses 1 }).modEng e
            fun x => { x with lockLosses := satAdd 0xFFFF x.lockLosses 1 }
      .next ((s2.optStatus e stLockLost).laneFault e (16 * ((b % 16) / 2) + g.wavelength))
    else .next (s1.modBus b fun x => { x with
      locked := if wide then (if bitOf x.locked g.wavelength then x.locked - bit else x.locked) else x.locked ||| bit })

/-- COMB_LINE_LOW: a comb line more than 3 dB below its level at the last calibration takes its lane out for a fault
(R351). -/
def execCombLineLow (p w : Nat) (s : State) : Host.Outcome State Fault Refusal :=
  if p < 7 || 22 < p || 15 < w then .next s else .next (s.laneFault ((p - 7) / 8) (16 * ((p - 7) % 8) + w))

/-- The calibration slot of a lane of one of the ports `ts` is abandoned (R363). -/
def State.abandonCal (s : State) (e : Nat) (ts : List Nat) : State :=
  s.modEng e fun x => { x with calLane := x.calLane.map fun c => if ts.contains (c.1 / 16) then (c.1, c.2.1, true) else c }

/-- LASER_LOSS: a laser input below its floor stops the transmit buses of two transceivers; their ports go down, those in
pass-through or dark carry on (R353). -/
def execLaserLoss (e L : Nat) (s : State) : Host.Outcome State Fault Refusal :=
  if 1 < e || 3 < L then .next s
  else
    let s1 := ((s.modEng e fun x => { x with laserOk := if bitOf x.laserOk L then x.laserOk - 2 ^ L else x.laserOk }).abandonCal e [2 * L, 2 * L + 1]).optStatus e stLaserLoss
    .next ([2 * L, 2 * L + 1].foldl (fun t i =>
      if (t.port (fibrePort e i)).live && !t.loopedBack e i then t.portDown (fibrePort e i) else t) s1)

/-- LASER_RESTORED: a laser fibre above +7 dBm for 1 ms is treated as restored; the ports retrain (R353, R472). -/
def execLaserRestored (e L : Nat) (s : State) : Host.Outcome State Fault Refusal :=
  if 1 < e || 3 < L then .next s
  else .next (s.modEng e fun x => { x with laserOk := x.laserOk ||| 2 ^ L })

/-- Round a / 16 to nearest, ties to even. -/
def round16 (a : Nat) : Nat :=
  let q := a / 16
  let r := a % 16
  if 8 < r || (r == 8 && q % 2 == 1) then q + 1 else q

/-- TABLE_MODE_UPDATE: every 6.4 µs in table mode every heater in service is set from its table by the temperature, given
in quarter degrees Celsius; outside the tables the end entry is used, reported once for each excursion (R354). A broken
pair is not used (R17). -/
def execTableModeUpdate (e : Nat) (t4 : Int) (s : State) : Host.Outcome State Fault Refusal :=
  if 1 < e || !(s.eng e).tableMode then .next s
  else
    let off := t4 < 80 || 320 < t4
    let k := tableIdx t4
    let f := if off then 0 else (t4.toNat - 80) % 16
    let s1 := (List.range 288).foldl (fun t j =>
      let i := 288 * e + j
      if (t.ring i).role != 1 then t
      else
        let a := t.opt.table i k
        let b := t.opt.table i (min 15 (k + 1))
        if !a.ok || !b.ok then t.report 3 10 stPairBroken
        else t.modRing i fun g => { g with heater := round16 (a.nat % 4096 * (16 - f) + b.nat % 4096 * f) }) s
    let s2 := s1.modEng e fun x => { x with tempC := min 127 (t4 / 4).toNat, rangeTold := off }
    .next (if off && !(s.eng e).rangeTold then s2.optStatus e stTableRange else s2)

/-- TABLE_MODE_WRITE: table_mode is written only while every port of the engine is off (R354, R362). The write's other
fields take effect as R362 gives. -/
def execTableModeWrite (e value : Nat) (s : State) : Host.Outcome State Fault Refusal :=
  if 1 < e then .next s
  else
    let on := bitOf value 29
    let s1 := s.modEng e fun x => { x with
      calEn := bitOf value 28, calTicks := max (fld value 27 20) (calBound s.tick.period), calInterval := max 1 (fld value 11 0) }
    if on == (s.eng e).tableMode then .next s1
    else if s.allOff e then .next (s1.modEng e fun x => { x with tableMode := on, state := if on then 3 else 0, rangeTold := false })
    else .next (s1.optRefuse e)

/-! ### The switch fabric (R355, R356) -/

/-- A switch map is valid (R355). -/
def mapOk (m : Nat) : Bool :=
  fibres.all fun t =>
    let c := mapCode m t
    c == 8 || c == 9 || c == 0xF || (decide (c < 8) && c != t && mapCode m c == t)

/-- A map with the codes 0xF of `top` taken from `under`. -/
def layMap (top under : Nat) : Nat :=
  fibres.foldl (fun a t => a + at' (if mapCode top t != 0xF then mapCode top t else mapCode under t) (4 * t)) 0

/-- The map in service (R356). -/
def Eng.swNow (x : Eng) : Nat := layMap x.overlay x.base

/-- Valid plan entries of an engine: index and words. -/
def Opt.entries (o : Opt) (e : Nat) : List (Nat × (Nat × Nat)) := o.plan.filter fun x => x.1 / 32 == e && bitOf x.2.1 31

/-- SWITCH_SLOT_WRITE: a map written to a switch slot is stored, or discarded if it is invalid or a valid plan entry
names the slot while its context is released (R355, R362). -/
def execSwitchSlotWrite (i value : Nat) (s : State) : Host.Outcome State Fault Refusal :=
  if 15 < i then .next s
  else
    let used := (s.opt.entries (i / 8)).any fun x => fld x.2.1 30 28 == i % 8 && s.released (fld x.2.2 9 0)
    if !mapOk value || used then .next (s.mapRefuse (i / 8))
    else .next { s with opt := { s.opt with slots := s.opt.slots.set i (value % 2 ^ 32) } }

/-- MAP_APPLY: the apply command schedules a map slot as the base map at tick apply_at, or is refused (R356). -/
def execMapApply (e slot : Nat) (s0 : State) : Host.Outcome State Fault Refusal :=
  if 1 < e then .next s0
  else
    let s := s0.modEng e fun x => { x with slot := slot % 8 }
    let t := (s.eng e).applyAt.nat
    if !mapOk (s.opt.slot e (slot % 8)) || t ≤ s.tickNo then .next ((s.modEng e fun x => { x with applyPending := false }).mapRefuse e)
    else .next (s.modEng e fun x => { x with applyPending := true, applySlot := slot % 8, applyTick := t })

/-! ### Plans and circuits (R357, R358) -/

/-- A plan entry is refused (R357). -/
def State.planBad (s : State) (i w0 w1 : Nat) : Bool :=
  let e := i / 32
  let m := s.opt.slot e (fld w0 30 28)
  let beacon := [s.tick.upstreamPort, s.tick.backupPort].any fun p =>
    decide (fibrePort e 0 ≤ p) && decide (p ≤ fibrePort e 7) && mapCode m (p - fibrePort e 0) != 0xF
  !mapOk m || beacon || (s.opt.entries e).any fun x => x.1 != i && fld x.2.2 9 0 != fld w1 9 0

/-- PLAN_ENTRY_WRITE: a word of a plan entry is written while its context is loaded and not released, or refused with
ST_MAP_INVALID (R357, R362). -/
def execPlanEntryWrite (i word value : Nat) (s : State) : Host.Outcome State Fault Refusal :=
  if 63 < i then .next s
  else
    let old := Tab.get s.opt.plan i (0, 0)
    let new := if word == 0 then (value % 2 ^ 32, old.2) else (old.1, fld value 9 0)
    let closed (x : Nat × Nat) : Bool := bitOf x.1 31 && ((s.load (fld x.2 9 0)).state != 4 || s.released (fld x.2 9 0))
    if closed old || closed new || (bitOf new.1 31 && s.planBad i new.1 new.2) then .next (s.mapRefuse (i / 32))
    else .next { s with opt := { s.opt with plan := Tab.put s.opt.plan i (0, 0) new } }

/-- Phase `ph` on section `g` of a context has retired: the entries that name it fire at the next edge (R357). -/
def State.planHear (s : State) (c g ph : Nat) : State :=
  [0, 1].foldl (fun t e =>
    let hit := ((t.opt.entries e).filter fun x => fld x.2.2 9 0 == c && fld x.2.1 27 16 == g && fld x.2.1 15 0 == ph).map (·.1)
    if hit.isEmpty || (t.eng e).suspended then t
    else t.modEng e fun x => { x with fires := x.fires ++ hit.filter fun i => !x.fires.contains i }) s

/-- The context's barrier, or a rollback that quiesces it: the overlay is cleared at the next edge; a barrier also lets a
suspended plan go on (R356, R357). -/
def State.planBarrier (s : State) (c : Nat) (barrier : Bool) : State :=
  [0, 1].foldl (fun t e =>
    if (t.opt.entries e).any fun x => fld x.2.2 9 0 == c then
      t.modEng e fun x => { x with clearNext := true, suspended := x.suspended && !barrier }
    else t) s

/-- A port's circuit is frozen (R358); of more than 4 the oldest is forgotten. -/
def State.freeze (s : State) (p : Nat) : State :=
  let x := s.port p
  if x.state != 3 then s
  else
    let c : Circ := ⟨x.peerSerial, x.peerDev, x.peerPort, x.peerRole, x.gen, x.width, x.vcs⟩
    let mine := s.opt.circs.filter fun y => y.1 == p && y.2.serial != c.serial
    let rest := s.opt.circs.filter fun y => y.1 != p
    let s1 := { s with opt := { s.opt with circs := rest ++ (mine.drop (mine.length - 3)) ++ [(p, c)] } }
    s1.modPort p fun x => { x with gen := wrapAdd 8 x.gen 1, vcs := [{}, {}, {}] }

/-- The ident of a circuit (R358). -/
def Circ.ident (c : Circ) : Cell := .ident Config.serial c.gen (c.vcs.map fun y => (y.rx + 65535) % 65536)

/-- A port's connection changes at an edge (R355, R358): its circuit freezes; where it is terminated again the ident of
the circuit last open goes out. -/
def State.switchPort (s : State) (e t code : Nat) : State :=
  let p := fibrePort e t
  if (s.port p).state == 0 || (s.port p).state == 5 then s
  else
    let s1 := (s.freeze p).abandonCal e [t]
    let s2 := s1.modPort p fun x => { x with state := 1, width := 0, search := false }
    match code == 8, (s2.opt.circs.filter fun y => y.1 == p).getLast? with
    | true, some y => s2.send (.frame p 0 y.2.gen 0 y.2.ident)
    | _, _ => s2

/-- The engine takes a new base map and overlay; the ports whose code changes switch. -/
def State.setMaps (s : State) (e base overlay : Nat) : State :=
  let old := (s.eng e).swNow
  let s1 := s.modEng e fun x => { x with base := base, overlay := overlay }
  let new := (s1.eng e).swNow
  fibres.foldl (fun t i => if mapCode old i == mapCode new i then t else t.switchPort e i (mapCode new i)) s1

/-- MAP_APPLY_EDGE and PLAN_FIRE (R356, R357, R363): an apply that is due wins over the plan. -/
def State.mapEdge (s : State) (e : Nat) : State :=
  let x := s.eng e
  let s0 := s.modEng e fun x => { x with fires := [], clearNext := false }
  if x.applyPending && x.applyTick ≤ s.tickNo then
    (s0.modEng e fun x => { x with applyPending := false, suspended := true }).setMaps e (layMap (s.opt.slot e x.applySlot) x.base) 0xFFFFFFFF
  else
    let ov := if x.clearNext then 0xFFFFFFFF else x.overlay
    let es := (s.opt.entries e).filter fun y => x.fires.contains y.1
    let new := es.foldl (fun a y => layMap (s.opt.slot e (fld y.2.1 30 28)) a) ov
    (s0.modEng e fun x => { x with planFires := wrapAdd 16 x.planFires es.length }).setMaps e x.base new

/-- A circuit reopens (R358): frames after the peer's last accepted ones go again, returns owed are sent first. -/
def State.reopen (s : State) (p : Nat) (c : Circ) (last : List Nat) : State :=
  let s1 := { s with opt := { s.opt with circs := s.opt.circs.filter fun (y : Nat × Circ) => y.1 != p || y.2.serial != c.serial } }
  let s2 := (s1.send (.frame p 0 c.gen 0 c.ident)).modPort p fun x => { x with
    state := 3, gen := c.gen, width := c.width, peerDev := c.dev, peerPort := c.port, peerRole := c.role, peerSerial := c.serial,
    lastFrame := s.clk,
    vcs := (List.range 3).map fun v =>
      let y := (c.vcs[v]?).getD {}
      { y with
        kept := y.kept.filter (fun f => seqBefore ((last[v]?).getD 0) f.1), replays := 0, owed := 0,
        o := pairOf 16 (y.o.nat - y.owed), rr := pairOf 32 (wrapAdd 32 y.rr.nat y.owed) } }
  let s3 := (List.range 3).foldl (fun t v =>
    let y := (c.vcs[v]?).getD {}
    if y.owed == 0 then t else t.send (.returns p v y.rx y.owed false)) s2
  s3.resend p

/-- CIRCUIT_IDENT_RECEIVE: on receipt of the peer's ident a frozen circuit reopens and resends; a peer that is not known
is trained, with ST_CIRCUIT_COLD (R358). -/
def execCircuitIdentReceive (p serial gen : Nat) (last : List Nat) (at_ : Nat) (s0 : State) : Host.Outcome State Fault Refusal :=
  let s := s0.atClk at_
  if p < 7 || 22 < p || (s.port p).state != 1 then .next s
  else
    let e := (p - 7) / 8
    if mapCode (s.eng e).swNow ((p - 7) % 8) != 8 then .next s
    else match s.opt.circs.find? fun y => y.1 == p && y.2.serial == serial && y.2.gen == gen with
      | some y => .next (s.reopen p y.2 last)
      | none => .next ((s.modEng e fun x => { x with coldOpens := satAdd 0xFFFF x.coldOpens 1 }).optStatus e stCircuitCold p)

/-- PORT_TRAINING_DONE: training of a port ends: at a width that it allows the port sends hello, and otherwise it goes on
as a full search or fails (R327, R398). An optical port's lanes are all in again (R351). -/
def execPortTrainingDone (p width : Nat) (ok : Bool) (at_ : Nat) (s0 : State) : Host.Outcome State Fault Refusal :=
  let s := s0.atClk at_
  if 22 < p then .next s
  else
    let e := (p - 7) / 8
    let t := (p - 7) % 8
    let s1 := if p < 7 || (s.port p).state != 1 then s
      else
        let mine := (s.eng e).out.filter fun o => o.key / 16 == t
        (mine.foldl (fun u o => u.laneBack e o.key) s).modEng e fun x => { x with faulty := x.faulty.filter fun f => f.1 / 16 != t }
    let s2 := s1.trained p width Config.serial (s.glb.cfgDigest % 2 ^ 64) ok
    .next (s2.elemSearch (s2.port p).search)

/-! ### Edges (R349 to R352, R356, R357) -/

/-- T_m after a tick (R349): a first-order filter of 400 µs towards 0.012 K for each watt of P_est, in nK; e^(−P/400) by
its series. -/
def filterTm (tm pEst period : Nat) : Nat :=
  let target : Int := (pEst * 1200000 : Nat)
  let scale : Int := 1000000000000
  let x : Int := scale * period / 400
  let r := (List.range 12).foldl (fun (acc : Int × Int) i => (acc.1 + acc.2, acc.2 * (-x) / (scale * (i + 1 : Nat)))) (0, scale)
  (target + ((tm : Int) - target) * r.1 / scale).toNat

/-- What an engine does at a tick edge: cal_ticks keeps its bound, lanes leave, maps change. -/
def State.engEdge (s : State) (e : Nat) : State :=
  let b := calBound s.tick.period
  let s1 := s.modEng e fun x =>
    let up := b - min b x.calTicks
    { x with calTicks := max x.calTicks b, calLane := x.calLane.map fun c => (c.1, c.2.1 + up, c.2.2) }
  let s2 := ((s1.eng e).out.filter fun o => !o.gone && o.edge ≤ s.tickNo).foldl (fun t o => t.laneLeaves e o) s1
  s2.mapEdge e

def State.optEdge (s : State) : State := (s.engEdge 0).engEdge 1

/-- The feed-forward of an engine after an edge (R349): T_m follows P_est, and every heater that serves a lane keeps the offset
k[r] × T_m: what the change of T_m adds to it. In table mode there is no feed-forward (R354). -/
def State.feedForward (s : State) (e : Nat) : State :=
  let x := s.eng e
  let tm := filterTm x.tm s.gov.pEst s.tick.period
  let s1 := s.modEng e fun y => { y with tm := tm }
  if x.state != 2 then s1
  else (List.range 288).foldl (fun t j =>
    let i := 288 * e + j
    if (t.ring i).role != 1 && (t.ring i).role != 3 then t
    else t.modRing i fun g => { g with
      heater := (clampI 0 4095 ((g.heater : Int) + Config.feedForward i tm - Config.feedForward i x.tm)).toNat }) s1

def State.feedForwardEdge (s : State) : State := (s.feedForward 0).feedForward 1

/-! ### The service ADC (R359, R360) -/

/-- ADC_SAMPLE_DONE: the service ADC of an engine completes a sample with its settings; new settings then take effect and
make three samples invalid (R359, R360). -/
def execAdcSampleDone (e code : Nat) (s : State) : Host.Outcome State Fault Refusal :=
  if 1 < e then .next s
  else .next (s.modAdc e fun a =>
    let b := { a with
      valid := a.invalid == 0, sFilter := a.cur.1, sGain := a.cur.2.1, sChannel := a.cur.2.2, code := code % 2048,
      samples := wrapAdd 32 a.samples 1, invalid := a.invalid - 1 }
    match a.next with
    | some n => { b with cur := n, next := none, invalid := 3 }
    | none => b)

/-- ADC_SETTINGS_WRITE: a write of manual or of the settings of the service ADC takes effect at the end of the sample in
progress; a sweep in progress is abandoned when manual is set (R360, R362). -/
def execAdcSettingsWrite (e value : Nat) (s : State) : Host.Outcome State Fault Refusal :=
  if 1 < e then .next s
  else
    let a := s.adc e
    let man := bitOf value 31
    let f := fld value 30 28
    let sel := fld value 4 0
    let a1 := { a with
      manual := man, filter := if f < 6 then f else a.filter, gain := fld value 27 26, bus := fld value 9 5,
      sel := if sel < 21 then sel else a.sel }
    let want := (a1.filter, a1.gain, at' (a1.bus) 5 + a1.sel)
    let a2 := if man && want != a.next.getD a.cur then { a1 with next := some want } else a1
    let s1 := s.modAdc e fun _ => a2
    .next (if man && !a.manual then s1.modEng e fun x => { x with calLane := x.calLane.map fun c => (c.1, c.2.1, true) }
      else if !man && a.manual then s1.calNext e else s1)

end Sys2Proof.Machine
end

