-- ==== Sys2Proof/Machine/Boot.lean ====
section
/-! DEFINITION. From power-on to ready: the comparator, reset release, fuses, flash, rails, training and self-test
(spec/18_bring_up.md R385 to R397; spec/20_management_and_updates.md R433, R438; spec/22_electrical_and_package.md R467,
R468, R476). -/

namespace Sys2Proof.Machine

/-- The KM2 drives FAULT_N low (R387, R369). -/
def State.drivesFaultN (s : State) : Bool := s.boot.vaon && (s.boot.state == 0 || s.boot.state == 8 || s.dog.faultN)

/-- All state outside the always-on domain, the fuses, the flash and the meter at its reset value (R386, R461). -/
def State.lost (s : State) : State :=
  { State.reset with
    clk := s.clk, freeCtr := s.freeCtr, pending := s.pending, tx := s.tx, glb := { maps := s.glb.maps }, fuses := s.fuses,
    flash := s.flash, meter := s.meter,
    boot := { vaon := s.boot.vaon, trialBoots := s.boot.trialBoots, tripSeen := s.boot.tripSeen } }

/-- The rails in the order in which they are raised, by PWR_RAIL index (R467). -/
def railGroups : List (List Nat) := [[7, 5, 6], [4], [0, 1, 2, 3], [8, 9, 10, 11]]
def railOrder : List Nat := railGroups.flatten

/-- PMBus OPERATION to a list of rails. -/
def State.rails (s : State) (rs : List Nat) (on : Bool) : State := rs.foldl (fun t r => t.send (.pmbus r on)) s

/-- BROWN_OUT's effect (R386): every other domain is held in reset and its state lost; the regulators are sent "off" in
reverse order. -/
def State.brownOut (s : State) : State := s.lost.rails railOrder.reverse false

/-- The power-on path from R388 on: reset is released (R388). -/
def State.release (s : State) : State := { s with boot := { s.boot with releaseClk := s.clk } }

/-- The power-on path runs again from R388, rails included (R433, R436, R437). -/
def State.powerCycle (s : State) (selZero : Bool) : State :=
  let t := s.brownOut
  { t with boot := { t.boot with above := true, selZero := selZero } }.release

/-- V_AON_VALID: V_AON becomes valid, and the comparator starts below (R385). -/
def execVAonValid (s : State) : Host.Outcome State Fault Refusal :=
  if s.boot.vaon then .next s
  else
    let t := s.lost
    .next { t with boot := { vaon := true } }

/-- V_AON_LOSS: V_AON falls below 1.62 V: trial_boots, trip_seen and every other always-on field is lost (R468). -/
def execVAonLoss (s : State) : Host.Outcome State Fault Refusal :=
  let t := s.lost
  .next { t with boot := { vaon := false } }

/-- VBUS_ABOVE: the ball has stayed above V_rise for 10 ms: the comparator reads above and reset is released (R385, R388),
unless a trip still holds it (R476). -/
def execVbusAbove (at_ : Nat) (s0 : State) : Host.Outcome State Fault Refusal :=
  let s := s0.atClk at_
  if !s.boot.vaon || s.boot.above then .next s
  else .next { s with boot := { s.boot with above := true } }.release

/-- BROWN_OUT: while the comparator reads above, a fall below V_fall for 2 µs (R386). -/
def execBrownOut (at_ : Nat) (s0 : State) : Host.Outcome State Fault Refusal :=
  let s := s0.atClk at_
  .next (if s.boot.vaon && s.boot.above then s.brownOut else s)

/-- Enter halted (R388, R389, R392, R394, R395). -/
def State.bootHalt (s : State) (reason : Nat) : State := { s with boot := { s.boot with state := 8, haltReason := reason } }

/-- Enter rom_wait: the management and USB ports are up (R392). -/
def State.romWait (s : State) : State := { s with boot := { s.boot with state := 7 }, mgmt := { s.mgmt with up := true } }

/-! ### Fuses (R36, R389) -/

/-- Bits set in a number of `n` bits. -/
def popcount (n x : Nat) : Nat := ((List.range n).filter fun i => bitOf x i).length

/-- A region's map is intact and enables exactly 72 clusters (R36). -/
def RegionMap.ok (m : RegionMap) : Bool :=
  m.lo.ok && m.mid.ok && m.hi.ok && popcount 32 m.lo.nat + popcount 32 m.mid.nat + popcount 16 m.hi.nat == 72

/-- FUSE_CHECK: every fuse-map entry is intact (R389). -/
def State.fusesOk (s : State) : Bool :=
  s.glb.maps.all RegionMap.ok && s.fuses.rows.all (fun e => e.2.ok) && s.fuses.welt.all (fun p => p.ok) && s.fuses.lanes.ok &&
  s.fuses.keys.all fun p => p.ok

/-- PLL_LOCK: the PLL locks within 2 ms of the release, the straps are sampled, the fuses checked (R388, R389); with
BOOT_SEL = 3 the ROM reads no slot (R392). -/
def execPllLock (bootSel at_ : Nat) (s0 : State) : Host.Outcome State Fault Refusal :=
  let s := s0.atClk at_
  let b := s.boot
  if !b.vaon || !b.above || b.tripHold || b.locked || b.state != 0 || b.releaseClk + 2200000 < s.clk then .next s
  else
    let s1 := { s with boot := { b with locked := true, bootSel := bootSel % 4 } }
    if !s.fusesOk then .next ((s1.bootHalt 1).report 3 15 stPairBroken)
    else if bootSel % 4 == 3 && !b.selZero then .next s1.romWait
    else .next { s1 with boot := { s1.boot with state := 1 } }

/-- PLL_LOCK_TIMEOUT: no lock within 2 ms: halted, with halt_reason 4 (R388). -/
def execPllLockTimeout (at_ : Nat) (s0 : State) : Host.Outcome State Fault Refusal :=
  let s := s0.atClk at_
  let b := s.boot
  if !b.vaon || !b.above || b.tripHold || b.locked || b.state != 0 || s.clk < b.releaseClk + 2200000 then .next s
  else .next (s.bootHalt 4)

/-! ### Slots (R391, R392) -/

/-- Bytes of flash; beyond what was programmed it reads as erased. -/
def flashSlice (b : List Byte) (off n : Nat) : List Byte :=
  let x := slice b off n
  x ++ List.replicate (n - x.length) 0xFF

/-- A 4-byte number of the record and its complement are intact (R391). -/
def pair32At (r : List Byte) (off : Nat) : Bool := leAt r (off + 4) 4 == 0xFFFFFFFF - leAt r off 4

/-- The fields of a boot record (R391). -/
def recGen (r : List Byte) : Nat := leAt r 4 4
def recStage (r : List Byte) : Nat := leAt r 12 1
def recCount (r : List Byte) : Nat := leAt r 14 2
def recEntry (r : List Byte) (i : Nat) : Nat × Nat × Nat × List Byte :=
  (leAt r (64 + 64 * i) 1, leAt r (68 + 64 * i) 4, leAt r (76 + 64 * i) 4, slice r (84 + 64 * i) 32)

/-- The record's magic, pairs, section count and first three types (R391). -/
def recordIntact (r : List Byte) : Bool :=
  leAt r 0 4 == 0x5442324B && pair32At r 4 && leAt r 13 1 == 255 - recStage r && decide (3 ≤ recCount r) && decide (recCount r ≤ 16) &&
  (List.range 3).all (fun i => (recEntry r i).1 == i + 1) &&
  (List.range (recCount r)).all fun i => pair32At r (68 + 64 * i) && pair32At r (76 + 64 * i)

/-- The public key hashes to a key-hash fuse in use, and the signature over bytes 0 to 11 and 64 to 255 verifies. -/
def State.recordSigned (s : State) (r : List Byte) : Bool :=
  let key := slice r 1088 97
  let h := beNat (sha256 key)
  s.fuses.keys.any (fun p => p.nat != 0 && p.nat == h) && ecdsaOk key (slice r 0 12 ++ slice r 64 192) (slice r 1280 96)

/-- The bytes of a slot, its record, and its section of entry `i`. -/
def State.slotBytes (s : State) (slot : Nat) : List Byte := (s.flash[slot]?).getD []
def State.slotRecord (s : State) (slot : Nat) : List Byte := flashSlice (s.slotBytes slot) 0 4096
def State.slotSection (s : State) (slot i : Nat) : List Byte :=
  let e := recEntry (s.slotRecord slot) i
  flashSlice (s.slotBytes slot) e.2.1 e.2.2.1

/-- Examine a slot (R392, R398): 1 accepted, 2 pair broken, 3 digest mismatch, 4 key or signature invalid, 5 read failed.
`bad` names the sections whose read failed twice, 16 the record. -/
def State.checkSlot (s : State) (slot : Nat) (bad : List Nat) : Nat :=
  let r := s.slotRecord slot
  if bad.contains 16 then 5
  else if !recordIntact r then 2
  else if !s.recordSigned r then 4
  else
    let res := (List.range (recCount r)).findSome? fun i =>
      if bad.contains i then some 5
      else if sha256 (s.slotSection slot i) != (recEntry r i).2.2.2 then some 3 else none
    res.getD 1

/-- sem of the parts of a slot: hub, die, microcode (R431). -/
def State.slotSem (s : State) (slot : Nat) : List Nat := (List.range 3).map fun i => leAt (s.slotSection slot i) 0 4

/-- The candidates in the order in which they are tried (R392, R438). -/
def State.candidates (s : State) (sel : Nat) : List Nat :=
  let fresh (i : Nat) : Bool := recStage (s.slotRecord i) != 3 || decide (s.boot.trialBoots < 3)
  if sel == 1 then [0].filter fresh
  else if sel == 2 then [1].filter fresh
  else
    let two := (if recGen (s.slotRecord 0) < recGen (s.slotRecord 1) then [1, 0] else [0, 1])
    two.filter fun i => (recStage (s.slotRecord i) == 3 || recStage (s.slotRecord i) == 4) && fresh i

/-- Show a slot in BOOT_SLOT (R398). -/
def State.showSlot (s : State) (slot check : Nat) : State :=
  let r := s.slotRecord slot
  let x : BootSlot := { stage := recStage r % 8, check := check, gen := recGen r }
  { s with boot := { s.boot with slots := s.boot.slots.set slot x } }

/-- What the configuration section supplies takes the place of reset values (R393). -/
def State.applyConfig (s : State) (c : FlashConfig) : State :=
  let peer (old : List Peer) (new : List (Bool × Nat × List Nat)) : List Peer :=
    (List.range old.length).map fun i => match new[i]? with
      | some p => { valid := p.1, udpPort := p.2.1 % 65536, addr := (List.range 4).map fun j => ((p.2.2[j]?).getD 0) % 2 ^ 32 }
      | none => (old[i]?).getD {}
  { s with
    gov := { s.gov with slew := match c.slew with | some x => max 312 (min 3125 x) | none => s.gov.slew },
    boot := { s.boot with
      wakeCap := match c.wakeCap with | some x => max 300 (x % 1024) | none => s.boot.wakeCap,
      stagger := match c.stagger with | some x => x % 1024 | none => s.boot.stagger },
    usb := { s.usb with idVendor := match c.idVendor with | some x => x % 65536 | none => s.usb.idVendor },
    mgmt := { s.mgmt with peers := peer s.mgmt.peers c.peers, sinks := peer s.mgmt.sinks c.sinks } }

/-- Boot an accepted slot (R392, R393, R432, R438). (DEDUCED, unsafe: notes/assumptions/65.md.) -/
def State.bootSlot (s : State) (slot : Nat) (fellBack : Bool) (c : FlashConfig) : State :=
  let trial := recStage (s.slotRecord slot) == 3
  let s1 := s.applyConfig c
  { s1 with
    glb := { s1.glb with sem := s.slotSem slot, digestStale := true },
    boot := { s1.boot with
      state := 2, slot := slot, trial := trial, fellBack := fellBack, acceptClk := s.clk, selZero := false,
      trialBoots := if trial then satAdd 15 s.boot.trialBoots 1 else s.boot.trialBoots },
    upd := { s1.upd with state := if trial then 6 else 0, target := if trial then slot else 1 - slot } }

/-- Choose a slot (R392): the slots examined, and the one accepted with what it leaves out. A slot that BOOT_SEL = 0
leaves aside is shown as not examined, or with check 2 where its record is torn (R439). -/
def State.chooseSlot (s : State) (sel : Nat) (bad : List (Nat × List Nat)) (c : FlashConfig) : Option State × State :=
  let cs := s.candidates sel
  let s1 := if sel == 0 then
      ([0, 1].filter fun i => !cs.contains i).foldl (fun t i => t.showSlot i (if recordIntact (s.slotRecord i) then 0 else 2)) s
    else s
  let x := cs.foldl (fun (acc : Option Nat × Bool × State) i =>
    if acc.1.isSome then acc
    else
      let k := s.checkSlot i (Tab.get bad i [])
      if k == 1 then (some i, acc.2.1, acc.2.2.showSlot i 1) else (none, true, acc.2.2.showSlot i k)) (none, false, s1)
  match x.1 with
  | some i => (some (x.2.2.bootSlot i x.2.1 c), x.2.2)
  | none => (none, x.2.2)

/-- BOOT_SLOT_READ: the ROM reads and checks the candidates and boots one, or enters rom_wait (R392). -/
def execBootSlotRead (bad : List (Nat × List Nat)) (c : FlashConfig) (at_ : Nat) (s0 : State) : Host.Outcome State Fault Refusal :=
  let s := s0.atClk at_
  if s.boot.state != 1 then .next s
  else
    let x := s.chooseSlot (if s.boot.selZero then 0 else s.boot.bootSel) bad c
    .next (match x.1 with | some t => t | none => x.2.romWait)

/-- LEAVE_ROM_WAIT: R392 runs again with BOOT_SEL taken as 0; with no slot accepted the device halts with halt_reason 2
(R392, R398). (DEDUCED, unsafe: notes/assumptions/66.md.) -/
def execLeaveRomWait (bad : List (Nat × List Nat)) (c : FlashConfig) (at_ : Nat) (s0 : State) : Host.Outcome State Fault Refusal :=
  let s := s0.atClk at_
  if s.boot.state != 7 then .next s
  else
    let x := s.chooseSlot 0 bad c
    .next (match x.1 with | some t => t | none => x.2.bootHalt 2)

/-! ### Rails, training and self-test (R394 to R396) -/

/-- RAIL_SEQUENCE: after the stagger delay the rails are raised group by group; a rail that does not come into its band
stops the sequence, and the rails are turned off in reverse order (R394). -/
def execRailSequence (fail : Option Nat) (at_ : Nat) (s0 : State) : Host.Outcome State Fault Refusal :=
  let s := s0.atClk at_
  if s.boot.state != 2 || s.clk < s.boot.acceptClk + Config.serial % 16 * s.boot.stagger * 1100000 then .next s
  else match (if s.sb.pmbusStuck then some 7 else fail) with
    | none => .next { s.rails railOrder true with boot := { s.boot with state := 3 }, mgmt := { s.mgmt with up := true } }
    | some r =>
      let up := (railGroups.takeWhile fun g => !g.contains r).flatten ++ ((railGroups.find? fun g => g.contains r).getD [])
      .next (((s.rails up true).rails up.reverse false).bootHalt 3)

/-- A partition enters failed (R395, R375). -/
def State.partFailed (s : State) (g result : Nat) : State :=
  (s.modCtl g fun p => { p with state := 4, resetResult := result }).report 2 0 stFenced g noCtx 0 (at' result 26)

/-- Bring-up is over: standby, with the time it took; a trial's timer starts (R395, R398, R437). -/
def State.standby (s : State) : State :=
  { s with
    boot := { s.boot with state := 5, bringupMs := min 0xFFFF ((s.clk - s.boot.releaseClk) / 1100000) },
    upd := { s.upd with trialEnd := if s.boot.trial && s.upd.trialS != 0 then some (s.clk + s.upd.trialS * 1100000000) else s.upd.trialEnd } }

/-- Partitions that are neither failed nor in self-test nor through it, ascending (R396). -/
def State.toTest (s : State) : List Nat :=
  (List.range 64).filter fun g => (s.part g).ctl.state != 4 && !s.boot.testing.contains g && !s.boot.tested.contains g

/-- BRINGUP_TRAINING: Welt links, bonds, channels, fabric ports and ring searches train, from saved settings or by full
search; all memory is unwritten afterwards. `welt` and `chans` are the links and channels that fail (R395). -/
def execBringupTraining (saved : Bool) (welt chans : List Nat) (at_ : Nat) (s0 : State) : Host.Outcome State Fault Refusal :=
  let s := s0.atClk at_
  if s.boot.state != 3 then .next s
  else
    let s1 := { s with
      gran := [], ecc := [], chans := s.chans.map fun (e : Nat × Chan) => (e.1, { e.2 with poisoned := 0 }),
      weltNext := welt.foldl (fun l i => Tab.set l i false) s.weltNext,
      boot := { s.boot with state := 4, fullSearch := !saved } }
    let s2 := (s1.startSearch 0 saved).startSearch 1 saved
    let s3 := fabPorts.foldl (fun t p => if (t.port p).state == 0 then t.modPort p fun x => { x with state := 1, search := !saved } else t) s2
    let s4 := (chans.map (· / 4)).eraseDups.foldl (fun t g => t.partFailed g 1) s3
    .next (if s4.toTest.isEmpty then s4.standby else s4)

/-- SELF_TEST_START: the next partition's self-test starts when P_est + 12 W stays within wake_cap and the tick's rise
allowance still holds 12 W (R396). (DEDUCED, unsafe: notes/assumptions/44.md.) -/
def execSelfTestStart (g at_ : Nat) (s0 : State) : Host.Outcome State Fault Refusal :=
  let s := s0.atClk at_
  let used := s.boot.wakeUsed + 120
  if s.boot.state != 4 || s.toTest.head? != some g || s.boot.wakeCap * 10 < s.gov.pEst + used || s.gov.slew * s.tick.period < used * 100
  then .next s
  else .next { s with boot := { s.boot with testing := s.boot.testing ++ [g], wakeUsed := used } }

/-- SELF_TEST_COMPLETE: a partition's self-test ends, and marks it failed on an error; the last one ends bring-up. Number 64
is the hub's own self-test, whose failure halts the device with halt_reason 5 (R395, R396). -/
def execSelfTestComplete (g : Nat) (ok : Bool) (at_ : Nat) (s0 : State) : Host.Outcome State Fault Refusal :=
  let s := s0.atClk at_
  if g == 64 then .next (if s.boot.state == 4 && !ok then s.bootHalt 5 else s)
  else if s.boot.state != 4 || !s.boot.testing.contains g then .next s
  else
    let s1 := { s with boot := { s.boot with testing := s.boot.testing.filter (· != g), tested := s.boot.tested ++ [g] } }
    let s2 := if ok then s1 else s1.partFailed g 2
    .next (if s2.toTest.isEmpty && s2.boot.testing.isEmpty then s2.standby else s2)

/-! ### Readiness (R397) -/

/-- The checks of R397 that fail, bit i for check i. -/
def State.failBits (s : State) : Nat :=
  let bits : List Bool := [
    s.therm.rails.any (fun r => !r.inBand),
    s.weltUp.any (fun u => !u),
    (List.range 64).any (fun g => (s.part g).ctl.state == 4),
    s.opt.engs.any (fun e => (e.state != 2 && e.state != 3) || e.laserOk != 0xF),
    s.fab.sysid == 0 || s.fab.role == 0,
    fabPorts.any (fun p =>
      let x := s.port p
      !x.none_ && (x.expDev != 0xFFF || x.expPort != 0x3F || x.roleCheck) && (x.state != 3)),
    !s.tick.aligned,
    s.dog.leaseState != 1]
  (List.range 8).foldl (fun a i => a + b2n ((bits[i]?).getD false) * 2 ^ i) 0

/-- READINESS_CHECK: from standby on, ready follows the checks at every edge (R397). -/
def State.readiness (s : State) : State :=
  if s.boot.state != 5 && s.boot.state != 6 then s
  else
    let f := s.failBits
    { s with boot := { s.boot with fail := f, ready := f == 0, state := if f == 0 then 6 else 5 } }

end Sys2Proof.Machine
end

