-- ==== Sys2Proof/Machine/Thermal.lean ====
section
/-! DEFINITION. Rails, sensors, throttle and trip (spec/22_electrical_and_package.md R465 to R478, R483;
spec/19_host_and_service_ports.md R413 to R415). -/

namespace Sys2Proof.Machine

/-- Nominal voltages in mV, in the order of PWR_RAIL (R465, R478). -/
def railNominal : List Nat := [700, 700, 700, 700, 750, 750, 900, 1200, 900, 900, 3300, 3300, 1800, 3300]

/-- A voltage lies within ±2.5 % of nominal (R466). -/
def inBand (i mv : Nat) : Bool :=
  let nom := (railNominal[i]?).getD 0
  decide (nom * 39 ≤ mv * 40) && decide (mv * 40 ≤ nom * 41)

/-- RAIL_POLL: every 1 ms the voltage, current and STATUS_WORD of each rail are read (R478); over a stuck bus nothing is
read, and after 10 ms the rail is stale (R414). A rail that leaves its band in service is reported at severity 3 (R483); the
status of that report is open (DESIGN CHOICE, safe: notes/assumptions/22.md). -/
def execRailPoll (reads : List (Nat × Nat × Nat)) (at_ : Nat) (s0 : State) : Host.Outcome State Fault Refusal :=
  let s := s0.atClk at_
  let poll (i : Nat) (r : Rail) : Rail :=
    match reads[i]? with
    | some (v, a, w) =>
      if s.sb.pmbusStuck && i < 12 then { r with stale := decide (r.readClk + 11000000 ≤ s.clk) }
      else { vout := min 0xFFFF v, iout := if i < 12 then min 0xFFFF a else 0, inBand := inBand i v, stale := false,
             word := if i < 12 then w % 65536 else 0, readClk := s.clk }
    | none => { r with stale := decide (r.readClk + 11000000 ≤ s.clk) }
  let rails := (List.range 14).map fun i => poll i ((s.therm.rails[i]?).getD {})
  let left := (List.range 14).filter fun i => ((s.therm.rails[i]?).getD {}).inBand && !((rails[i]?).getD {}).inBand
  let s1 := { s with therm := { s.therm with rails := rails } }
  .next (if left.isEmpty || s.boot.state < 5 || 6 < s.boot.state then s1 else s1.report 3 2 (openStatus 6))

/-- The kind of sensor `k` of PWR_TEMP (R478): 0 compute die or hub, 1 SRAM die, 2 optical engine. -/
def sensorKind (k : Nat) : Nat := if k < 4 || k == 12 then 0 else if k < 12 then 1 else 2

/-- Some sensor of the throttle has come to within `d` eighths of a degree of its point (R475). Temperatures are in units of
0.125 °C. -/
def Therm.near (t : Therm) (d : Int) : Bool :=
  (List.range 15).any fun k =>
    let point : Int := match sensorKind k with | 0 => t.throttleC * 8 | 1 => (t.throttleC - 10) * 8 | _ => 2 ^ 16
    decide (point - d ≤ (t.temps[k]?).getD 0)

/-- The throttle follows the sensors: it begins when one reaches its point, and ends when all are 2 °C below (R475). -/
def State.throttle (s : State) : State :=
  let t := s.therm
  if !t.throttling && t.near 0 then
    { s with therm := { t with throttling := true, ceiling := some (match t.ceiling with | some c => c | none => s.gov.pEst) } }
  else if t.throttling && !t.near 15 then { s with therm := { t with throttling := false } }
  else s

/-- THERMAL_THROTTLE: the fifteen sensors read junction temperature; at its throttle point a compute-die, hub or SRAM-die
sensor starts the throttle, which lasts until every one is 2 °C below (R475). (DEDUCED, unsafe: notes/assumptions/68.md.) -/
def execThermalThrottle (temps : List Int) (s : State) : Host.Outcome State Fault Refusal :=
  .next { s with therm := { s.therm with
    temps := (List.range 15).map fun k => clampI (-32768) 32767 ((temps[k]?).getD ((s.therm.temps[k]?).getD 0)) } }.throttle

/-- What an edge does to the throttle (R475, R478, R483): a new throttle_c applies, the ceiling falls by L per tick while it
is in force and rises by L after it, up to the 1,600 W of the package. -/
def State.throttleEdge (s : State) : State :=
  let t := { s.therm with throttleC := s.therm.throttleNext.getD s.therm.throttleC, throttleNext := none }
  let s1 := { s with therm := t }.throttle
  let l := s1.gov.slew * s1.tick.period / 100
  let u := s1.therm
  let c := match u.ceiling with
    | some c => if u.throttling then some (c - l) else if 16000 ≤ c + l then none else some (c + l)
    | none => none
  { s1 with therm := { u with ceiling := c, throttleTicks := if u.throttling then satAdd 0xFFFF u.throttleTicks 1 else u.throttleTicks } }

/-- Trip points in eighths of a degree: 115 °C, 105 °C, 90 °C (R476). -/
def tripPoint (k : Nat) : Int := match sensorKind k with | 0 => 920 | 1 => 840 | _ => 720

/-- THERMAL_TRIP: a sensor at its trip point acts as a brown-out and sets trip_seen; the package is held in reset (R476). -/
def execThermalTrip (temps : List Int) (at_ : Nat) (s0 : State) : Host.Outcome State Fault Refusal :=
  let s := s0.atClk at_
  if !s.boot.vaon || !(List.range 15).any (fun k => decide (tripPoint k ≤ (temps[k]?).getD 0)) then .next s
  else
    let t := s.brownOut
    .next { t with boot := { t.boot with above := s.boot.above, tripHold := true, tripSeen := true } }

/-- TRIP_RECOVERY: every sensor has been 15 °C below its trip point for 1 s: the power-on path runs (R476). -/
def execTripRecovery (temps : List Int) (at_ : Nat) (s0 : State) : Host.Outcome State Fault Refusal :=
  let s := s0.atClk at_
  if !s.boot.tripHold || (List.range 15).any (fun k => decide (tripPoint k - 120 < (temps[k]?).getD 0)) then .next s
  else .next { s with boot := { s.boot with tripHold := false } }.release

/-! ### Sideband lines (R413 to R415) -/

/-- Bus 0 is PMBus, bus 1 I3C. -/
def Sideband.stuck (x : Sideband) (bus : Nat) : Bool := if bus == 0 then x.pmbusStuck else x.i3cStuck
def Sideband.setStuck (x : Sideband) (bus : Nat) (v : Bool) : Sideband := if bus == 0 then { x with pmbusStuck := v } else { x with i3cStuck := v }

/-- SIDEBAND_RECOVERY: a low line is recovered with clock pulses and a STOP (on I3C also the target reset pattern); a bus
still held after the third attempt, the attempts 10 ms apart, is stuck (R414). -/
def execSidebandRecovery (bus : Nat) (freed : Bool) (at_ : Nat) (s0 : State) : Host.Outcome State Fault Refusal :=
  let s := s0.atClk at_
  let x := s.sb
  let n := (x.attempts[bus]?).getD 0
  if 1 < bus || x.stuck bus || (n != 0 && s.clk < (x.lastTry[bus]?).getD 0 + 11000000) then .next s
  else
    let y := { x with
      recoveries := if n == 0 then satAdd 255 x.recoveries 1 else x.recoveries, lastTry := x.lastTry.set bus s.clk,
      attempts := x.attempts.set bus (if freed || n == 2 then 0 else n + 1) }
    if !freed && n == 2 then .next ({ s with sb := y.setStuck bus true }.report 3 2 stSideband)
    else .next { s with sb := y }

/-- SIDEBAND_RETRY: a stuck bus is recovered again every 1 s; once free, that is reported at severity 0 (R414). -/
def execSidebandRetry (bus : Nat) (freed : Bool) (at_ : Nat) (s0 : State) : Host.Outcome State Fault Refusal :=
  let s := s0.atClk at_
  let x := s.sb
  if 1 < bus || !x.stuck bus || s.clk < (x.lastTry[bus]?).getD 0 + 1100000000 then .next s
  else
    let y := { x with recoveries := satAdd 255 x.recoveries 1, lastTry := x.lastTry.set bus s.clk }
    if freed then .next ({ s with sb := y.setStuck bus false }.report 0 2 (openStatus 7)) else .next { s with sb := y }

/-- I3C_IBI: an in-band interrupt is accepted and reported at severity 0 (R413). -/
def execI3cIbi (s : State) : Host.Outcome State Fault Refusal := .next (s.report 0 2 (openStatus 8))

/-- FAULT_N_SAMPLE (R415): the line is sampled at each edge; held low by another device it sets fault_n_ext and is reported
once for each assertion. `ext` says that another device drives the line. -/
def State.sampleFaultN (s : State) (ext : Bool) : State :=
  let s1 := { s with sb := { s.sb with faultNLow := ext || s.drivesFaultN } }
  if !ext then { s1 with sb := { s1.sb with extTold := false } }
  else if s.drivesFaultN || s.sb.extTold then s1
  else { s1 with sb := { s1.sb with faultNExt := true, extTold := true } }.report 0 2 stFaultN

end Sys2Proof.Machine
end

