-- ==== Sys2Proof/Machine/Update.lean ====
section
/-! DEFINITION. Updates: download, verify, activate, confirm, revert (spec/20_management_and_updates.md R431 to R444). -/

namespace Sys2Proof.Machine

/-! ### Status codes (R440) -/

def stUpdState : Nat := 0x60
def stUpdFlash : Nat := 0x61
def stUpdVerify : Nat := 0x62
def stUpdGen : Nat := 0x63
def stUpdSem : Nat := 0x64
def stUpdPart : Nat := 0x65
def stUpdExpired : Nat := 0x66

/-- The owner number of a path (R432, R443). -/
def pathOwner : Path → Nat | .mgmt => 1 | .usb => 2 | .bar0 => 3

def State.modUpd (s : State) (f : Upd → Upd) : State := { s with upd := f s.upd }

/-- The command ends with a status. -/
def State.updEnd (s : State) (status : Nat) : State := s.modUpd fun u => { u with lastStatus := status }

/-- A command from a path that does not own the update (R432). -/
def State.notOwner (s : State) (p : Path) : Bool := s.upd.owner != 0 && s.upd.owner != pathOwner p

/-- Write bytes into a slot of flash. -/
def State.flashPut (s : State) (slot off : Nat) (bytes : List Byte) : State :=
  let b := s.slotBytes slot
  { s with flash := s.flash.set slot (flashSlice b 0 off ++ bytes ++ b.drop (off + bytes.length)) }

/-- The target's record sector rewritten whole with another stage (R434 to R437). -/
def State.setStage (s : State) (slot stage : Nat) : State :=
  let r := s.slotRecord slot
  s.flashPut slot 0 (r.take 12 ++ leBytes 1 stage ++ leBytes 1 (255 - stage) ++ r.drop 14)

/-- A record passes the checks that it alone allows: magic, pairs, key hash, signature (R433). -/
def State.recordGood (s : State) (slot : Nat) : Bool := recordIntact (s.slotRecord slot) && s.recordSigned (s.slotRecord slot)

/-- The update is idle again (R432). -/
def Upd.idle (u : Upd) (target : Nat) : Upd :=
  { u with state := 0, owner := 0, target := target, head := [], trialEnd := none, oldSem := none, micro := [] }

/-- UPD_BEGIN: the target's record sector is erased and a download starts; the path becomes the owner (R432 to R434). `ok`:
the flash operation succeeds. (DEDUCED, unsafe: notes/assumptions/67.md.) -/
def execUpdBegin (p : Path) (ok : Bool) (s : State) : Host.Outcome State Fault Refusal :=
  if s.notOwner p || !([0, 1, 2, 4].contains s.upd.state) then .next (s.updEnd stUpdState)
  else
    let target := if s.boot.state == 7 then (if s.recordGood 0 then 1 else 0) else 1 - s.boot.slot
    if !ok then .next (s.updEnd stUpdFlash)
    else .next ((s.flashPut target 0 (List.replicate 4096 0xFF)).modUpd fun u => { u with
      state := 1, target := target, owner := pathOwner p, lastStatus := stOk, progress := pairOf 32 (2 ^ 30), head := [] })

/-- The end of the last section that a record names. -/
def recordEnd (r : List Byte) : Nat :=
  (List.range (recCount r)).foldl (fun m i => max m ((recEntry r i).2.1 + (recEntry r i).2.2.1)) 4096

/-- A record passes its own pairs and names no section beyond 64 MiB (R434). -/
def recordFits (r : List Byte) : Bool := recordIntact r && decide (recordEnd r ≤ 2 ^ 26)

/-- The record is programmed last, with stage 1 (R434). -/
def State.programRecord (s : State) : State :=
  let t := s.upd.target
  ((s.flashPut t 0 (s.upd.head.take 4096)).setStage t 1).modUpd fun u => { u with state := 2, lastStatus := stOk, head := [] }

/-- A download chunk, at a byte offset, of the owner's path; of either chunk path where the owner is BAR0, which carries no
chunks (R432, R434): the status it is answered with, and the state. -/
def State.chunk (s : State) (p : Path) (off : Nat) (data : List Byte) (ok : Bool) : Nat × State :=
  let u := s.upd
  let at_ := u.progress.nat % 2 ^ 30 * 256
  if u.state != 1 || (u.owner != pathOwner p && u.owner != 3) || at_ < off then (stUpdState, s.updEnd stUpdState)
  else if off < at_ then (stOk, s)
  else if !ok then (stUpdFlash, s.updEnd stUpdFlash)
  else
    let d := data ++ List.replicate (ceilDiv data.length 256 * 256 - data.length) (0xFF : Byte)
    let now := at_ + d.length
    let head := (u.head ++ d).take 4096
    let s1 := if at_ < 4096 then s.flashPut u.target 4096 (d.drop (4096 - at_)) else s.flashPut u.target at_ d
    let s2 := s1.modUpd fun u => { u with head := head, progress := pairOf 32 (2 ^ 30 + now / 256) }
    if head.length < 4096 then (stOk, s2)
    else if !recordFits head then (stUpdVerify, (s2.updEnd stUpdVerify).modUpd fun u => u.idle u.target)
    else if recordEnd head ≤ now then (stOk, s2.programRecord)
    else (stOk, s2)

/-- The gen that the target's must exceed (R433, R435); none where the condition is waived. -/
def State.genFloor (s : State) : Option Nat :=
  if s.boot.state == 7 then
    (if s.recordGood (1 - s.upd.target) then some (recGen (s.slotRecord (1 - s.upd.target))) else none)
  else some (recGen (s.slotRecord s.boot.slot))

/-- Sections 0x01 to 0x03 carry part headers (R431, R435). -/
def State.headersOk (s : State) (slot : Nat) : Bool :=
  (List.range 3).all fun i => (slice (s.slotSection slot i) 8 56).all (· == 0) && decide (64 ≤ (s.slotSection slot i).length)

/-- UPD_VERIFY: the target is read back and checked, then its record is rewritten with stage 2 (R435). It is accepted in
downloaded, and after a power failure for a target of stage 1 (R439). `bad` names sections that cannot be read. -/
def execUpdVerify (p : Path) (bad : List Nat) (ok : Bool) (s : State) : Host.Outcome State Fault Refusal :=
  let t := s.upd.target
  let again := s.upd.state == 0 && recordIntact (s.slotRecord t) && recStage (s.slotRecord t) == 1
  if s.notOwner p || !(s.upd.state == 2 || again) then .next (s.updEnd stUpdState)
  else
    let s1 := s.modUpd fun u => { u with
      state := 2, owner := pathOwner p, progress := pairOf 32 (2 ^ 31 + ceilDiv (recordEnd (s.slotRecord t)) 256) }
    let k := s.checkSlot t bad
    if k == 5 || !ok then .next (s1.updEnd stUpdFlash)
    else if k != 1 || !s.headersOk t then .next (s1.updEnd stUpdVerify)
    else if (match s.genFloor with | some g => decide (recGen (s.slotRecord t) ≤ g) | none => false) then .next (s1.updEnd stUpdGen)
    else .next (((s1.setStage t 2).updEnd stOk).modUpd fun u => { u with state := 4 })

/-- A context is loaded or loading (R436, R444). -/
def State.anyLoaded (s : State) : Bool := s.loads.any fun e => e.2.state != 0

/-- UPD_ACTIVATE: the record is rewritten with stage 3 and trial_boots is 0; the parts are switched live from the next edges
on, or the power-on path runs and boots the target as a trial (R433, R436). -/
def execUpdActivate (p : Path) (live ok : Bool) (at_ : Nat) (s0 : State) : Host.Outcome State Fault Refusal :=
  let s := (s0.atClk at_).modUpd fun u => { u with live := live }
  let t := s.upd.target
  if s.notOwner p || s.upd.state != 4 || (live && s.boot.state == 7) || (!live && s.anyLoaded) then .next (s.updEnd stUpdState)
  else if s.slotSem t != s.glb.sem && s.anyLoaded then .next (s.updEnd stUpdSem)
  else if !ok then .next (s.updEnd stUpdFlash)
  else
    let s1 := s.setStage t 3
    let s2 := { s1 with boot := { s1.boot with trialBoots := 0 } }
    if !live then .next (s2.powerCycle (s.boot.state == 7))
    else .next (s2.modUpd fun u => { u with
      state := 5, lastStatus := stOk, parts := [0, 0, 0, 0, 0, 0, 0], micro := [], began := s.clk, oldSem := some s.glb.sem })

/-- The switch point of part `i` has come (R436): 0 calibration, 1 microcode, 2 to 5 die firmware, 6 hub firmware. -/
def State.partReady (s : State) (i : Nat) : Bool :=
  match i with
  | 0 => true
  | 1 => s.upd.micro.length == 64
  | 6 => s.loader.busy.isNone && !(s.loads.any fun e => e.2.state == 5) &&
      s.leds.all fun e => e.2.sends.isEmpty && e.2.state != 5
  | _ => (List.range 16).all fun k => (s.part (16 * (i - 2) + k)).ctl.phase != 3

/-- Partitions whose microcode can switch at this edge: with no resident context, or at its step boundary (R436). -/
def State.microEdge (s : State) : State :=
  let ready (g : Nat) : Bool := match s.residentOf g with
    | none => true
    | some c => !(s.run c).inStep
  s.modUpd fun u => { u with micro := (List.range 64).filter fun g => u.micro.contains g || ready g }

/-- The semantics entry that part `i` sets when it is switched to a list of semantics (R431). -/
def semAfter (sem new : List Nat) (i : Nat) : List Nat :=
  match i with
  | 1 => sem.set 2 ((new[2]?).getD 0)
  | 5 => sem.set 1 ((new[1]?).getD 0)
  | 6 => sem.set 0 ((new[0]?).getD 0)
  | _ => sem

/-- Clk of the trial timer's expiry (R437). -/
def State.trialFrom (s : State) : Option Nat := if s.upd.trialS == 0 then none else some (s.clk + s.upd.trialS * 1100000000)

/-- A part switches to the semantics `new`. -/
def State.switchPart (s : State) (i now : Nat) (new : List Nat) : State :=
  let sem := semAfter s.glb.sem new i
  { s with
    glb := { s.glb with sem := sem, digestStale := s.glb.digestStale || sem != s.glb.sem },
    upd := { s.upd with parts := s.upd.parts.set i now, micro := if i == 1 then [] else s.upd.micro, began := s.clk } }

/-- LIVE_PART_SWITCH at an edge (R436): the next part switches when its point has come; `bad` says that it fails to start.
A failed part, or no fitting edge for the hub within 30 s, stops the activation with ST_UPD_PART. With every part new the
target counts as booted, on trial. -/
def State.liveSwitch (s0 : State) (bad : Bool) : State :=
  match (List.range 7).find? fun i => (s0.upd.parts[i]?).getD 0 != 2 with
  | none => s0
  | some i =>
    let s := if i == 1 then s0.microEdge else s0
    let late := i == 6 && decide (s.upd.began + 30 * 1100000000 ≤ s.clk)
    if late || (bad && s.partReady i) then
      ((s.updEnd stUpdPart).modUpd fun u => { u with parts := u.parts.set i 3, state := 6, trialEnd := s.trialFrom }).report 0 14 stUpdPart
    else if !s.partReady i then s
    else
      let s1 := s.switchPart i 2 (s.slotSem s.upd.target)
      if i != 6 then s1
      else { s1 with
        boot := { s1.boot with slot := s1.upd.target, trial := true }, upd := { s1.upd with state := 6, trialEnd := s1.trialFrom } }

/-- The return of live-switched parts at an edge, in reverse order (R437); with every part old the record is rewritten with
stage 2. -/
def State.liveRevert (s0 : State) : State :=
  match (List.range 7).reverse.find? fun i => (s0.upd.parts[i]?).getD 0 != 0 with
  | some i =>
    let s := if i == 1 then s0.microEdge else s0
    if s.partReady i || (s.upd.parts[i]?).getD 0 == 3 then s.switchPart i 0 (s.upd.oldSem.getD s.glb.sem) else s
  | none =>
    let t := s0.upd.target
    let s1 := s0.setStage t 2
    { s1 with boot := { s1.boot with slot := 1 - t, trial := false }, upd := s1.upd.idle t }

/-- What an edge does for an update under way. -/
def State.updEdge (s : State) (bad : Bool) : State :=
  if s.upd.state == 5 then s.liveSwitch bad else if s.upd.state == 8 then s.liveRevert else s

/-- UPD_CONFIRM: in trial the record is rewritten with stage 4, and the update is idle (R437). -/
def execUpdConfirm (p : Path) (ok : Bool) (s : State) : Host.Outcome State Fault Refusal :=
  if s.notOwner p || s.upd.state != 6 then .next (s.updEnd stUpdState)
  else if !ok then .next (s.updEnd stUpdFlash)
  else
    let t := s.upd.target
    let s1 := (s.setStage t 4).updEnd stOk
    .next { s1 with boot := { s1.boot with trial := false }, upd := s1.upd.idle (1 - t) }

/-- A trial is reverted (R437): live-switched parts return at their switch points; after a trial boot the record is rewritten
and the power-on path runs. -/
def State.revert (s : State) : State :=
  if s.upd.oldSem.isSome then s.modUpd fun u => { u with state := 8, trialEnd := none, micro := [] }
  else (s.setStage s.upd.target 2).powerCycle false

/-- UPD_REVERT: the revert command, in trial (R437). -/
def execUpdRevert (p : Path) (ok : Bool) (at_ : Nat) (s0 : State) : Host.Outcome State Fault Refusal :=
  let s := s0.atClk at_
  if s.notOwner p || s.upd.state != 6 then .next (s.updEnd stUpdState)
  else if !ok then .next (s.updEnd stUpdFlash)
  else .next (s.updEnd stOk).revert

/-- TRIAL_TIMER_EXPIRE: trial_s seconds after the end of activation the update is reverted, with ST_UPD_TRIAL_EXPIRED
(R437). -/
def execTrialTimerExpire (at_ : Nat) (s0 : State) : Host.Outcome State Fault Refusal :=
  let s := s0.atClk at_
  match s.upd.trialEnd with
  | none => .next s
  | some t =>
    if s.upd.state != 6 || s.clk < t then .next s
    else .next ((s.updEnd stUpdExpired).report 0 14 stUpdExpired).revert

/-- UPD_ABORT: a download ends with the record sector erased; once the record of stage 1 stands the download stands
(R443, R444). -/
def execUpdAbort (p : Path) (s : State) : Host.Outcome State Fault Refusal :=
  if s.notOwner p || s.upd.state == 0 then .next (s.updEnd stUpdState)
  else if s.upd.state == 1 then
    .next (((s.flashPut s.upd.target 0 (List.replicate 4096 0xFF)).updEnd stAborted).modUpd fun u => u.idle u.target)
  else .next (s.updEnd stAlreadyDone)

/-- USB_EP1_CHUNK: an EP1 transfer carries the slot offset, the length and the data of a chunk (R432, R434); one whose data
is shorter than its length is not applied. -/
def execUsbEp1Chunk (off len : Nat) (data : List Byte) (ok : Bool) (s : State) : Host.Outcome State Fault Refusal :=
  if data.length < len then .next s else .next (s.chunk .usb off (data.take len) ok).2

end Sys2Proof.Machine
end

