-- ==== Sys2Proof/Machine/Meter.lean ====
section
/-! DEFINITION. The Horaro meter (spec/21_horaro_meter.md R445 to R464), and the filter of requests that reach it and the
control space over the management port (spec/20_management_and_updates.md R421, R422). -/

namespace Sys2Proof.Machine

/-! ### Status codes (R462) -/

def stMeterAbsent : Nat := 0x80
def stMeterFrame : Nat := 0x81
def stMeterGap : Nat := 0x82
def stMeterToken : Nat := 0x83
def stMeterFw : Nat := 0x84
def stMeterCal : Nat := 0x85
def stMeterStore : Nat := 0x86
def stMeterOverwrite : Nat := 0x87
def stMeterBalance : Nat := 0x88

/-! ### Requests over the management port (R422) -/

/-- The address of an entry as a 128-bit number, the first word lowest (R442). -/
def Peer.number (p : Peer) : Nat := p.addr.foldr (fun w a => w + 2 ^ 32 * a) 0

/-- Requests from an address are accepted: it stands in a valid entry, or no entry is valid (R422). -/
def Mgmt.accepts (m : Mgmt) (peer : Nat) : Bool :=
  !(m.peers.any fun p => p.valid) || m.peers.any fun p => p.valid && p.number == peer

/-- A request is dropped without a response (R422). -/
def State.dropRequest (s : State) : State := { s with mgmt := { s.mgmt with rxRefused := satAdd 0xFFFF s.mgmt.rxRefused 1 } }

/-- Execute a request of a peer once: a repeat of the last seq gets the kept response (R422). -/
def State.request (s : State) (peer seq : Nat) (headerOk : Bool) (act : State → List Byte × State) : State :=
  if !s.mgmt.up then s
  else if !headerOk || !s.mgmt.accepts peer then s.dropRequest
  else match Tab.find s.mgmt.kept peer with
    | some k => if k.1 == seq then s.send (.mgmt peer k.2) else run
    | none => run
where
  /-- the request is new -/
  run : State :=
    let x := act s
    let m := x.2.mgmt
    { x.2 with mgmt := { m with
      kept := Tab.set m.kept peer (seq, x.1),
      peers := m.peers.map fun (p : Peer) => if p.valid && p.number == peer then { p with count := wrapAdd 32 p.count 1 } else p } }.send (.mgmt peer x.1)

/-! ### The hub's side (R447, R451, R453) -/

def State.modMeter (s : State) (f : Meter → Meter) : State := { s with meter := f s.meter }

/-- Meter time moves on, never back. -/
def State.atMs (s : State) (ms : Nat) : State := s.modMeter fun m => { m with ms := max m.ms ms }

/-- A meter code is raised (R462, R463). -/
def State.meterRaise (s : State) (severity status : Nat) : State :=
  (s.modMeter fun m => { m with lastStatus := status }).report severity 16 status

/-- METER_HEARTBEAT_SEND: a message reaches the hub (R445, R463). -/
def execMeterHeartbeatSend (at_ : Nat) (s0 : State) : Host.Outcome State Fault Refusal :=
  let s := s0.atClk at_
  if !s.meter.powered then .next s
  else .next { s with meterHub := { s.meterHub with present := true, lastBeat := s.clk, absentTold := false } }

/-- METER_HEARTBEAT_TIMEOUT: no heartbeat for 10 ms raises ST_METER_ABSENT at severity 3 (R447). -/
def execMeterHeartbeatTimeout (at_ : Nat) (s0 : State) : Host.Outcome State Fault Refusal :=
  let s := s0.atClk at_
  if s.meterHub.absentTold || s.clk < s.meterHub.lastBeat + 11000000 then .next s
  else .next ({ s with meterHub := { s.meterHub with present := false, absentTold := true } }.report 3 16 stMeterAbsent)

/-- At an edge the hub closes the frame of the tick that ended (R451, R62): owners, ballast targets, operations, final flags
and job ids. -/
def State.closeFrame (s : State) (ended : Nat) : State :=
  let h := s.meterHub
  let owners := (List.range 64).map fun g => s.residentOf g
  let fr : AttrFrame := {
    tick := ended, tickN := not64 ended, owners := owners, f := [],
    targets := (List.range 64).map fun g => if s.cutOff g then none else s.gov.ballastCtx,
    ops := h.ops.map fun e => (e.1 / 8, e.1 % 8, e.2), finals := h.finals,
    jobs := (owners.filterMap id).eraseDups.map fun c => (c, s.jobIdOf c) }
  { s with meterHub := { h with frame := some fr, ops := [], finals := [] } }

/-! ### Accounts (R450, R452, R464) -/

/-- Add to a paired word. -/
def addP {w : Nat} (p : Paired w) (x : Nat) : Paired w := pairOf w (p.nat + x)

def Meter.acct (m : Meter) (c : Nat) : Acct := Tab.get m.accts c {}
def Acct.ok (a : Acct) : Bool := a.total.ok && a.shared.ok && a.ops.all fun p => p.ok
def DevAcct.ok (d : DevAcct) : Bool := d.total.ok && d.unattr.ok && d.ballast.ok && d.lost.ok && d.own.ok

/-- Whole µJ of an accumulator (R450). -/
def microJ (p : Paired 80) : Nat := p.nat / 65536

/-! ### Records (R454 to R456) -/

/-- The firmware that waits takes over at a record boundary (R459). -/
def Meter.switchFw (m : Meter) : Meter :=
  match m.fwNext with
  | some img => { m with fwVer := Config.meterVersion img % 2 ^ 32, fwDigest := beNat (sha256 img), fwNext := none }
  | none => m

/-- Write a record (R455, R456): type, context, the two fields at 48, the 64 bytes at 64, job id and event word. While
calib_fault is set its event status is ST_METER_CAL (R460). The oldest of 65,536 is overwritten. -/
def State.record (s : State) (typ ctx f48 f56 : Nat) (body : List Byte) (job ev : Nat) : State :=
  let m := s.meter.switchFw
  let seq := wrapAdd 64 m.seq.nat 1
  let event := if m.calibFault then ev / 256 * 256 + stMeterCal else ev
  let b := leBytes 4 0x4852524D ++ leBytes 1 typ ++ leBytes 1 (b2n (!m.sealed_)) ++ leBytes 2 ctx ++ leBytes 8 seq ++
    leBytes 8 Config.serial ++ leBytes 8 m.ms ++ leBytes 8 m.firstTick ++ leBytes 8 (m.closed.getD 0) ++ leBytes 8 f48 ++
    leBytes 8 f56 ++ (padTo 64 body).take 64 ++ leBytes 4 job ++ leBytes 4 m.sealBreaks ++ leBytes 4 event ++
    leBytes 4 m.calibGen ++ (beBytes 32 m.fwDigest).take 16
  let rec_ : MRec := { seq := seq, bytes := b ++ (padTo 96 (Config.meterSignature b)).take 96 }
  let all := m.recs ++ [rec_]
  let gone := all.take (all.length - 65536)
  let s1 := { s with meter := { m with seq := pairOf 64 seq, recs := all.drop (all.length - 65536) } }
  let unread := (gone.filter fun r => !r.fetched).length
  if unread == 0 then s1
  else (s1.modMeter fun m => { m with overwritten := satAdd 0xFFFF m.overwritten unread }).meterRaise 0 stMeterOverwrite

/-- An event record whose status and detail the spec does not give (DESIGN CHOICE, safe: notes/assumptions/3.md). -/
def State.eventRecord (s : State) : State :=
  let x := s.freeStatus
  let y := x.2.free (2 ^ 24)
  y.2.record 3 0xFFFF 0 0 [] 0 (x.1 + 256 * y.1)

/-- A context record (R455). -/
def State.ctxRecord (s : State) (c job : Nat) : State :=
  let a := s.meter.acct c
  s.record 1 c (microJ a.total) (microJ a.shared) (a.ops.flatMap fun p => leBytes 8 (p.nat / 2 ^ 20)) job 0

/-- A device record (R455). (DEDUCED, unsafe: notes/assumptions/73.md.) -/
def State.devRecord (s : State) : State :=
  let d := s.meter.dev
  s.record 2 0xFFFF (microJ d.total) (microJ d.unattr) (leBytes 8 (microJ d.ballast) ++ leBytes 8 (microJ d.lost) ++ leBytes 8 (microJ d.own)) 0 0

/-- An account whose pair is broken is restored from the last snapshot, the difference in device total goes to lost, and an
event record names the context (R464). -/
def State.mend (s : State) (c : Nat) : State :=
  let m := s.meter
  if (m.acct c).ok then s
  else
    let diff := (m.dev.total.nat + 2 ^ 80 - m.snap.dev.total.nat) % 2 ^ 80
    let s1 := s.modMeter fun m => { m with
      accts := Tab.set m.accts c (Tab.get m.snap.accts c {}), dev := { m.dev with lost := addP m.dev.lost diff } }
    (s1.meterRaise 0 stPairBroken).record 3 0xFFFF 0 0 [] 0 (stPairBroken + 256 * c)

/-- The device account likewise. -/
def State.mendDev (s : State) : State :=
  let d := s.meter.dev
  let o := s.meter.snap.dev
  if d.ok then s
  else
    let pick (a b : Paired 80) : Paired 80 := if a.ok then a else b
    ((s.modMeter fun m => { m with dev := {
      total := pick d.total o.total, unattr := pick d.unattr o.unattr, ballast := pick d.ballast o.ballast,
      lost := pick d.lost o.lost, own := pick d.own o.own } }).meterRaise 0 stPairBroken).record 3 0xFFFF 0 0 [] 0 (stPairBroken + 256 * 0xFFFF)

/-- Energy to a context's account, with its shared part (R452). -/
def State.charge (s0 : State) (c d sh : Nat) : State :=
  let s := s0.mend c
  s.modMeter fun m =>
    let a := m.acct c
    { m with
      accts := Tab.set m.accts c { a with total := addP a.total (d + sh), shared := addP a.shared sh },
      changed := if m.changed.contains c then m.changed else m.changed ++ [c] }

/-- Energy to the device account: to ballast and to unattributed (R452). -/
def State.chargeDev (s0 : State) (ballast unattr : Nat) : State :=
  s0.mendDev.modMeter fun m => { m with dev := { m.dev with
    total := addP m.dev.total (ballast + unattr), ballast := addP m.dev.ballast ballast, unattr := addP m.dev.unattr unattr } }

/-- Operation counts to a context's account (R450, R453). -/
def State.chargeOps (s0 : State) (c cls n : Nat) : State :=
  let s := s0.mend c
  s.modMeter fun m =>
    let a := m.acct c
    { m with
      accts := Tab.set m.accts c { a with ops := a.ops.set cls (addP ((a.ops[cls]?).getD (pairOf 84 0)) n) },
      changed := if m.changed.contains c then m.changed else m.changed ++ [c] }

/-- The ballast part of an island's energy: ⌊E × f ÷ 256⌋, f from 0 to 256 (R451, R452). -/
def ballastPart (e f : Nat) : Nat := e * min 256 f / 256

/-- charge_tick (R452): the islands' energies, the shared energy and the frame. -/
def State.chargeTick (s : State) (es : List Nat) (esh : Nat) (fr : AttrFrame) : State :=
  let e (g : Nat) : Nat := (es[g]?).getD 0
  let b (g : Nat) : Nat := ballastPart (e g) ((fr.f[g]?).getD 0)
  let own (g : Nat) : Option Nat := ((fr.owners[g]?).getD none)
  let tgt (g : Nat) : Option Nat := ((fr.targets[g]?).getD none)
  let gs := List.range 64
  let sumE := gs.foldl (fun a g => a + e g) 0
  let toCtx (c : Nat) : Nat := gs.foldl (fun a g =>
    a + (if tgt g == some c then b g else 0) + (if own g == some c then e g - b g else 0)) 0
  let share (c : Nat) : Nat := if sumE == 0 then 0 else esh * toCtx c / sumE
  let cs := ((List.range 1024).filter fun c => (fr.owners.contains (some c) || fr.targets.contains (some c)) && 0 < toCtx c)
  let left := esh - cs.foldl (fun a c => a + share c) 0
  let s1 := cs.foldl (fun t c => t.charge c (toCtx c) (share c)) s
  let s2 := s1.chargeDev (gs.foldl (fun a g => a + if tgt g == none then b g else 0) 0)
    (left + gs.foldl (fun a g => a + if own g == none then e g - b g else 0) 0)
  fr.ops.foldl (fun t o => t.chargeOps o.1 o.2.1 o.2.2) s2

/-- E_sh, and whether Σ E_g exceeded E_in (R448). -/
def sharedEnergy (es : List Nat) (ein : Nat) : Nat × Bool :=
  let sum := (es.take 64).foldl (· + ·) 0
  (ein - sum, decide (ein < sum))

/-- Raise a code at most once per second of meter time, on the time it was last raised (R448, R451). -/
def State.oncePerS (s : State) (last : Option Nat) (status : Nat) : Bool × State :=
  match last with
  | some t => if s.meter.ms < t + 1000 then (false, s) else (true, s.meterRaise 0 status)
  | none => (true, s.meterRaise 0 status)

/-- The meter's report of a balance error (R448). -/
def State.tellBalance (s : State) (bad : Bool) : State :=
  if !bad then s
  else
    let x := s.oncePerS s.meter.balanceTold stMeterBalance
    if x.1 then x.2.modMeter fun m => { m with balanceTold := some m.ms } else x.2

/-- Tick `n` may still be accounted for: a tick accepted before is the one before it, and it is not closed (R451, R464). -/
def Meter.takesTick (m : Meter) (n : Nat) : Bool :=
  (match m.prev with | some p => decide (n = wrapAdd 64 p 1) | none => true) &&
  match m.closed with | some c => decide (c < n) | none => true

/-- ATTRIBUTION_FRAME: the hub's frame of the tick that ended reaches the meter, with the tick number and its complement as
received and the ballast fractions. It is accepted when its pair is intact, its tick is one more than the last (or the first
after a gap) and the tick is not closed (R451, R464). -/
def execAttributionFrame (tick tickN : Nat) (f : List Nat) (s : State) : Host.Outcome State Fault Refusal :=
  let m := s.meter
  match s.meterHub.frame with
  | none => .next s
  | some fr =>
    if m.powered && tickN == not64 tick && m.takesTick tick then
      .next (s.modMeter fun m => { m with frame := some { fr with tick := tick, tickN := tickN, f := f }, prev := some tick })
    else .next s

/-- The frame accepted for tick `n` (R451). -/
def Meter.frameFor (m : Meter) (n : Nat) : Option AttrFrame :=
  match m.frame with
  | some fr => if fr.tick == n then some fr else none
  | none => none

/-- The tick is charged by its frame; then a final flag gives its context's record (R451, R452, R454). -/
def State.closeBy (s : State) (es : List Nat) (esh : Nat) (fr : AttrFrame) : State :=
  fr.finals.foldl (fun t e => (t.ctxRecord e.1 e.2).modMeter fun m => { m with changed := m.changed.filter (· != e.1) })
    ((s.modMeter fun m => { m with
      frame := none, jobs := fr.jobs.foldl (fun l e => Tab.set l e.1 e.2) m.jobs }).chargeTick es esh fr)

/-- With no frame for the tick all its energy is unattributed, frames_lost counts and ST_METER_FRAME is reported, at most once
a second (R451). -/
def State.closeLost (s : State) (es : List Nat) (esh : Nat) : State :=
  let s1 := (s.modMeter fun m => { m with prev := none, frame := none, framesLost := satAdd 0xFFFF m.framesLost 1 }).chargeDev 0
    ((es.take 64).foldl (· + ·) 0 + esh)
  let x := s1.oncePerS s.meter.frameTold stMeterFrame
  if x.1 then x.2.modMeter fun m => { m with frameTold := some m.ms } else x.2

/-- METER_TICK_CLOSE: at an edge that the hub signals the meter closes the tick that ended: its energies `es` of the islands,
`ein` of all metered rails and `own` of its own rail, in 2⁻¹⁶ µJ, are charged by the frame accepted for it, or as
unattributed (R448, R451, R452). -/
def execMeterTickClose (es : List Nat) (ein own ms : Nat) (s0 : State) : Host.Outcome State Fault Refusal :=
  let s := s0.atMs ms
  let n := (s.tickNo + 2 ^ 64 - 1) % 2 ^ 64
  let m := s.meter
  if !m.powered || m.closed == some n then .next s
  else
    let sh := sharedEnergy es ein
    let s1 := (s.tellBalance sh.2).modMeter fun m => { m with closed := some n, dev := { m.dev with own := addP m.dev.own own } }
    match m.frameFor n with
    | some fr => .next (s1.closeBy es sh.1 fr)
    | none => .next (s1.closeLost es sh.1)

/-- METER_SELF_PERIOD: with no edge the meter closes a period of 16 µs on its own timebase as unattributed (R448). -/
def execMeterSelfPeriod (es : List Nat) (ein own ms : Nat) (s0 : State) : Host.Outcome State Fault Refusal :=
  let s := s0.atMs ms
  if !s.meter.powered then .next s
  else
    let sh := sharedEnergy es ein
    let s1 := (s.tellBalance sh.2).chargeDev 0 ((es.take 64).foldl (· + ·) 0 + sh.1)
    .next (s1.modMeter fun m => { m with dev := { m.dev with own := addP m.dev.own own } })

/-! ### Calibration, snapshots, intervals (R450, R454, R460) -/

/-- Load the constants of every channel (R460): a broken copy is passed over and reported; with both broken the last ones
loaded stay in use and calib_fault is set. -/
def State.loadCal (s : State) : State :=
  s.meter.cals.foldl (fun t e =>
    if e.2.a.ok then
      let t1 := t.modMeter fun m => { m with calUse := Tab.set m.calUse e.1 e.2.a.nat }
      if e.2.b.ok then t1 else t1.meterRaise 3 stPairBroken
    else if e.2.b.ok then (t.modMeter fun m => { m with calUse := Tab.set m.calUse e.1 e.2.b.nat }).meterRaise 3 stPairBroken
    else if t.meter.calibFault then t
    else (t.modMeter fun m => { m with calibFault := true }).meterRaise 3 stMeterCal) s

/-- The accounts as the store will hold them. -/
def State.takeSnap (s : State) : State :=
  let t := ((s.meter.accts.map (·.1)).foldl State.mend s).mendDev
  t.modMeter fun m => { m with snap := { accts := m.accts, dev := m.dev } }

/-- METER_SNAPSHOT: each second the accounts are written to the non-volatile store; a write that fails raises ST_METER_STORE
(R450, R462). -/
def execMeterSnapshot (ok : Bool) (ms : Nat) (s0 : State) : Host.Outcome State Fault Refusal :=
  let s := s0.atMs ms
  if !s.meter.powered then .next s
  else if ok then .next s.takeSnap.loadCal else .next (s.loadCal.meterRaise 0 stMeterStore)

/-- The first tick that the next records cover: the one after the last closed (R455). -/
def Meter.nextTick (m : Meter) : Nat :=
  match m.closed with
  | some n => wrapAdd 64 n 1
  | none => 0

/-- The records of an interval: one for each context whose account changed, ascending, then the device's (R454). -/
def State.endInterval (s : State) : State :=
  let m := s.meter
  let cs := (List.range 1024).filter fun c => m.changed.contains c
  ((cs.foldl (fun t c => t.ctxRecord c (Tab.get m.jobs c 0)) s).devRecord).modMeter fun x => { x with
    changed := [], intervalMs := m.ms, firstTick := m.nextTick }

/-- RECORD_INTERVAL_END: the interval of record_s seconds ends (R454). -/
def execRecordIntervalEnd (ms : Nat) (s0 : State) : Host.Outcome State Fault Refusal :=
  let s := s0.atMs ms
  let m := s.meter
  if !m.powered || m.ms < m.intervalMs + 1000 * m.recordS then .next s
  else .next s.endInterval

/-! ### Requests (R457 to R460) -/

/-- A response of the meter (R457). -/
def meterAnswer (seq op status arg : Nat) (body : List Byte) : List Byte :=
  leBytes 4 0x52524D48 ++ leBytes 4 seq ++ leBytes 1 op ++ leBytes 1 status ++ leBytes 2 body.length ++ leBytes 4 arg ++ body

/-- A request of the meter, relayed by the hub while the meter runs (R457). (DEDUCED, unsafe: notes/assumptions/74.md.) -/
def State.meterRequest (s : State) (peer seq op : Nat) (act : State → Nat × Nat × List Byte × State) : State :=
  if !s.meter.powered then s
  else s.request peer seq true fun t =>
    let x := act t
    (meterAnswer seq op x.1 x.2.1 x.2.2.1, x.2.2.2)

/-- METER_FETCH: 1 to 4 stored records from a seq on are returned; one overwritten already answers ST_METER_OVERWRITE with
the oldest seq held (R456, R457). -/
def execMeterFetch (peer seq first count : Nat) (s : State) : Host.Outcome State Fault Refusal :=
  .next (s.meterRequest peer seq 1 fun t =>
    match t.meter.recs.head? with
    | none => (stOk, 0, [], t)
    | some o =>
      if first < o.seq then (stMeterOverwrite, o.seq % 2 ^ 32, [], t)
      else
        let hit (r : MRec) : Bool := decide (first ≤ r.seq) && decide (r.seq < first + max 1 (min 4 count))
        (stOk, 0, (t.meter.recs.filter hit).flatMap (·.bytes), t.modMeter fun m => { m with
          recs := m.recs.map fun r => if hit r then { r with fetched := true } else r }))

/-- The current nonce (R458). -/
def Meter.nonce (m : Meter) : Nat := Config.nonce m.nonces % 2 ^ 64

/-- METER_NONCE: the nonce op returns the current nonce (R457). -/
def execMeterNonce (peer seq : Nat) (s : State) : Host.Outcome State Fault Refusal :=
  .next (s.meterRequest peer seq 2 fun t => (stOk, 0, leBytes 8 t.meter.nonce, t))

/-- METER_INTERVAL: record_s is set, with an event record (R454, R457). A value outside 1 to 3,600 sets nothing; the status it
is answered with is open. -/
def execMeterInterval (peer seq arg : Nat) (s : State) : Host.Outcome State Fault Refusal :=
  .next (s.meterRequest peer seq 3 fun t =>
    if arg == 0 || 3600 < arg then
      let x := t.freeStatus
      (x.1, 0, [], x.2)
    else (stOk, 0, [], (t.modMeter fun m => { m with recordS := arg }).eventRecord))

/-- METER_TIME_MARK: a claimed UTC is recorded as claimed (R455, R457). -/
def execMeterTimeMark (peer seq utc : Nat) (s : State) : Host.Outcome State Fault Refusal :=
  .next (s.meterRequest peer seq 4 fun t => (stOk, 0, [], t.record 4 0xFFFF 0 0 (leBytes 8 utc) 0 0))

/-- A token is valid for an action (R458): serial, nonce, action, zeros, and a signature under an authority key. -/
def Meter.tokenOk (m : Meter) (action : Nat) (tok : List Byte) : Bool :=
  tok.length == 120 && leAt tok 0 8 == Config.serial % 2 ^ 64 && leAt tok 8 8 == m.nonce && leAt tok 16 1 == action &&
  (slice tok 17 7).all (· == 0) && [0, 1].any fun i => ecdsaOk (Config.authorityKey i) (tok.take 24) (slice tok 24 96)

/-- The nonce changes after every token (R458). -/
def State.spendNonce (s : State) : State := s.modMeter fun m => { m with nonces := m.nonces + 1 }

/-- METER_BREAK: a valid break token breaks the seal (R458, R459); a broken one refuses it with ST_SEAL (R457). -/
def execMeterBreak (peer seq : Nat) (tok : List Byte) (s : State) : Host.Outcome State Fault Refusal :=
  .next (s.meterRequest peer seq 5 fun t =>
    let t1 := t.spendNonce
    if !t.meter.sealed_ then (stSeal, 0, [], t1)
    else if !t.meter.tokenOk 1 tok then (stMeterToken, 0, [], t1.meterRaise 0 stMeterToken)
    else (stOk, 0, [], (t1.modMeter fun m => { m with sealed_ := false, sealBreaks := satAdd 0xFFFFFFFF m.sealBreaks 1 }).eventRecord))

/-- METER_RESTORE: a valid restore token verifies the inactive image, where one was written, switches to it and reseals the
meter (R459). -/
def execMeterRestore (peer seq : Nat) (tok : List Byte) (s : State) : Host.Outcome State Fault Refusal :=
  .next (s.meterRequest peer seq 6 fun t =>
    let t1 := t.spendNonce
    let img := (List.range ((t.meter.inactive.map (·.1 + 1)).foldl max 0)).map fun i => Tab.get t.meter.inactive i 0xFF
    if t.meter.sealed_ then (stSeal, 0, [], t1)
    else if !t.meter.tokenOk 2 tok then (stMeterToken, 0, [], t1.meterRaise 0 stMeterToken)
    else if !img.isEmpty && !Config.meterImageOk img then (stMeterFw, 0, [], t1.meterRaise 0 stMeterFw)
    else (stOk, 0, [], (t1.modMeter fun m => { m with
      sealed_ := true, inactive := [], fwNext := if img.isEmpty then none else some img }).eventRecord))

/-- METER_CALIBRATION: the constants of a channel are written, paired and twice, while the seal is broken (R459, R460). -/
def execMeterCalibration (peer seq ch constants : Nat) (s : State) : Host.Outcome State Fault Refusal :=
  .next (s.meterRequest peer seq 7 fun t =>
    if t.meter.sealed_ then (stSeal, 0, [], t)
    else
      let t1 := t.modMeter fun m =>
        let cals := Tab.set m.cals ch { a := pairOf 96 constants, b := pairOf 96 constants }
        { m with
          cals := cals, calUse := Tab.set m.calUse ch (constants % 2 ^ 96), calibGen := satAdd 0xFFFFFFFF m.calibGen 1,
          calibFault := cals.any fun e => !e.2.a.ok && !e.2.b.ok }
      (stOk, 0, [], t1.eventRecord))

/-- METER_FW_CHUNK: up to 1 KiB is written to the inactive image while the seal is broken (R457, R459). A longer chunk writes
nothing; the status it is answered with is open. -/
def execMeterFwChunk (peer seq off : Nat) (data : List Byte) (s : State) : Host.Outcome State Fault Refusal :=
  .next (s.meterRequest peer seq 8 fun t =>
    if t.meter.sealed_ then (stSeal, 0, [], t)
    else if 1024 < data.length then
      let x := t.freeStatus
      (x.1, 0, [], x.2)
    else (stOk, 0, [], t.modMeter fun m => { m with
      inactive := (List.range data.length).foldl (fun l i => Tab.set l (off + i) ((data[i]?).getD 0)) m.inactive }))

/-! ### Power (R461) -/

/-- V_MTR_FAIL: V_MTR falls below its threshold: the snapshot and a power-down record are written (R461). -/
def execVMtrFail (ms : Nat) (s0 : State) : Host.Outcome State Fault Refusal :=
  let s := s0.atMs ms
  if !s.meter.powered then .next s
  else .next (s.takeSnap.eventRecord.modMeter fun m => { m with powered := false, failAt := (m.closed.getD 0, m.ms), frame := none, prev := none })

/-- V_MTR_RETURN: on its return the meter starts from its store and writes a gap record: the last tick and time before the
gap, the first tick and time after it (R461). -/
def execVMtrReturn (ms : Nat) (s0 : State) : Host.Outcome State Fault Refusal :=
  let s := s0.atMs ms
  let m := s.meter
  if m.powered then .next s
  else
    let s1 := (s.modMeter fun m => { m with
      powered := true, accts := m.snap.accts, dev := m.snap.dev, changed := [], frameTold := none, balanceTold := none,
      firstTick := m.failAt.1, closed := some s.tickNo, intervalMs := m.ms }).loadCal
    let s2 := (s1.record 5 0xFFFF 0 0 (leBytes 8 m.failAt.2) 0 stMeterGap).meterRaise 0 stMeterGap
    .next (s2.modMeter fun m => { m with firstTick := s.tickNo, closed := none })

end Sys2Proof.Machine
end

