-- ==== Sys2Proof/Machine/Rollback.lean ====
section
/-! DEFINITION. The Step Ledger's rollback, restores, replay, seeding and configuration
(spec/13_step_ledger_and_replay.md R292 to R308). -/

namespace Sys2Proof.Machine

/-! ### Rolling back (R292 to R294, R303) -/

/-- A ledger command or configuration write is refused (R307). -/
def State.ledRefuse (s : State) (status : Nat) : State :=
  { s with ledRegs := { s.ledRegs with cmdRefused := true, lastStatus := status } }

/-- The sends of a partition that are under way end: tokens not yet applied are stranded (R215, R218). -/
def State.endSends (s : State) (g : Nat) : State :=
  let mine := s.sync.sends.filter fun e => e.src == g
  let s1 := mine.foldl (fun (t : State) e =>
    let t1 := t.modSync g fun p => { p with out := lower16 p.out e.tokens }
    if e.phase == 0 then t1.strand g e.tokens else t1) s
  { s1 with sync := { s1.sync with sends := s1.sync.sends.filter fun e => e.src != g } }

/-- Quiesce a context (R292, R303): nothing further is released, records in flight are abandoned, tokens settled and
reseeded, the new epoch installed, locks released. -/
def State.quiesce (s : State) (c : Nat) : State :=
  let gs := (s.partsOf c).filter fun g => s.residentOf g == some c
  let s1 := gs.foldl (fun t g => (t.abandon g).endSends g) s
  let s2 := (s1.dropCobblers c).dropTags fun t => t.op == 0 && t.ctx == c && !t.quarantined
  let st := s2.settle c
  let s3 := (if st.1 then st.2 else st.2.report 2 4 stCensus noPart c).reseedAll c
  let begun := if (s.run c).inStep then (s.run c).step else (s.run c).step - 1
  let s4 := ((s3.modRun c fun r => { r with
      inStep := false, boundary := true, stopped := false, stopNext := false, broken := false, tail := false, phases := [] }).modStart c
        fun x => { x with state := 0 }).modLed c fun l => { l with
      state := 4, rollbacks := satAdd 0xFFFF l.rollbacks 1, sends := [], inLocks := [], passes := [], stepDg := 0, bad := false,
      passBad := false, votes := [], early := [], ups := [], verdict := none, own := none, decision := none,
      replayTo := max l.replayTo begun, settled := false, needTail := false, failed := 0, streamed := 0 }
  let s5 := (s4.modCkpt c fun k => if k.state == 1 then { k with state := 0, holding := false, saved := [] } else k).clearSamples c
  (s5.planBarrier c false).installEpoch (s.slotOf c) s.ledRegs.rbEpoch.nat

/-- The context's last completed update step is `j` and no logged pass of the next step has passed phase 0 (R294). -/
def State.clean (s : State) (c j : Nat) : Bool := (s.led c).updated.nat == j % 2 ^ 32 && !(s.led c).dirty

/-- LEDGER_ROLLBACK: the rollback command quiesces the context and installs the epoch of LEDGER_RB_EPOCH; it is accepted
in running, voting, committing and replaying (R292, R307, R308). The status of a refusal is open
(DESIGN CHOICE, safe: notes/assumptions/22.md). (DEDUCED, unsafe: notes/assumptions/60.md.) -/
def execLedgerRollback (c at_ : Nat) (s0 : State) : Host.Outcome State Fault Refusal :=
  let s := { s0.atClk at_ with ledRegs := { s0.ledRegs with ctx := c } }
  let l := s.led c
  if !([1, 2, 3, 6].contains l.state) then .next (s.ledRefuse (openStatus 5))
  else
    let need := l.ownRows != 0 && !s.clean c l.confirmed.nat
    let s1 := { s with ledRegs := { s.ledRegs with lastStatus := stOk } }.quiesce c
    let g := l.jobGroup
    let i := s.memberOf c g
    .next (if i == 0 then s1
      else s1.treeMsg c g (treeAbove i) (leBytes 8 l.confirmed.nat ++ leBytes 8 (not64 l.confirmed.nat) ++ leBytes 1 3 ++ leBytes 1 (b2n need)))

/-- SHARD_SETTLE (R294): the shard is kept, waits for its mirror or its checkpoint copy, or halts the context. A restore
from a checkpoint copy is the command of R317, with the slot named here. -/
def State.settleShard (s : State) (c target : Nat) (needTail : Bool) : State :=
  let l := s.led c
  let k := s.ckpt c
  let s1 := (s.modRun c fun r => { r with step := target + 1 }).modLed c fun l => { l with
    state := 5, target := target, needTail := needTail, streamed := 0, failed := 0 }
  if l.ownRows == 0 || s.clean c target then s1.modLed c fun l => { l with settled := true }
  else
    let s2 := s1.modLed c fun l => { l with settled := false, needTail := true }
    if l.seeded then s2
    else if k.lastValid && k.lastStep.nat == target then
      { s2 with ckptRegs := { s2.ckptRegs with ctx := c, restoreSlot := k.lastSlot } }
    else s2.halt c 1

/-- ROLLBACK_EXCHANGE: the contexts of the job have agreed on the target and on need-tail (R293); a context below the
target takes it as confirmed first; the shard is settled (R294). `lost` says that the partner is lost (R304): a drain
under way stops, for its checkpoint cannot complete (R320). -/
def execRollbackExchange (c target : Nat) (needTail lost : Bool) (at_ : Nat) (s0 : State) : Host.Outcome State Fault Refusal :=
  let s := s0.atClk at_
  if (s.led c).state != 4 then .next s
  else
    let was := (s.led c).mirrorValid
    let s1 := if (s.led c).confirmed.nat < target then (s.confirmStep c target).modLed c fun l => { l with mirrorValid := was } else s
    let s2 := if lost then
        (if (s1.ckpt c).state == 2 || (s1.ckpt c).state == 3 then s1.ckptEnd c stAborted 0 else s1).modLed c fun l =>
          { l with mirrorValid := false, seeded := false }
      else s1
    .next (if (s2.led c).state == 7 then s2 else s2.settleShard c target needTail)

/-! ### Restores and seeding (R295, R299) -/

/-- The bytes of the own and side rows, and of the mirror rows. -/
def State.shardBytes (s : State) (c : Nat) : List Byte :=
  let l := s.led c
  s.peekRange (ledAgent c) 0 (l.ownRow * s.rowBytes c) ((l.ownRows + l.sideRows) * s.rowBytes c)
def State.mirrorBytes (s : State) (c : Nat) : List Byte :=
  let l := s.led c
  s.peekRange (ledAgent c) 0 (l.mirRow * s.rowBytes c) (l.wardRows * s.rowBytes c)

/-- The shard is settled at the target. -/
def State.settled (s : State) (c : Nat) : State :=
  s.modLed c fun l => { l with
    settled := true, needTail := true, updated := pairOf 32 l.target, dirty := false, failed := 0, streamed := 0, lastStatus := stOk }

/-- A stream whose digests differ (R295): once more from the start, then halted. -/
def State.streamBad (s : State) (c kind reason : Nat) : State :=
  let s1 := ((s.modLed c fun l => { l with failed := l.failed + 1, streamed := 0, lastStatus := stDigestMismatch }).setXfer c kind 0).report
    1 7 stDigestMismatch noPart c
  if 2 ≤ (s1.led c).failed then s1.halt c reason else s1

/-- MIRROR_RESTORE: the partner streams its mirror rows (role 0), or the owner takes the next bytes of the stream into
its own and side rows; with the partner's digest, which comes last, it compares the two (role 1) (R295, R372). -/
def execMirrorRestore (c role : Nat) (bytes : List Byte) (digest : Option Nat) (s : State) : Host.Outcome State Fault Refusal :=
  let l := s.led c
  if l.state == 0 then .next s
  else if role == 0 then
    if l.wardValid then .next (s.streamTo c l.wardDev 2 l.wardStep (s.mirrorBytes c)) else .next s
  else if l.state != 5 || l.settled || !l.seeded then .next s
  else if s.fencedOff c then .next (s.ledFenced c)
  else
    let total := (l.ownRows + l.sideRows) * s.rowBytes c
    let bs := bytes.take (total - l.streamed)
    let n := l.streamed + bs.length
    let s1 := ((s.ledWrite c (l.ownRow * s.rowBytes c + l.streamed) bs).modLed c fun l => { l with streamed := n }).setXfer c 2 (n / 64)
    match digest with
    | none => .next s1
    | some d =>
      if n < total then .next s1
      else .next (if dg (s1.shardBytes c) == d then s1.settled c else s1.streamBad c 2 6)

/-- MIRROR_SEEDING: the owner streams its settled rows to the partner (role 0); the partner takes the next bytes into its
mirror rows and with the owner's digest compares (role 1); the owner compares the digest the partner returns, and its
shard has a mirror (role 2) (R299, R372). -/
def execMirrorSeeding (c role step : Nat) (bytes : List Byte) (digest : Option Nat) (s : State) : Host.Outcome State Fault Refusal :=
  let l := s.led c
  if l.state == 0 then .next s
  else match role with
    | 0 =>
      if l.partnerDev == 0xFFF || l.ownRows == 0 then .next s
      else .next (((s.modLed c fun l => { l with mirrorValid := false, seeded := false }).streamTo c l.partnerDev 3 l.confirmed.nat (s.shardBytes c)).setXfer c 3 0)
    | 1 =>
      if l.wardDev == 0xFFF then .next s
      else if s.fencedOff c then .next (s.ledFenced c)
      else
        let n := l.streamed + bytes.length
        let s1 := ((s.ledWrite c (l.mirRow * s.rowBytes c + l.streamed) bytes).modLed c fun l => { l with
          wardValid := false, streamed := n, wardRows := n / s.rowBytes c }).setXfer c 3 (n / 64)
        match digest with
        | none => .next s1
        | some d =>
          if dg (s1.mirrorBytes c) == d then
            .next ((s1.modLed c fun l => { l with
              wardValid := true, wardStep := step, streamed := 0, lastStatus := stOk, wardRecs := l.wardRecs.filter (· == step),
              wardGrads := [] }).jobPacket c l.wardDev (s1.rankOn (s1.slotOf c) l.wardDev) {
                typ := 0x12, group := 0xFFF, data := padTo 64 (leBytes 8 step ++ leBytes 8 (not64 step) ++ leBytes 1 4 ++ leBytes 16 d) })
          else .next (((s1.modLed c fun l => { l with streamed := 0, lastStatus := stDigestMismatch }).setXfer c 3 0).report 1 7 stDigestMismatch noPart c)
    | _ => match digest with
      | none => .next s
      | some d =>
        if l.partnerDev == 0xFFF then .next s
        else if dg (s.shardBytes c) == d then
          .next ((s.modLed c fun l => { l with
            mirrorValid := true, seeded := true, seeds := satAdd 0xFFFF l.seeds 1, lastStatus := stOk }).setXfer c 3
              ((l.ownRows + l.sideRows) * s.rowBytes c / 64))
        else .next ((s.modLed c fun l => { l with lastStatus := stDigestMismatch }).report 1 7 stDigestMismatch noPart c)

/-! ### Tail replay and spares (R296, R298) -/

/-- Bytes are a step record of step `j` with an intact step pair. -/
def recordOk (j : Nat) (b : List Byte) : Bool := decide (32768 ≤ b.length) && leAt b 0 8 == j && leAt b 8 8 == not64 j

/-- The step record of the target: from the own slots, else the partner's copy (R302). -/
def State.targetRecord (s : State) (c j : Nat) (copy : List Byte) : Option (List Byte) × State :=
  let r := s.ledRead c (s.ownSlot c j) (s.recBytes c)
  if r.1 == 0 && recordOk j r.2.1 then (some r.2.1, r.2.2) else (if recordOk j copy then some copy else none, r.2.2)

/-- Positions of a cluster's expanded stream. -/
def State.streamLen (s : State) (c g n : Nat) : Nat :=
  ((s.playList (agentOf c g n 4 0) (s.partIndex c g) n).2.1.map fun e => e.len * e.repeat_).foldl (· + ·) 0

/-- The record at a position of a cluster's stream, with the ticks its place adds. -/
def State.recAt (s : State) (c g n pos : Nat) : Option (Where × Nat) := (s.fetchRec (agentOf c g n 4 0) (s.partIndex c g) n pos).2.1

/-- The first mark of a cluster's stream that belongs to the tail, or its end mark. -/
def State.tailPos (s : State) (c g n : Nat) : Option Nat :=
  (List.range (s.streamLen c g n)).find? fun pos => match s.recAt c g n pos with
    | some (w, r) => recKind r == 2 && (markEnd r || decide ((s.led c).tailTick ≤ markRel r + w.ticks))
    | none => false

/-- Every stream of the context stands at its tail (R296). -/
def State.startTail (s : State) (c : Nat) : State :=
  let s1 := s.modRun c fun r => { r with tail := true, inStep := true, boundary := false, phases := [], stepBase := s.tickNo + 1 }
  (s1.partsOf c).foldl (fun t g => (List.range 18).foldl (fun u n =>
      let p := s.tailPos c g n
      u.modClu (18 * g + n) fun cl => { cl with
        pos := p.getD 0, segOpen := false, segLate := false, ended := p.isNone })
    (t.modMon g fun m => { m with slip := 0 })) s1

/-- TAIL_REPLAY: the context regenerates its working weights by running the tail of the target step again, with seed and
hyper blocks rewritten from its step record (R296); a record that cannot be read halts it (R302). `copy` is the
partner's copy of the record. Where the target is the step that the ledger was enabled at, no record exists and the
blocks stand (R318). -/
def execTailReplay (c : Nat) (copy : List Byte) (s : State) : Host.Outcome State Fault Refusal :=
  let l := s.led c
  let ready := l.needTail && !(s.run c).tail && ((l.state == 5 && l.settled) || (l.state == 1 && s.notStarted c && !(s.run c).inStep))
  if !ready then .next s
  else
    let j := if l.state == 1 then l.confirmed.nat else l.target
    let r := s.targetRecord c j copy
    match r.1 with
    | none => if j == l.c0 then .next (s.startTail c) else .next (r.2.halt c 3)
    | some b =>
      let s1 := r.2.ledWrite c (l.seedAddr * 64) (slice b 48 64)
      let s2 := (List.range (leAt b 112 2)).foldl (fun t p =>
        t.ledWrite c ((⟨leAt b (256 + 128 * p) 64⟩ : CobP).hyper * 64) (slice b (256 + 128 * p + 64) 64)) s1
      .next (s2.startTail c)

/-- Write bytes over the ranges of the digest list, in order (R296). -/
def State.fillWeights (s : State) (c : Nat) (bs : List Byte) : State :=
  if bs.isEmpty then s
  else ((s.digestList c).foldl (fun (acc : Nat × State) e => (acc.1 + e.2, acc.2.ledWrite c e.1 (slice bs acc.1 e.2))) (0, s)).2

/-- SPARE_TAKEOVER: a spare, configured as the lost device was, takes the step records that the partner holds and the
input banks of the steps to be replayed, each checked against its record's input digest; one that cannot be had or
differs halts it (R298, R302). Its shard comes by MIRROR_RESTORE; `weights` are working weights copied from a member of
the herd where no context needs its tail (R296). -/
def execSpareTakeover (c target : Nat) (records : List (Nat × List Byte)) (banks : List (Nat × List Byte)) (weights : List Byte)
    (s : State) : Host.Outcome State Fault Refusal :=
  let l := s.led c
  if !([1, 4, 5].contains l.state) || !s.notStarted c then .next s
  else
    let s1 := records.foldl (fun t e => t.ledWrite c (s.ownSlot c e.1) e.2) s
    let replays := records.filter fun e => target < e.1
    let ok := replays.all fun e => match banks.find? fun b => b.1 == e.1 with
      | some b => dg b.2 == leAt e.2 32 16
      | none => false
    let s2 := (s1.modRun c fun r => { r with step := target + 1, boundary := true, inStep := false }).modLed c fun l => { l with
      state := 5, target := target, confirmed := pairOf 64 target, settled := l.ownRows == 0, seeded := l.ownRows != 0,
      held := replays.map (·.1), replayTo := replays.foldl (fun a e => max a e.1) target, streamed := 0, failed := 0 }
    if !ok then .next (s2.halt c 5)
    else
      let s3 := replays.foldl (fun t e => match banks.find? fun b => b.1 == e.1 with
        | some b => t.ledWrite c (s.inBank c e.1).1 b.2
        | none => t) s2
      .next (s3.fillWeights c weights)

/-! ### Commands and configuration (R306, R307) -/

/-- LEDGER_HALT: the halt command sets halted with halt_reason 7; with the ledger off it is refused (R307). -/
def execLedgerHalt (c : Nat) (s0 : State) : Host.Outcome State Fault Refusal :=
  let s := { s0 with ledRegs := { s0.ledRegs with ctx := c } }
  if (s.led c).state == 0 then .next (s.ledRefuse (openStatus 5))
  else .next ({ s with ledRegs := { s.ledRegs with lastStatus := stOk } }.halt c 7)

/-- CLEAR_STRIKES: the strikes of a context become 0 (R307). -/
def execClearStrikes (c : Nat) (s : State) : Host.Outcome State Fault Refusal :=
  .next ({ s with ledRegs := { s.ledRegs with ctx := c, lastStatus := stOk } }.modLed c fun l => { l with strikes := 0 })

/-- The areas of a ledger configuration: address and bytes (R306). -/
def State.ledAreas (s : State) (c : Nat) : List (Nat × Nat) :=
  let l := s.led c
  let rb := s.rowBytes c
  let ward := l.wardDev != 0xFFF
  [(l.ownRow * rb, l.ownRows * rb), ((l.ownRow + l.ownRows) * rb, l.sideRows * rb),
   (l.mirRow * rb, if ward then (l.ownRows + l.sideRows) * rb else 0), (l.gRow * rb, l.gRows * rb),
   (l.retRow * rb, if ward then l.k * l.gRows * rb else 0), (l.recBase * 64, 2 * (l.k + 1) * s.recBytes c),
   (l.inBase * 64, (l.k + 1) * l.inUnits * 64), (l.seedAddr * 64, 64), (l.dlist * 64, 16 * l.dcount)].filter fun a => a.2 != 0

/-- The areas lie within `end_` and no two of them meet. -/
def areasOk (end_ : Nat) : List (Nat × Nat) → Bool
  | [] => true
  | a :: t => decide (a.1 + a.2 ≤ end_) && (t.all fun b => !rangesMeet a.1 a.2 b.1 b.2) && areasOk end_ t

/-- A record may stand in the tail (R296). -/
def tailRec (r : Nat) : Bool :=
  match recKind r with
  | 2 => true
  | 4 => true
  | 5 => !(⟨r⟩ : PhaseR).combines
  | 6 => true
  | _ => false

/-- The tail of every stream holds only what R296 allows. -/
def State.tailOk (s : State) (c : Nat) : Bool :=
  (s.partsOf c).all fun g => (List.range 18).all fun n => match s.tailPos c g n with
    | none => true
    | some p => (List.range (s.streamLen c g n - p)).all fun i => match s.recAt c g n (p + i) with
      | some (_, r) => tailRec r
      | none => true

/-- A write of enable = 1 is accepted (R306). -/
def State.canEnable (s : State) (c : Nat) : Bool :=
  let l := s.led c
  (s.load c).state == 4 && s.notStarted c &&
  (l.herd == 0xFFF || (s.hostedIn c l.herd).length == 1) && (s.hostedIn c l.jobGroup).length == 1 &&
  areasOk (s.bulkEnd c) (s.ledAreas c) && s.tailOk c

/-- Turn the ledger on (R281, R288, R307). -/
def Led.on (l : Led) : Led :=
  { l with
    state := 1, c0 := l.confirmed.nat, updated := pairOf 32 l.confirmed.nat, confirmations := 0, rollbacks := 0, halts := 0,
    replayed := 0, ckptRestores := 0, seeds := 0, cfg := l.cfg.set 0 (l.word 0 + 2 ^ 31), weights := {}, bad := false, passBad := false }

/-- Turn the ledger off: all retained data are discarded (R307); the confirmed step, strikes and counts stay. -/
def Led.off (l : Led) : Led :=
  { cfg := l.cfg.set 0 (l.word 0 % 2 ^ 31), strikes := l.strikes, lastVerdict := l.lastVerdict, disagree := l.disagree,
    lastStatus := l.lastStatus, confirmed := l.confirmed, updated := l.updated, confirmations := l.confirmations,
    rollbacks := l.rollbacks, halts := l.halts, replayed := l.replayed, ckptRestores := l.ckptRestores, seeds := l.seeds,
    needTail := l.needTail }

/-- LEDGER_ENABLE_WRITE: a write of LEDGER_CFG0 of the selected context; enable = 1 turns the ledger on if R306 holds and
is refused otherwise, enable = 0 turns it off; the other fields are written only while it is off (R281, R306, R307). -/
def execLedgerEnableWrite (value : Nat) (s : State) : Host.Outcome State Fault Refusal :=
  let c := s.ledRegs.sel
  let on := bitOf value 31
  let stale : State := { s with glb := { s.glb with digestStale := true } }
  if (s.led c).state != 0 then .next (if on then s else stale.modLed c Led.off)
  else
    let s1 := stale.modLed c fun l => { l with cfg := l.cfg.set 0 (at' (fld value 30 3) 3) }
    if !on then .next s1
    else if s1.canEnable c then
      .next (({ s1 with ledRegs := { s1.ledRegs with lastStatus := stOk } }.modLed c Led.on).modRun c
        fun r => { r with step := (s1.led c).confirmed.nat + 1 })
    else .next (s1.ledRefuse stConfigMismatch)

end Sys2Proof.Machine
end

