-- ==== Sys2Proof/Machine/Checkpoint.lean ====
section
/-! DEFINITION. Checkpoints: the drain, its pacing, manifests, the digest tree, completion, abort and restore
(spec/14_checkpoint.md R309 to R320). -/

namespace Sys2Proof.Machine

/-! ### The shard object (R310, R311) -/

/-- Bytes of a context's shard data. -/
def State.dataBytes (s : State) (c : Nat) : Nat := ((s.led c).ownRows + (s.led c).sideRows) * s.rowBytes c

/-- The 4 KiB units of the data. -/
def State.dataUnits (s : State) (c : Nat) : Nat := ceilDiv (s.dataBytes c) 4096

/-- Remote address of slot A (0) or B (1). -/
def Ckpt.slotAddr (k : Ckpt) (slot : Nat) : Nat := if slot == 0 then k.slotA else k.slotB

/-- The slot of the checkpoint under way (R310). -/
def Ckpt.addr (k : Ckpt) : Nat := k.slotAddr (k.seq % 2)

/-- Bytes 0 to 415 of a manifest, and the signature (R311). -/
def State.manifest (s : State) (c : Nat) (job : Bool) (digest : List Byte) : List Byte :=
  let k := s.ckpt c
  let l := s.led c
  let im := s.image c
  let mid := if job then leBytes 2 (s.grp c l.jobGroup).2.2 ++ zeros 22
    else leBytes 2 s.fab.num ++ leBytes 2 c ++ leBytes 2 im.rankBase ++ leBytes 2 im.ranksHosted ++ leBytes 2 (s.chList c).length ++
      leBytes 1 l.sideRows ++ [0] ++ leBytes 4 l.ownRows ++ leBytes 8 (s.dataBytes c)
  let b := leBytes 4 0x32544B43 ++ leBytes 4 k.seq ++ leBytes 8 k.step ++ leBytes 8 (not64 k.step) ++ leBytes 4 (s.jobIdOf c) ++ mid ++
    leBytes 32 (s.load c).ctxDigest ++ digest ++ zeros 300
  b ++ (padTo 96 (Config.signature b)).take 96

/-! ### Commands (R312, R319, R320) -/

/-- A checkpoint command or configuration write is refused (R319). -/
def State.ckptRefuse (s : State) : State := { s with ckptRegs := { s.ckptRegs with cmdRefused := true, lastStatus := openStatus 5 } }

/-- CKPT_TAKE: the take command sets the due bit of a context whose ledger is on and that owns rows (R309, R312). -/
def execCkptTake (c : Nat) (s0 : State) : Host.Outcome State Fault Refusal :=
  let s := { s0 with ckptRegs := { s0.ckptRegs with ctx := c } }
  if (s.led c).state == 0 || (s.led c).ownRows == 0 then .next s.ckptRefuse
  else .next ({ s with ckptRegs := { s.ckptRegs with lastStatus := stOk } }.modCkpt c fun k => { k with due := true })

/-- CKPT_TIMER_EXPIRE: timer_s seconds after the last complete checkpoint began the due bit is set (R312). (DEDUCED, unsafe: notes/assumptions/62.md.) -/
def execCkptTimerExpire (c at_ : Nat) (s0 : State) : Host.Outcome State Fault Refusal :=
  let s := s0.atClk at_
  let k := s.ckpt c
  if k.timerS != 0 && (s.led c).state != 0 && (s.led c).ownRows != 0 && k.lastBegan + k.timerS * 1100000000 ≤ s.clk then
    .next (s.modCkpt c fun k => { k with due := true })
  else .next s

/-! ### The drain (R315, R316) -/

/-- Granule `o` of the data as it stood when it was held (R314, R315): its status and bytes. -/
def State.heldGranule (s : State) (c o : Nat) : Nat × List Byte × State :=
  match (s.ckpt c).saved.find? fun x => x.ord == o with
  | some x => match x.st with
    | 0 => (stUnwritten, [], s)
    | 1 => (0, zeros 256, s)
    | 2 => (0, x.bytes, s)
    | _ => (stEcc, [], s)
  | none => s.ledRead c ((s.led c).ownRow * s.rowBytes c + 256 * o) 256

/-- The bytes of unit `u`. -/
def State.unitBytes (s : State) (c u : Nat) : Nat × List Byte × State :=
  match (s.ckpt c).sent.find? fun x => x.1 == u with
  | some x => (0, x.2, s)
  | none =>
    let n := min 16 (s.dataBytes c / 256 - 16 * u)
    (List.range n).foldl (fun (acc : Nat × List Byte × State) i =>
      if acc.1 != 0 then acc
      else
        let r := acc.2.2.heldGranule c (16 * u + i)
        (r.1, acc.2.1 ++ r.2.1, r.2.2)) (0, [], s)

/-- The token bucket filled up to the present clk (R316), in bytes × 1,100: rate_mbs MB/s is rate_mbs / 1,100 bytes in
each clk. -/
def Ckpt.refill (k : Ckpt) (clk : Nat) : Ckpt :=
  { k with bucket := min (1048576 * 1100 : Int) (k.bucket + ((clk - k.bucketAt) * k.rate : Nat)), bucketAt := clk }

/-- The next unit to send, and whether it goes ahead of its turn (R314). -/
def Ckpt.nextUnit (k : Ckpt) (units : Nat) : Option (Nat × Bool) :=
  let free (u : Nat) : Bool := !k.out.contains u && !k.done.contains u
  match k.urgent.find? free with
  | some u => some (u, true)
  | none => ((List.range units).find? free).map fun u => (u, false)

/-- Send one more unit, if the port, the 64 outstanding and the bucket allow (R315, R316). -/
def State.sendUnit1 (s : State) (c : Nat) : State :=
  let k := (s.ckpt c).refill s.clk
  if k.state != 2 || !k.started || k.paused || 64 ≤ k.out.length || !s.canWrite 3 k.qp then s
  else match k.nextUnit (s.dataUnits c) with
    | none => s
    | some (u, ahead) =>
      let n : Int := (min 4096 (s.dataBytes c - 4096 * u) * 1100 : Nat)
      if !ahead && k.rate != 0 && k.bucket < n then s.modCkpt c fun _ => k
      else
        let r := s.unitBytes c u
        if r.1 != 0 then r.2.2.ckptEnd c r.1 0
        else
          let s1 := r.2.2.modCkpt c fun x => { x with
            bucket := if k.rate == 0 then k.bucket else max (-16777216 * 1100) (k.bucket - n), bucketAt := k.bucketAt,
            out := x.out ++ [u], urgent := x.urgent.filter (· != u),
            sent := if x.sent.any (·.1 == u) then x.sent else x.sent ++ [(u, r.2.1)] }
          let s2 := if (s1.qp k.qp).timer.isNone then s1.modQp k.qp fun q => { q with timer := some s1.clk } else s1
          s2.send (.portWrite 3 k.qp (k.addr + 4096 + 4096 * u) r.2.1)

/-- Send what can be sent. -/
def State.pumpDrain (s : State) (c : Nat) : State := (List.range 64).foldl (fun t _ => t.sendUnit1 c) s

/-- CKPT_DRAIN_START: after its stagger delay the drain zeroes the slot's shard manifest and starts sending data units; a
drain that has started goes on as its bucket fills (R315, R316). -/
def execCkptDrainStart (c at_ : Nat) (s0 : State) : Host.Outcome State Fault Refusal :=
  let s := s0.atClk at_
  let k := s.ckpt c
  if k.state != 2 then .next s
  else if k.started then .next (s.pumpDrain c)
  else if s.clk < k.startAt then .next s
  else
    let deny := s.portDeny c 3 k.qp
    if deny != 0 then .next (s.ckptEnd c stAborted deny)
    else if !s.canWrite 3 k.qp then .next s
    else
      let s1 := (s.send (.portWrite 3 k.qp k.addr (zeros 512))).modCkpt c fun k => { k with
        started := true, bucket := 1048576 * 1100, bucketAt := s.clk }
      .next (s1.pumpDrain c)

/-! ### Sealing (R315) -/

/-- Every context of the job records the checkpoint as its last complete one (R315 step 6). -/
def State.ckptComplete (s : State) (c : Nat) : State :=
  s.modCkpt c fun k => { k with
    state := 0, started := false, holding := false, saved := [], out := [], done := [], sent := [], tree := [], urgent := [],
    lastSlot := k.seq % 2, lastValid := true, lastStep := pairOf 64 k.step, lastStatus := stOk, seq := wrapAdd 32 k.seq 1,
    points := 0, lastBegan := k.began }

/-- Completion goes down the tree (R315). -/
def State.completionDown (s : State) (c step : Nat) : State :=
  let g := (s.led c).jobGroup
  (treeBelow (s.grp c g).2.2 (s.memberOf c g)).foldl (fun t m =>
    t.treeMsg c g m (leBytes 8 step ++ leBytes 8 (not64 step) ++ leBytes 1 6)) s

/-- The digest of the shard's data in data order (R315). -/
def Ckpt.shardDigest (k : Ckpt) (units : Nat) : List Byte :=
  sha256 ((List.range units).flatMap fun u => match k.sent.find? fun x => x.1 == u with | some x => x.2 | none => [])

/-- Once the digests of the members below are there, the node goes up the tree, or member 0 writes the job manifest and
sends completion down (R315 steps 4 and 5). -/
def State.digestUp (s : State) (c : Nat) : State :=
  let k := s.ckpt c
  let g := (s.led c).jobGroup
  let i := s.memberOf c g
  let below := treeBelow (s.grp c g).2.2 i
  if k.state != 3 || !(below.all fun m => k.tree.any fun x => x.1 == m) then s
  else
    let node := below.foldl (fun (a : List Byte) m => match k.tree.find? fun x => x.1 == m with
      | some x => sha256 (a ++ x.2)
      | none => a) (k.shardDigest (s.dataUnits c))
    if i == 0 then
      (((s.send (.portWrite 3 k.qp (k.addr + 512) (s.manifest c true node))).ckptComplete c).completionDown c k.step)
    else s.treeMsg c g (treeAbove i) (leBytes 8 k.step ++ leBytes 8 (not64 k.step) ++ leBytes 1 5 ++ zeros 15 ++ node)

/-- Every data unit has been accepted: the signed shard manifest is written and the digest goes up (R315 steps 3, 4). -/
def State.seal (s : State) (c : Nat) : State :=
  let k := s.ckpt c
  let s1 := s.modCkpt c fun k => { k with state := 3, holding := false, saved := [] }
  (s1.send (.portWrite 3 k.qp k.addr (s1.manifest c false (k.shardDigest (s.dataUnits c))))).digestUp c

/-- CKPT_UNIT_ACCEPT: an acknowledged 4 KiB unit releases its granules and their pool copies and advances the progress
word; after the last one the shard is sealed (R314 to R316). -/
def execCkptUnitAccept (c u at_ : Nat) (s0 : State) : Host.Outcome State Fault Refusal :=
  let s := s0.atClk at_
  let k := s.ckpt c
  if k.state != 2 || !k.out.contains u then .next s
  else
    let done := insertAsc u k.done
    let prefix_ := ((List.range (s.dataUnits c)).takeWhile fun i => done.contains i).length
    let s1 := (s.modCkpt c fun k => { k with
      out := k.out.filter (· != u), done := done, saved := k.saved.filter fun x => x.ord / 16 != u,
      progress := pairOf 32 (at' 1 30 + prefix_) }).qpHeard k.qp
    .next (if s.dataUnits c ≤ done.length then s1.seal c else s1.pumpDrain c)

/-- CKPT_DIGEST_TREE_RECEIVE: a message of the digest tree is combined upwards; member 0 writes the job manifest
(R315). -/
def execCkptDigestTreeReceive (c from_ : Nat) (digest : List Byte) (s : State) : Host.Outcome State Fault Refusal :=
  let k := s.ckpt c
  if k.state == 0 || k.state == 4 then .next s
  else .next ((s.modCkpt c fun k => { k with tree := k.tree.filter (fun x => x.1 != from_) ++ [(from_, digest)] }).digestUp c)

/-- CKPT_COMPLETION_RECEIVE: completion received down the tree records the last complete checkpoint, and goes on down
(R315). -/
def execCkptCompletionReceive (c step : Nat) (s : State) : Host.Outcome State Fault Refusal :=
  let k := s.ckpt c
  if k.state == 3 && step == k.step then .next ((s.ckptComplete c).completionDown c step) else .next s

/-! ### Abort and restore (R317, R320) -/

/-- CKPT_ABORT: the abort command stops a drain, or reports ST_ALREADY_DONE (R319, R320). A restore is one command of
this model, so none is under way between commands. -/
def execCkptAbort (c : Nat) (s0 : State) : Host.Outcome State Fault Refusal :=
  let k := s0.ckpt c
  let st := if k.state == 2 || k.state == 3 then stAborted else stAlreadyDone
  let s := { s0 with ckptRegs := { s0.ckptRegs with ctx := c, lastStatus := st } }
  .next (if st == stAborted then s.ckptEnd c stAborted 0 else s)

/-- The manifest of a slot agrees with the context (R317 step 2). -/
def State.manifestOk (s : State) (c : Nat) (m : List Byte) : Bool :=
  let l := s.led c
  leAt m 0 4 == 0x32544B43 && leAt m 16 8 == not64 (leAt m 8 8) && leAt m 24 4 == s.jobIdOf c && leAt m 36 2 == (s.chList c).length &&
  leAt m 40 4 == l.ownRows && leAt m 38 1 == l.sideRows && leAt m 52 32 == (s.load c).ctxDigest &&
  (l.state == 0 || leAt m 8 8 == l.target)

/-- A restore ends with a status (R317). -/
def State.restoreEnd (s : State) (c status port : Nat) : State :=
  let s1 := { s.modCkpt c fun k => { k with state := 0, lastStatus := status, portStatus := port } with
    ckptRegs := { s.ckptRegs with lastStatus := status } }
  if status == stOk then s1 else s1.report 1 8 status noPart c

/-- CKPT_RESTORE: the restore command reads a slot's shard manifest and data and restores the own and side rows, with the
ledger off or restoring and no checkpoint under way (R317, R319, R320, R372). `port` is the status with which the port ended
it, 0 where it delivered `manifest` and `data`. -/
def execCkptRestore (c slot port : Nat) (manifest data : List Byte) (s0 : State) : Host.Outcome State Fault Refusal :=
  let s := { s0 with ckptRegs := { s0.ckptRegs with ctx := c, restoreSlot := slot } }
  let k := s.ckpt c
  let l := s.led c
  if !(l.state == 0 || (l.state == 5 && !l.settled)) || k.state != 0 || 1 < slot then .next s.ckptRefuse
  else
    let deny := s.portDeny c 3 k.qp
    if s.fencedOff c then .next (s.restoreEnd c stFenced 0)
    else if deny != 0 then .next (s.restoreEnd c stAborted deny)
    else
      let n := s.dataBytes c
      let s1 := ((s.send (.portRead 3 k.qp s.freeTag (k.slotAddr slot) 512)).send (.portRead 3 k.qp s.freeTag (k.slotAddr slot + 4096) n)).modCkpt c
        fun k => { k with progress := pairOf 32 (at' 2 30) }
      if port != 0 then .next (s1.restoreEnd c stAborted port)
      else if !s.manifestOk c manifest then .next (s1.restoreEnd c stConfigMismatch 0)
      else
        let s2 := (s1.ledWrite c (l.ownRow * s.rowBytes c) (data.take n)).modCkpt c fun k => { k with
          progress := pairOf 32 (at' 2 30 + s.dataUnits c) }
        if data.length < n || sha256 (data.take n) != slice manifest 84 32 then
          .next ((s2.rangeState (ledAgent c) 0 (l.ownRow * s.rowBytes c) n 0).2.restoreEnd c stDigestMismatch 0)
        else
          let s3 := (s2.restoreEnd c stOk 0).modLed c fun l => { l with
            ckptRestores := satAdd 0xFFFF l.ckptRestores 1, needTail := true, mirrorValid := false, seeded := false }
          .next (if l.state == 5 then s3.settled c else s3)

end Sys2Proof.Machine
end

