-- ==== Sys2Proof/Machine/HostSide.lean ====
section
/-! DEFINITION. The PCIe host port: inbound requests, completions, bus mastering and resets
(spec/19_host_and_service_ports.md R400 to R405). -/

namespace Sys2Proof.Machine

/-- An access of a port to a context's bulk space, unit 7 in MEM_FAULT_REC (R403, R407). -/
def portAgent (c : Nat) : Agent := { ctx := c, loc := 0, unit := 7, instr := 0 }

/-- The granules of a range of a context's bulk space. -/
def State.granulesOf (s : State) (c addr n : Nat) : List Nat :=
  (granPieces 0 addr n).filterMap fun p => (s.bulkLoc c p.1).map granOf

/-- The first partition that is cut off among those of the granules of a range (R372, R403). -/
def State.rangeCut? (s : State) (c addr n : Nat) : Option Nat :=
  ((s.granulesOf c addr n).map fun gk => gk / rowsPerChan / 4).find? s.cutOff

/-- A granule of the range lies in a partition that is cut off (R372, R403). -/
def State.rangeCut (s : State) (c addr n : Nat) : Bool := (s.rangeCut? c addr n).isSome

/-- A write to the range waits: a held granule has no pool granule left, or the range is locked (R286, R314). -/
def State.rangeWaits (s : State) (c addr n : Nat) : Bool :=
  s.locked c addr n || (s.granulesOf c addr n).any fun gk => s.cowFull gk

/-- Urge the drain of every held granule of a range that a write waits for (R314). -/
def State.urgeAll (s : State) (c addr n : Nat) : State :=
  (s.granulesOf c addr n).foldl (fun t gk => if t.cowFull gk then t.urge gk else t) s

/-- An inbound write is dropped (R403). -/
def State.dropInbound (s : State) (f : Nat) : State := s.modFn f fun h => { h with inboundDrops := satAdd 0xFFFF h.inboundDrops 1 }

/-- Report a status of inbound requests of function `f` at most once per tick (R403). -/
def State.tellOut (s : State) (f c : Nat) : State :=
  if (s.fn f).toldOut == some s.tickNo then s
  else (s.modFn f fun h => { h with toldOut := some s.tickNo }).report 0 11 stOutOfWindow noPart c
def State.tellFenced (s : State) (f c g : Nat) : State :=
  if (s.fn f).toldFence == some s.tickNo then s
  else (s.modFn f fun h => { h with toldFence := some s.tickNo }).report 0 11 stFenced g c

/-- Answer an inbound request: a read with a completion, a write with nothing but its drop (R403). -/
def State.refuseInbound (s : State) (f status : Nat) (write : Bool) : State :=
  if write then s.dropInbound f else s.send (.completion f status [])

/-- HOST_INBOUND_REQUEST: a request to the aperture of function `f`, at byte `off` of it: the first row of R403 that applies
decides; while an FLR is active the request is unsupported (R405). (DEDUCED, unsafe: notes/assumptions/71.md.) -/
def execHostInboundRequest (f : Nat) (write : Bool) (off len : Nat) (bytes : List Byte) (at_ : Nat) (s0 : State) :
    Host.Outcome State Fault Refusal :=
  let s := s0.atClk at_
  let h := s.fn f
  let c := h.aperCtx
  let a := h.aperBase * 2 ^ 28 + off
  let n := if write then bytes.length else len
  if h.flr then .next (if write then s else s.send (.completion f 1 []))
  else if !h.aperValid then .next ((s.refuseInbound f 1 write).tellOut f noCtx)
  else if s.bulkEnd c < a + n then .next ((s.refuseInbound f 1 write).memFault (portAgent c) stOutOfWindow 0 (max a (s.bulkEnd c)))
  else if s.rangeCut c a n then .next ((s.refuseInbound f 2 write).tellFenced f c ((s.rangeCut? c a n).getD noPart))
  else if write then
    if s.rangeWaits c a n then .next (s.urgeAll c a n) else .next (s.writeRange (portAgent c) 0 a bytes).2
  else
    let r := s.readRange (portAgent c) 0 a n
    .next (if r.1 == 0 then r.2.2.send (.completion f 0 r.2.1) else r.2.2.send (.completion f 3 (List.replicate n 0xFF)))

/-! ### Completions of the host's reads (R402, R404) -/

/-- HOST_COMPLETION_RECEIVE: the completion of an outstanding read is written in, or discarded where its tag is quarantined;
an error ends its operation with ST_HOST_COMPLETION (R402, R404, R416). -/
def execHostCompletionReceive (tag status at_ : Nat) (bs : List Byte) (s0 : State) : Host.Outcome State Fault Refusal :=
  let s := s0.atClk at_
  match s.tagOf tag with
  | none => .next s
  | some t =>
    if t.space != 2 then .next s
    else if t.quarantined then .next (s.freeTagId tag).pumpPorts
    else if t.op == 1 then .next (s.loadAnswer t (if status == 0 then 0 else stHostCompletion) bs)
    else
      let s1 := s.freeTagId tag
      if status == 0 then .next (s1.feedCopy t bs).pumpPorts
      else match (s1.clu (18 * t.g + t.n)).runs.find? fun r => r.idx == t.idx with
        | none => .next s1
        | some r => .next (s1.endPort (18 * t.g + t.n) r stHostCompletion)

/-- HOST_COMPLETION_TIMEOUT: cpl_timeout_ms after a read was sent its operation ends with ST_HOST_COMPLETION and its tag is
free (R404, R417, R419). -/
def execHostCompletionTimeout (tag at_ : Nat) (s0 : State) : Host.Outcome State Fault Refusal :=
  let s := s0.atClk at_
  match s.tagOf tag with
  | none => .next s
  | some t =>
    if t.space != 2 || s.clk < t.clk + s.host.cplTimeout * 1100000 then .next s
    else if t.quarantined then .next (s.freeTagId tag).pumpPorts
    else if t.op == 1 then .next (s.loadAnswer t stHostCompletion [])
    else
      let s1 := s.freeTagId tag
      match (s1.clu (18 * t.g + t.n)).runs.find? fun r => r.idx == t.idx with
      | none => .next s1
      | some r => .next (s1.endPort (18 * t.g + t.n) r stHostCompletion)

/-! ### Bus mastering, function-level resets, the link (R404, R405) -/

/-- Function `f` stops mastering (R404): its operations end with ST_HOST_DISABLED, its tags stay quarantined. -/
def State.masterOff (s : State) (f : Nat) : State :=
  let s1 := s.modFn f fun h => { h with bme := false }
  let s2 := (s1.portRuns 2 f).foldl (fun t e => (t.endPort e.1 e.2 stHostDisabled).modFn f fun h =>
    { h with disabledEnds := satAdd 0xFFFF h.disabledEnds 1 }) s1
  let s3 := match s2.loader.busy with
    | some c => if s2.loader.curSrc == 2 && s2.loader.curQp == f && (s2.load c).state == 1 then
        (s2.rejectLoad c 0x2E 0 noIndex stHostDisabled).modFn f fun h => { h with disabledEnds := satAdd 0xFFFF h.disabledEnds 1 }
      else s2
    | none => s2
  s3.dropTags fun t => t.space == 2 && t.qp == f && !t.quarantined

/-- BUS_MASTER_DISABLE: Bus Master Enable of a function is cleared (R404). -/
def execBusMasterDisable (f at_ : Nat) (s0 : State) : Host.Outcome State Fault Refusal := .next ((s0.atClk at_).masterOff f)

/-- BUS_MASTER_ENABLE: Bus Master Enable is set: a held MSI-X message is sent and issue resumes (R404). Configuration
requests to a function in an FLR are put off (R405). -/
def execBusMasterEnable (f at_ : Nat) (s0 : State) : Host.Outcome State Fault Refusal :=
  let s := s0.atClk at_
  let h := s.fn f
  if h.flr then .next s
  else
    let s1 := s.modFn f fun h => { h with bme := true, msixHeld := false }
    .next (if h.msixHeld then s1.send (.msix f) else s1).pumpPorts

/-- One function's part of an FLR (R405): it stops mastering and its configuration returns to reset. -/
def State.flrOf (s : State) (f : Nat) : State :=
  (s.masterOff f).modFn f fun h => { h with flr := true, flrClk := s.clk, msixHeld := false }

/-- An FLR (R405): of the PF it clears VF Enable and acts on every VF. -/
def State.flr (s : State) (f : Nat) : State :=
  if f == 0 then
    let s1 := s.host.functions.foldl State.flrOf s
    { s1 with host := { s1.host with vfEnable := false, numVfs := 0 } }
  else s.flrOf f

/-- FUNCTION_LEVEL_RESET (R405). -/
def execFunctionLevelReset (f at_ : Nat) (s0 : State) : Host.Outcome State Fault Refusal := .next ((s0.atClk at_).flr f)

/-- FLR_COMPLETE: the FLR completes 1 ms after it is received (R405). -/
def execFlrComplete (f at_ : Nat) (s0 : State) : Host.Outcome State Fault Refusal :=
  let s := s0.atClk at_
  if (s.fn f).flr && decide ((s.fn f).flrClk + 1100000 ≤ s.clk) then .next (s.modFn f fun h => { h with flr := false }) else .next s

/-- HOST_LINK_DOWN: a hot reset, link disable or link-down acts as an FLR of the PF and raises ST_LINK_DOWN (R405). -/
def execHostLinkDown (at_ : Nat) (s0 : State) : Host.Outcome State Fault Refusal :=
  let s := ((s0.atClk at_).flr 0).report 0 11 stLinkDown
  .next { s with host := { s.host with up := false, gen := 0, width := 0, flit := false } }

/-- HOST_LINK_UP: the link trains at a rate and width that R400 supports; the host enables its virtual functions
(R400, R417; DESIGN CHOICE, safe: notes/assumptions/31.md). -/
def execHostLinkUp (gen width : Nat) (flit : Bool) (vfs : Nat) (s : State) : Host.Outcome State Fault Refusal :=
  if gen == 0 || 6 < gen || !([1, 2, 4, 8, 16].contains width) || 63 < vfs then .next s
  else
    let s1 := { s with host := { s.host with
      up := true, gen := gen, width := width, flit := flit || gen == 6, vfEnable := vfs != 0, numVfs := vfs } }
    .next (if s.dog.queue.isEmpty then s1 else s1.signal)

end Sys2Proof.Machine
end

