-- ==== Sys2Proof/Machine/StorSide.lean ====
section
/-! DEFINITION. The storage ports: RoCE packets, flow control, queue pairs (spec/19_host_and_service_ports.md R406 to R409,
R418; spec/14_checkpoint.md R320). -/

namespace Sys2Proof.Machine

/-! ### Queue pairs (R409, R418) -/

/-- Every operation on a queue pair ends with ST_STOR_QP_ERROR, its progress word holding the prefix (R409). -/
def State.endQpOps (s : State) (q : Nat) : State :=
  let s1 := (s.portRuns 3 q).foldl (fun t e => t.endPort e.1 e.2 stStorQp) s
  let s2 := match s1.loader.busy with
    | some c => if s1.loader.curSrc == 3 && s1.loader.curQp == q && (s1.load c).state == 1 then
        s1.rejectLoad c 0x2E 0 noIndex stStorQp else s1
    | none => s1
  let drains := (s2.ckpts.filter fun e => 2 ≤ e.2.state && e.2.qp == q).map (·.1)
  (drains.foldl (fun t c => t.ckptEnd c stAborted stStorQp) s2).dropTags fun t => t.space == 3 && t.qp == q

/-- A queue pair enters error (R407, R409). -/
def State.qpFail (s : State) (q status : Nat) : State :=
  let s1 := (s.endQpOps q).modQp q fun x => { x with state := 2, lastStatus := status, timer := none, tried := 0 }
  s1.report 1 12 status noPart (s.qp q).ctx

/-- QP_MODIFY: the modify command readies the selected queue pair, in reset only; mtu 3 is refused (R418). -/
def execQpModify (s : State) : Host.Outcome State Fault Refusal :=
  let q := s.stor.qpSel
  if (s.qp q).state != 0 || (s.qp q).mtu == 3 then .next s
  else .next (s.modQp q fun x => { x with
    state := 1, lastStatus := 0, rate := 800000, lastCnp := none, lastCut := none, cnpSent := none, lastRise := s.clk, tried := 0, timer := none })

/-- QP_RESET: the reset command returns the selected queue pair to reset (R418); operations it still had end as R409 gives. -/
def execQpReset (s : State) : Host.Outcome State Fault Refusal :=
  let q := s.stor.qpSel
  .next ((s.endQpOps q).modQp q fun x => { x with state := 0, lastStatus := 0, timer := none, tried := 0 })

/-- The units of drains on a queue pair that await their acknowledgement are sent again (R315, R409). -/
def State.resendUnits (s : State) (q : Nat) : State :=
  (s.ckpts.filter fun e => e.2.state == 2 && e.2.qp == q).foldl (fun t e =>
    e.2.out.foldl (fun (u : State) n => match e.2.sent.find? fun x => x.1 == n with
      | some x => u.send (.portWrite 3 q (e.2.addr + 4096 + 4096 * n) x.2)
      | none => u) t) s

/-- ACK_TIMEOUT: 4.096 µs × 2^ack_to after its last answer a queue pair sends its open requests again, or enters error once
retry_cnt retries are spent; the timers stop while its port is down (R409). -/
def execAckTimeout (q at_ : Nat) (s0 : State) : Host.Outcome State Fault Refusal :=
  let s := s0.atClk at_
  let x := s.qp q
  match x.timer with
  | none => .next s
  | some t =>
    if x.state != 1 || !(s.sport x.port).up || s.clk * 10 < t * 10 + 45056 * 2 ^ x.ackTo then .next s
    else if x.retryCnt ≤ x.tried then .next (s.qpFail q stStorQp)
    else
      let s1 := s.modQp q fun x => { x with tried := x.tried + 1, retries := satAdd 0xFFFF x.retries 1, timer := some s.clk }
      .next (((s.tags.filter fun t => t.space == 3 && t.qp == q).foldl (fun u t => u.send (.portRead 3 q t.id t.addr t.len)) s1).resendUnits q)

/-! ### Flow control (R408) -/

/-- Clk of 50 µs and of 100 µs. -/
def clk50 : Nat := 55000
def clk100 : Nat := 110000

/-- `d` clk have passed since an event, or it never came. -/
def since (last : Option Nat) (clk d : Nat) : Bool := match last with | none => true | some t => decide (t + d ≤ clk)

/-- CNP_RECEIVE: a CNP counts in cnp_rx and cuts the queue pair's rate to seven-eighths, at most once per 50 µs and never
below 100 Mb/s (R408). -/
def execCnpReceive (q at_ : Nat) (s0 : State) : Host.Outcome State Fault Refusal :=
  let s := s0.atClk at_
  let s1 := s.modSport (s.qp q).port fun p => { p with cnpRx := satAdd 0xFFFF p.cnpRx 1 }
  .next (s1.modQp q fun x =>
    if since x.lastCut s.clk clk50 then { x with rate := max 100 (x.rate * 7 / 8), lastCnp := some s.clk, lastCut := some s.clk }
    else { x with lastCnp := some s.clk })

/-- RATE_RECOVERY: 100 µs with no CNP raise a queue pair's rate by 4 Gb/s, up to line rate (R408). -/
def execRateRecovery (q at_ : Nat) (s0 : State) : Host.Outcome State Fault Refusal :=
  let s := s0.atClk at_
  let x := s.qp q
  if since x.lastCnp s.clk clk100 && decide (x.lastRise + clk100 ≤ s.clk) then
    .next (s.modQp q fun x => { x with rate := min 800000 (x.rate + 4000), lastRise := s.clk })
  else .next s

/-- Drains whose queue pair is on a port. -/
def State.drainsOn (s : State) (p : Nat) : List Nat := (s.ckpts.filter fun e => 2 ≤ e.2.state && (s.qp e.2.qp).port == p).map (·.1)

/-- Send what a port can take again. -/
def State.pumpStor (s : State) (p : Nat) : State := (s.drainsOn p).foldl State.pumpDrain s.pumpPorts

/-- PFC_PAUSE_RECEIVE: a PFC frame pauses or releases a priority and counts in pause_rx; for roce_prio the count of
pfc_stuck_ms starts (R408). -/
def execPfcPauseReceive (p prio : Nat) (pause : Bool) (at_ : Nat) (s0 : State) : Host.Outcome State Fault Refusal :=
  let s := s0.atClk at_
  if 1 < p || 7 < prio then .next s
  else
    let x := s.sport p
    let mask := if pause then x.pausedMask ||| 2 ^ prio else x.pausedMask - (x.pausedMask &&& 2 ^ prio)
    let now := bitOf mask x.prio
    let s1 := s.modSport p fun x => { x with
      pauseRx := satAdd 0xFFFFFFFF x.pauseRx 1, pausedMask := mask, paused := now,
      pausedSince := if now && !x.paused then s.clk else x.pausedSince, stuckTold := x.stuckTold && now }
    .next (if now then s1 else s1.pumpStor p)

/-- PFC_STUCK: roce_prio paused for pfc_stuck_ms without a break raises ST_STOR_PFC_STUCK once (R408). -/
def execPfcStuck (p at_ : Nat) (s0 : State) : Host.Outcome State Fault Refusal :=
  let s := s0.atClk at_
  let x := s.sport p
  if !x.paused || x.stuckTold || s.clk < x.pausedSince + x.stuckMs * 1100000 then .next s
  else .next ((s.modSport p fun x => { x with stuckTold := true }).report 0 12 stPfcStuck noPart noCtx p)

/-! ### Packets (R406, R407) -/

/-- The region that a key and a range name (R407, R418). -/
def State.regionFor (s : State) (rkey addr n : Nat) (write : Bool) : Option Mr :=
  (s.stor.mrs.map (·.2)).find? fun m => m.valid && m.rkey == rkey && (if write then m.wr else m.rd) &&
    decide (m.base * 64 ≤ addr) && decide (addr + n ≤ (m.base + m.len) * 64)

/-- A packet marked CE: a CNP goes to its source, at most once per 50 µs per queue pair (R408). -/
def State.sendCnp (s : State) (p q : Nat) : State :=
  if since (s.qp q).cnpSent s.clk clk50 then
    ((s.modQp q fun x => { x with cnpSent := some s.clk }).modSport p fun x => { x with cnpTx := satAdd 0xFFFF x.cnpTx 1 }).send (.roce q 5 [])
  else s

/-- An RDMA WRITE that arrives (R407; in a fenced partition, R372). -/
def State.rdmaWrite (s : State) (q addr rkey : Nat) (bytes : List Byte) : State :=
  match s.regionFor rkey addr bytes.length true with
  | none => s.send (.roce q 3 [])
  | some m =>
    if s.bulkEnd m.ctx < addr + bytes.length then (s.memFault (portAgent m.ctx) stOutOfWindow 0 addr).send (.roce q 3 [])
    else if s.rangeCut m.ctx addr bytes.length then (s.report 1 12 stFenced noPart m.ctx).send (.roce q 4 [])
    else if s.rangeWaits m.ctx addr bytes.length then s.urgeAll m.ctx addr bytes.length
    else ((s.writeRange (portAgent m.ctx) 0 addr bytes).2).send (.roce q 0 [])

/-- An RDMA READ that arrives: the whole range is tested before any data is sent (R407). -/
def State.rdmaRead (s : State) (q addr rkey len : Nat) : State :=
  match s.regionFor rkey addr len false with
  | none => s.send (.roce q 3 [])
  | some m =>
    if s.bulkEnd m.ctx < addr + len then (s.memFault (portAgent m.ctx) stOutOfWindow 0 addr).send (.roce q 3 [])
    else if s.rangeCut m.ctx addr len then (s.memFault (portAgent m.ctx) stFenced 0 addr).send (.roce q 4 [])
    else
      let r := s.readRange (portAgent m.ctx) 0 addr len
      if r.1 == 0 then r.2.2.send (.roce q 1 r.2.1) else r.2.2.send (.roce q 4 [])

/-- The data of a read of ours (R407): to the load, or to its copy. -/
def State.roceData (s : State) (q tag : Nat) (bs : List Byte) : State :=
  match s.tagOf tag with
  | none => s
  | some t =>
    if t.space != 3 || t.qp != q then s
    else
      let s1 := s.qpHeard q
      if t.op == 1 then s1.loadAnswer t 0 bs
      else if t.quarantined then (s1.freeTagId tag).pumpPorts
      else ((s1.freeTagId tag).feedCopy t bs).pumpPorts

/-- STOR_PACKET_RECEIVE: a packet for a queue pair of a storage port is served, answered with a NAK, or counted in rx_discard
where it is of another protocol (R406, R407). A queue pair that is not ready takes nothing. -/
def execStorPacketReceive (p q : Nat) (pkt : Roce) (ce : Bool) (at_ : Nat) (s0 : State) : Host.Outcome State Fault Refusal :=
  let s := s0.atClk at_
  match pkt with
  | .other => .next (s.modSport p fun x => { x with rxDiscard := satAdd 0xFFFFFFFF x.rxDiscard 1 })
  | _ =>
    if (s.qp q).state != 1 || (s.qp q).port != p then .next s
    else
      let s1 := if ce then s.sendCnp p q else s
      match pkt with
      | .write addr rkey bytes => .next (s1.rdmaWrite q addr rkey bytes)
      | .read addr rkey len => .next (s1.rdmaRead q addr rkey len)
      | .unsupported => .next ((s1.send (.roce q 2 [])).qpFail q stStorQp)
      | .response tag bs => .next (s1.roceData q tag bs)
      | .ack => .next (s1.qpHeard q)
      | .nak => .next (s1.qpFail q stStorQp)
      | .other => .next s1

/-! ### The port (R320, R409) -/

/-- STORAGE_PORT_DOWN: the timers of the port's queue pairs stop and their operations wait, a load through it ends, drains
pause; ST_LINK_DOWN is reported (R242, R320, R409). -/
def execStoragePortDown (p at_ : Nat) (s0 : State) : Host.Outcome State Fault Refusal :=
  let s := s0.atClk at_
  if 1 < p || !(s.sport p).up then .next s
  else
    let s1 := s.modSport p fun x => { x with up := false, downSince := some s.clk }
    let s2 := { s1 with stor := { s1.stor with qps := s1.stor.qps.map fun (e : Nat × Qp) =>
      (e.1, if e.2.port == p then { e.2 with timer := none } else e.2) } }
    let s3 := match s2.loader.busy with
      | some c => if s2.loader.curSrc == 3 && (s2.qp s2.loader.curQp).port == p && (s2.load c).state == 1 then
          s2.rejectLoad c 0x2E 0 noIndex stLinkDown else s2
      | none => s2
    .next (((s3.drainsOn p).foldl (fun t c => t.modCkpt c fun k => { k with paused := true }) s3).report 0 12 stLinkDown noPart noCtx p)

/-- STORAGE_PORT_UP: the port is back: timers run again and drains go on from their progress words, units not accepted being
sent again (R320, R409). -/
def execStoragePortUp (p at_ : Nat) (s0 : State) : Host.Outcome State Fault Refusal :=
  let s := s0.atClk at_
  if 1 < p || (s.sport p).up then .next s
  else
    let s1 := s.modSport p fun x => { x with up := true, downSince := none }
    let s2 := { s1 with stor := { s1.stor with qps := s1.stor.qps.map fun (e : Nat × Qp) =>
      (e.1, if e.2.port == p && s1.tags.any (fun t => t.space == 3 && t.qp == e.1) then { e.2 with timer := some s.clk } else e.2) } }
    let s3 := (s2.drainsOn p).foldl (fun t c => t.modCkpt c fun k => { k with paused := false, out := [] }) s2
    .next (s3.pumpStor p)

/-- STOR_PORT_DOWN_TIMEOUT: a port down for 10 s puts its queue pairs in error with ST_LINK_DOWN (R409). -/
def execStorPortDownTimeout (p at_ : Nat) (s0 : State) : Host.Outcome State Fault Refusal :=
  let s := s0.atClk at_
  match (s.sport p).downSince with
  | none => .next s
  | some t =>
    if s.clk < t + 10 * 1100000000 then .next s
    else
      let qs := (s.stor.qps.filter fun e => e.2.port == p && e.2.state == 1).map (·.1)
      .next (qs.foldl (fun u q => u.qpFail q stLinkDown) (s.modSport p fun x => { x with downSince := none }))

end Sys2Proof.Machine
end

