-- ==== Sys2Proof/Machine/Stream.lean ====
section
/-! DEFINITION. Record streams: dispatch, start, retirement and the step boundary (spec/07_tile_instructions.md R158 to
R173; spec/09_sync_objects_and_conservation.md R207, R213, R215, R216; spec/13_step_ledger_and_replay.md R296, R297). -/

namespace Sys2Proof.Machine

/-- Records of the context may still issue (R115, R217). -/
def State.issues (s : State) (c : Nat) : Bool := !(s.run c).stopped

/-- Records of a unit that wait in its queue (R159). -/
def Clu.queued (cl : Clu) (u : Nat) : List Queued := cl.queue.filter fun q => q.unit == u

/-- RECORD_DISPATCH: the next record of a cluster's stream goes to its unit's queue of 4, in stream order; a mark is held
there and goes by its own rule (R159, R161). -/
def execRecordDispatch (g n at_ : Nat) (s0 : State) : Host.Outcome State Fault Refusal :=
  let s := s0.atClk at_
  match s.mayIssue g with
  | none => .next s
  | some c =>
    let k := 18 * g + n
    let cl := s.clu k
    if !s.issues c || !cl.segOpen || cl.ended then .next s
    else
      let x := s.fetchRec (agentOf c g n 4 0) (s.partIndex c g) n cl.pos
      match x.2.1 with
      | none => .next x.2.2
      | some (w, r) =>
        let u := recUnit r
        if recKind r == 2 || 4 ≤ (cl.queued u).length then .next x.2.2
        else .next (x.2.2.modClu k fun y => { y with
          pos := y.pos + 1,
          queue := y.queue ++ [{ idx := cl.pos, unit := u, rec_ := r, instr := w.instr, rep := w.rep, disp := s.clk }] })

/-- The whole unit of `u` has issued what it started: it may start its next record (R159). -/
def Clu.unitFree (cl : Clu) (u : Nat) : Bool := cl.runs.all fun r => r.unit != u || r.issued

/-- A Retriever descriptor whose fetch into a retained input bank is skipped in replay (R297). -/
def State.skipsInput (s : State) (c g n : Nat) (r : Run) : Bool :=
  let d : RetD := ⟨r.rec_⟩
  let l := s.led c
  let j := (s.run c).step
  let b := s.inBank c j
  let a := s.retAddr c g n r.rep d.dstSpace d.dst
  l.state == 6 && decide (j ≤ l.replayTo) && d.op == 0 && decide (2 ≤ d.srcSpace) && d.dstSpace == 0 &&
  decide (b.1 ≤ a) && decide (a < b.1 + b.2) && l.held.contains j

/-- REPLAY_INPUT_SKIP: the descriptor completes with ST_OK and its progress word at full length (R297). -/
def State.skipInput (s : State) (c g n : Nat) (r : Run) : State :=
  let d : RetD := ⟨r.rec_⟩
  (s.writeProg (retAgent c g n r) d.progCm d.units).modRunOf (18 * g + n) r.idx fun x => { x with
    begun := true, total := d.units, prog := d.units, issued := true, finished := true }

/-- A record that took its tokens begins its work, by its kind. -/
def State.beginRecord (s : State) (c g n : Nat) (r : Run) : State :=
  let k := 18 * g + n
  match recKind r.rec_ with
  | 1 => if r.unit == 3 then s.runVector c g n r else s
  | 3 => if s.skipsInput c g n r then s.skipInput c g n r else s
  | 4 =>
    let op := (⟨r.rec_⟩ : CobP).op
    if !(s.run c).tail then (s.startCobbler c g n r).logPass c g n r.idx
    else if op == 0 then s.endRun k r.idx stOk
    else
      let r2 := if op == 1 then { r with rec_ := r.rec_ + at' 1 9 } else r
      (s.modRunOf k r.idx fun _ => r2).startCobbler c g n r2
  | 5 => s.startPhase c g n r
  | _ =>
    let s1 := s.startSends c g n r.idx r.rec_
    let none_ := !s1.sync.sends.any fun e => e.src == g && e.n == n && e.idx == r.idx
    s1.modRunOf k r.idx fun x => { x with begun := true, issued := true, finished := none_, taken := if none_ then x.taken else 0 }

/-- RECORD_WAIT_MET: the record at the head of a unit's queue starts once its waits are met, taking its tokens in one action
(R159, R172, R173); a broken object is frozen and its wait never met (R217, R222). -/
def execRecordWaitMet (g n u at_ : Nat) (s0 : State) : Host.Outcome State Fault Refusal :=
  let s := s0.atClk at_
  match s.mayIssue g with
  | none => .next s
  | some c =>
    let k := 18 * g + n
    match (s.clu k).queued u with
    | [] => .next s
    | q :: _ =>
      let needs := waitNeeds q.rec_
      let r : Run := {
        idx := q.idx, unit := u, rec_ := q.rec_, instr := q.instr, rep := q.rep, disp := q.disp,
        taken := (needs.map (·.2)).foldl (· + ·) 0, mask := (s.arith c).stopMask }
      if !s.issues c || !(s.clu k).unitFree u then .next s
      else match s.brokenWait g needs with
        | some o => .next (s.breakObj c g o)
        | none =>
          if !s.waitsMet g needs || (u == 3 && !s.stageFree c g n r) then .next s
          else .next (((s.takeTokens g needs).modClu k fun y => { y with
            queue := y.queue.filter fun x => x.idx != q.idx, runs := y.runs ++ [r] }).beginRecord c g n r)

/-- RECORD_RETIRE: a finished record leaves. With ST_OK the tokens it took are given to its signalled objects; after a
failure they are stranded (R172, R207, R215). -/
def execRecordRetire (g n idx at_ : Nat) (s0 : State) : Host.Outcome State Fault Refusal :=
  let s := s0.atClk at_
  let k := 18 * g + n
  match s.residentOf g, (s.clu k).runs.find? fun r => r.idx == idx && r.finished with
  | some c, some r =>
    let s1 := (s.modClu k fun cl => { cl with runs := cl.runs.filter fun x => x.idx != idx }).handDown g r.taken
    let s2 := if r.status == 0 then
        if recKind r.rec_ == 6 then s1 else (recSigs r.rec_).foldl (fun t e => t.give c g e.1 e.2) s1
      else s1.strand g r.taken
    let s3 := s2.progress g
    if recKind r.rec_ != 5 then .next s3
    else
      let grp := (⟨r.rec_⟩ : PhaseR).group
      let s4 := s3.modPack c fun p => { p with
        phases := if r.status == 0 then wrapAdd 32 p.phases 1 else p.phases, lastStatus := r.status, lastGroup := grp }
      .next (if r.status == 0 then s4.planHear c grp ((r.aux[0]?).getD 0) else s4)
  | _, _ => .next s

/-- STEP_END_MARK: the final mark of a cluster's stream ends the cluster's part of the step once the segment before it has
finished (R161). -/
def execStepEndMark (g n : Nat) (s : State) : Host.Outcome State Fault Refusal :=
  match s.mayIssue g with
  | none => .next s
  | some c =>
    let cl := s.clu (18 * g + n)
    match s.nextRec c g n with
    | some (_, r) =>
      if recKind r == 2 && markEnd r && cl.segOpen && !cl.ended && s.segDone c g n then
        .next (s.modClu (18 * g + n) fun y => { y with ended := true, segOpen := false })
      else .next s
    | none => .next s

/-- Every cluster of the context has ended its part of the step, no record is in flight, and no send is out (R216). -/
def State.stepOver (s : State) (c : Nat) : Bool :=
  (s.run c).inStep && !(s.run c).broken && s.residentAll c && s.noRecords c &&
  (s.partsOf c).all fun g => !s.cutOff g && ((s.part g).sync.out.nat == 0) &&
    (List.range 18).all fun n => (s.clu (18 * g + n)).ended

/-- The barrier of a step is complete (R47, R216, R282, R296): the ledger retains the step and votes where it is due; the
barrier of a tail replay ends the replay and counts no step. -/
def State.barrier (s : State) (c : Nat) : State :=
  let j := (s.run c).step
  let s1 := ((s.modRun c fun r => { r with boundary := true, inStep := false, tail := false }).parkAtBarrier c).planBarrier c true
  if (s.run c).tail then s1.modLed c fun l => { l with needTail := false }
  else (s1.ledgerBarrier c j).modRun c fun r => { r with step := j + 1 }

/-- STEP_BOUNDARY_CENSUS: the context's last record has retired with out zero; the census is taken, and the step boundary
barrier completes 289 clk later when it passes (R216, R217). -/
def execStepBoundaryCensus (c at_ : Nat) (s0 : State) : Host.Outcome State Fault Refusal :=
  let s := s0.atClk at_
  if !s.stepOver c then .next s
  else
    let r := s.takeCensus c true
    let s1 := r.2.atClk (s.clk + 289)
    .next (if r.1 then s1.barrier c else s1)

end Sys2Proof.Machine
end

