-- ==== Sys2Proof/Machine/TrafGenOps.lean ====
section
/-! DEFINITION. The traffic generator and checker of a bulk channel (spec/08_memory.md R202 to R205). -/

namespace Sys2Proof.Machine

/-- One bit of PRBS31, x^31 + x^28 + 1 (R203): the bit and the register after it. -/
def prbsBit (r : Nat) : Nat × Nat :=
  let b := ((r >>> 30) ^^^ (r >>> 27)) % 2
  (b, (r * 2 + b) % 2 ^ 31)

/-- The next `n` bits of PRBS31, bit 0 first. -/
def prbsBits : Nat → Nat → Nat × Nat
  | 0, r => (0, r)
  | n + 1, r =>
    let b := prbsBit r
    let t := prbsBits n b.2
    (b.1 + 2 * t.1, t.2)

/-- Word `w` of the granule at row `row` under patterns 1 to 4 (R203). -/
def tgWord (pattern row w : Nat) : Nat :=
  match pattern with
  | 1 => ((row <<< 6) ||| w) % 2 ^ 25
  | 2 => 1 <<< ((row * 64 + w) % 32)
  | 3 => if (row + w) % 2 == 0 then 0x55555555 else 0xAAAAAAAA
  | _ => if (row + w) % 2 == 0 then 0xAAAAAAAA else 0x55555555

/-- The 256 bytes of a granule, and the PRBS register after them. -/
def tgGranule (pattern row reg : Nat) : List Byte × Nat :=
  if pattern == 0 then
    let r := prbsBits 2048 reg
    (leBytes 256 r.1, r.2)
  else ((List.range 64).flatMap fun w => leBytes 4 (tgWord pattern row w), reg)

/-- One pass that writes the pattern over the rows of a run (R202). -/
def State.tgWrite (s : State) (ch : Nat) (t : TrafGen) (reg : Nat) : State × Nat :=
  (List.range (t.countK * 1024)).foldl (fun (acc : State × Nat) i =>
    let row := t.baseK * 1024 + i
    let g := tgGranule t.pattern row acc.2
    (acc.1.writeGran (bulkKey ch (row * 256)) g.1, g.2)) (s, reg)

/-- A read-scan of the written granules of a run (R202): ECC only. -/
def State.tgScan (s : State) (ch : Nat) (t : TrafGen) : State :=
  let lo := rowGran ch (t.baseK * 1024)
  let hi := rowGran ch ((t.baseK + t.countK) * 1024)
  (s.gran.filter fun e => decide (lo ≤ e.1) && decide (e.1 < hi) && s.granState e.1 == 2).foldl
    (fun x e => x.scanWords e.1 0 32) s

/-- Granules of a run whose row is a multiple of 1,024 (R203). -/
def tgInjected (t : TrafGen) : Nat := t.countK

/-- One pass of a run (R202, R203). -/
def State.tgPass (s : State) (ch reg : Nat) : State × Nat :=
  let t := (s.chan ch).tg
  if t.mode == 1 then (s.tgScan ch t, reg)
  else
    let r := s.tgWrite ch t reg
    if t.mode == 0 && t.inject then (r.1.countCe (rowGran ch 0) (tgInjected t), r.2) else r

/-- Compare failures: word, row and expected XOR observed of each (R202). -/
def State.tgFails (s : State) (ch : Nat) (fails : List (Nat × Nat × Nat)) : State :=
  fails.foldl (fun x f =>
    (x.modChan ch fun c => { c with tg :=
      let t := { c.tg with errCount := satAdd 0xFFFFFFFF c.tg.errCount 1, mismatch := true }
      if t.errValid then t else { t with errValid := true, errRow := f.1, errWord := f.2.1, errXor := f.2.2 } }).report
      0 3 stTgMismatch noPart noCtx ch) s

/-- A start is refused (R202): reserved mode or pattern, a range past the channel, a run in progress, or a
destructive run over rows of a window. (DEDUCED, unsafe: notes/assumptions/39.md.) -/
def State.tgRefused (s : State) (ch : Nat) : Bool :=
  let t := (s.chan ch).tg
  t.busy || t.mode == 3 || 4 < t.pattern || t.countK == 0 || 384 < t.baseK + t.countK ||
  (t.mode != 1 && s.memCtxs.any fun e => match s.window e.1 with
    | some w => unitsMeet t.baseK t.countK w.1 w.2 && (s.chList e.1).contains ch
    | none => false)

/-- TG_START: a start runs or refuses a run over a channel's range (R202 to R204). The run's passes are made, at
least one; its compare failures come with it, and TG_RUN_END ends it. -/
def execTgStart (ch : Nat) (fails : List (Nat × Nat × Nat)) (s : State) : Host.Outcome State Fault Refusal :=
  if s.tgRefused ch then .next (s.modChan ch fun c => { c with tg := { c.tg with lastStatus := stTgBusy } })
  else
    let t := (s.chan ch).tg
    let s1 := s.modChan ch fun c => { c with tg := { c.tg with
      busy := true, errCount := 0, errValid := false, passesDone := 0, stopping := false } }
    let n := max 1 t.passes
    let r := (List.range n).foldl (fun (acc : State × Nat) _ => acc.1.tgPass ch acc.2) (s1, t.seed)
    let s2 := r.1.modChan ch fun c => { c with tg := { c.tg with passesDone := min 0xFFFF n } }
    .next (if t.mode == 0 then s2.tgFails ch fails else s2)

/-- TG_STOP: the stop command ends a run at the end of the current granule (R204). -/
def execTgStop (ch : Nat) (s : State) : Host.Outcome State Fault Refusal :=
  .next (s.modChan ch fun c => { c with tg := { c.tg with stopping := c.tg.busy } })

/-- TG_RUN_END: a run ends, and the rows of a destructive one are set unwritten (R202). -/
def execTgRunEnd (ch : Nat) (fails : List (Nat × Nat × Nat)) (s : State) : Host.Outcome State Fault Refusal :=
  let t := (s.chan ch).tg
  if !t.busy then .next s
  else
    let s1 := if t.mode == 0 then s.tgFails ch fails else s
    let s2 := s1.modChan ch fun c => { c with tg := { c.tg with
      busy := false, done := true, stopping := false,
      lastStatus := if c.tg.errCount == 0 then stOk else stTgMismatch } }
    .next (if t.mode != 1 then s2.clearRows [ch] t.baseK t.countK else s2)

end Sys2Proof.Machine
end

