-- ==== Sys2Proof/Machine/Regs.lean ====
section
/-! DEFINITION. The control space as it reads (spec/00_scope.md R6 to R15 and the register tables of every chapter). -/

namespace Sys2Proof.Machine

/-- Instance and word offset of an address inside a repeated set: base, stride, count (R10). -/
def inst (off base stride count : Nat) : Option (Nat × Nat) :=
  if base ≤ off && off < base + stride * count then some ((off - base) / stride, (off - base) % stride) else none

/-- A register word from its fields: high bit, low bit, value. -/
def regWord (fs : List (Nat × Nat × Nat)) : Nat := fs.foldl (fun a f => a + at' (f.2.2 % 2 ^ (f.1 + 1 - f.2.1)) f.2.1) 0

/-- Word `i` of a paired 32-bit value: V, then its complement (R14). -/
def pair32 (p : Paired 32) (i : Nat) : Nat := if i == 0 then p.v.toNat else p.n.toNat

/-- Word `i` of a paired 64-bit value: V low, V high, complement low, complement high (R14). -/
def pair64 (p : Paired 64) (i : Nat) : Nat :=
  match i with
  | 0 => p.v.toNat % 2 ^ 32
  | 1 => p.v.toNat / 2 ^ 32
  | 2 => p.n.toNat % 2 ^ 32
  | _ => p.n.toNat / 2 ^ 32

/-- A paired 16-bit count shown in a 32-bit word and the complement of that word (R221). -/
def pair16 (p : Paired 16) (i : Nat) : Nat := if i == 0 then p.v.toNat else at' 0xFFFF 16 + p.n.toNat

/-- Word `i` of a 256-bit number whose least significant word comes first. -/
def wordOf (x i : Nat) : Nat := x / 2 ^ (32 * i) % 2 ^ 32

/-! ### GLB (R13, R35, R278, R441) -/

def State.readGlb (s : State) (off : Nat) : Nat :=
  match off with
  | 0x00 => glbId
  | 0x04 => s.glb.cfgGen
  | 0x40 => regWord [(1, 1, b2n s.glb.detRefused), (0, 0, b2n s.glb.deterministic)]
  | 0x48 => s.glb.ctxSel
  | _ =>
    match inst off 0x10 4 8, inst off 0x60 4 8, inst off 0x80 4 3, inst off 0x100 0x20 16 with
    | some (i, _), _, _, _ => wordOf s.glb.cfgDigest i
    | _, some (i, _), _, _ => if (s.load s.glb.ctxSel).state == 4 then wordOf (s.load s.glb.ctxSel).ctxDigest i else 0
    | _, _, some (i, _), _ => (s.glb.sem[i]?).getD 0
    | _, _, _, some (i, w) =>
      let m := (s.glb.maps[i]?).getD {}
      match w / 8 with
      | 0 => pair32 m.lo (w / 4)
      | 1 => pair32 m.mid (w / 4 - 2)
      | 2 => pair32 m.hi (w / 4 - 4)
      | _ => 0
    | _, _, _, _ => 0

/-! ### TICK (R64) -/

def State.readTick (s : State) (off : Nat) : Nat :=
  let t := s.tick
  let c := t.ctrlNext.getD (t.role, t.backupPort, t.upstreamPort)
  match off with
  | 0x00 => t.periodNext.getD t.period
  | 0x04 => regWord [(23, 16, t.holdoverMax), (12, 12, b2n c.1), (11, 6, c.2.1), (5, 0, c.2.2)]
  | 0x08 => regWord [(31, 31, b2n t.aligned), (30, 30, b2n t.holdover), (29, 29, b2n t.periodRefused), (28, 28, b2n t.digestDiffers),
      (27, 24, t.hopCount), (23, 16, t.holdoverTicks), (7, 0, unsigned 8 t.lastError)]
  | 0x0C => t.drop
  | 0x30 => t.slipMax
  | 0x40 => t.startCtx
  | _ =>
    match inst off 0x10 4 4, inst off 0x48 4 4, inst off 0x100 4 64, inst off 0x1000 4 1024 with
    | some (i, _), _, _, _ => pair64 t.number i
    | _, some (i, _), _, _ => pair64 t.startAt i
    | _, _, some (g, _), _ => let m := (s.part g).mon; regWord [(31, 24, min 255 m.slip), (23, 0, m.overruns)]
    | _, _, _, some (c, _) => (s.start c).state
    | _, _, _, _ => 0

/-! ### BOOT and UPD (R398, R443) -/

/-- Whole seconds left on the trial timer. (DEDUCED, unsafe: notes/assumptions/76.md.) -/
def State.trialLeft (s : State) : Nat := match s.upd.trialEnd with | some t => min 0xFFFF ((t - s.clk) / 1100000000) | none => 0

/-- BOOT_READY (R398). -/
def State.bootReady (s : State) : Nat :=
  regWord [(31, 31, b2n s.boot.ready), (22, 16, (s.parts.filter fun e => e.2.ctl.state == 4).length), (7, 0, s.boot.fail)]

def State.readBoot (s : State) (off : Nat) : Nat :=
  let b := s.boot
  let u := s.upd
  match off with
  | 0x00 => regWord [(31, 28, b.state), (27, 24, b.haltReason), (23, 23, b.slot), (22, 22, b2n b.trial), (21, 21, b2n b.fellBack),
      (20, 20, b2n b.fullSearch), (19, 18, b.bootSel), (15, 0, b.bringupMs)]
  | 0x04 => s.bootReady
  | 0x08 => regWord [(25, 16, b.wakeNext.getD b.wakeCap), (9, 0, b.stagger)]
  | 0x0C => regWord [(27, 22, popcount 40 s.fuses.lanes.nat), (21, 16, s.fuses.welt.foldl (fun a p => a + popcount 2 p.nat) 0),
      (15, 0, min 0xFFFF s.fuses.rows.length)]
  | 0x1000 => regWord [(25, 25, b2n u.live)]
  | 0x1004 => regWord [(31, 28, u.state), (27, 27, u.target), (26, 25, u.owner), (23, 16, u.lastStatus), (15, 0, s.trialLeft)]
  | 0x1008 => (List.range 7).foldl (fun a i => a + at' ((u.parts[i]?).getD 0) (2 * i)) 0
  | 0x100C => regWord [(19, 16, b.trialBoots), (15, 0, u.trialS)]
  | _ =>
    match inst off 0x10 0x10 2, inst off 0x1010 4 2 with
    | some (i, w), _ =>
      let x := (b.slots[i]?).getD {}
      if w == 0 then regWord [(31, 29, x.stage), (23, 16, x.check)] else if w == 4 then x.gen else 0
    | _, some (i, _) => pair32 u.progress i
    | _, _ => 0

/-! ### SHEEPDOG (R383) -/

/-- SHEEPDOG_LEASE_STATUS (R383). -/
def State.leaseStatus (s : State) : Nat :=
  let d := s.dog
  regWord [(31, 30, d.leaseState), (27, 16, if d.leaseState == 1 then (d.leaseEnd - s.clk) / 1100000 else 0), (15, 8, d.lapses), (7, 0, d.grantsRefused)]

/-- The oldest entry that no report datagram has carried, as its 128 bits; all zero when there is none. -/
def Dog.shown (d : Dog) : Nat := match d.queue.find? fun e => !e.sent with | some e => e.bits | none => 0

def State.readDog (s : State) (off : Nat) : Nat :=
  match off with
  | 0x00 => regWord [(31, 31, b2n s.drivesFaultN), (24, 16, s.dog.queue.length), (15, 0, s.dog.lost)]
  | 0x10 => pair32 s.dog.lease 0
  | 0x14 => pair32 s.dog.lease 1
  | 0x18 => s.leaseStatus
  | _ =>
    match inst off 0x100 0x10 64, inst off 0x1000 4 4 with
    | some (g, w), _ =>
      let m := (s.part g).mon
      match w with
      | 0 => regWord [(25, 24, m.hangAction), (23, 0, m.hangTicks)]
      | 4 => m.quiet
      | 8 => regWord [(31, 16, m.hangs)]
      | _ => 0
    | _, some (i, _) => wordOf s.dog.shown i
    | _, _ => 0

/-! ### PART and the loader (R241, R382) -/

/-- A command of PART_CMD runs: a fence it raised, or a reset (R382). -/
def State.partBusy (s : State) : Bool :=
  s.parts.any fun e => e.2.ctl.state == 3 || (e.2.ctl.state == 1 && (e.2.ctl.cause == 0 || e.2.ctl.resetAfter.isSome))

def State.readPart (s : State) (off : Nat) : Nat :=
  let r := s.partRegs
  let l := s.loader
  match off with
  | 0x00 => regWord [(27, 27, b2n r.fullSearch), (15, 6, r.ctx), (5, 0, r.gpart)]
  | 0x04 => regWord [(31, 31, b2n s.partBusy), (30, 30, b2n r.cmdRefused), (18, 16, r.refuseReason), (7, 0, r.lastStatus)]
  | 0x08 => r.drainLimit
  | 0x8000 => regWord [(28, 27, l.src), (21, 10, l.qp), (9, 0, l.ctx)]
  | 0x8018 => l.len
  | 0x801C => regWord [(30, 16, l.rankCount), (13, 0, l.rankBase)]
  | _ =>
    match inst off 0x100 0x10 64, inst off 0x2000 0x10 1024, inst off 0x8008 4 4, inst off 0x9000 0x10 1024 with
    | some (g, w), _, _, _ =>
      let p := (s.part g).ctl
      match w with
      | 0 => regWord [(31, 29, p.state), (28, 25, p.cause), (24, 23, p.resetResult), (10, 10, b2n p.residentValid), (9, 0, p.resident)]
      | 4 => regWord [(31, 31, b2n p.nextValid), (9, 0, p.next)]
      | 8 => regWord [(31, 16, p.fences), (15, 0, p.resets)]
      | _ => regWord [(31, 16, p.quarantined), (15, 0, p.lastResetMs)]
    | _, some (c, w), _, _ => pair64 (s.run c).assign (w / 4)
    | _, _, some (i, _), _ => pair64 l.addr i
    | _, _, _, some (c, w) =>
      let x := s.load c
      match w with
      | 0 => regWord [(31, 29, x.state), (23, 16, x.status), (15, 8, x.reason), (7, 0, x.section_)]
      | 4 => x.index
      | 8 => regWord [(31, 16, x.loads), (7, 0, x.fetchStatus)]
      | _ => x.digest32
    | _, _, _, _ => 0

/-! ### LEDGER (R307) and CKPT (R319) -/

def State.readLedger (s : State) (off : Nat) : Nat :=
  let r := s.ledRegs
  match off with
  | 0x00 => r.sel
  | 0x04 => r.ctx
  | 0x08 => regWord [(31, 31, b2n (s.leds.any fun e => e.2.state == 4)), (30, 30, b2n r.cmdRefused), (7, 0, r.lastStatus)]
  | 0x10 => pair32 r.rbEpoch 0
  | 0x14 => pair32 r.rbEpoch 1
  | _ =>
    match inst off 0x40 4 16, inst off 0x1000 0x20 1024, inst off 0x9000 8 1024, inst off 0xB000 0x10 1024 with
    | some (i, _), _, _, _ => (s.led r.sel).word i
    | _, some (c, w), _, _ =>
      let l := s.led c
      match w / 4 with
      | 0 => regWord [(31, 29, l.state), (28, 28, b2n l.mirrorValid), (27, 27, b2n l.wardValid), (26, 26, b2n l.dirty), (23, 16, l.lastStatus),
          (15, 12, l.haltReason), (11, 7, l.held.length)]
      | 1 => regWord [(31, 24, l.strikes), (23, 16, l.lastVerdict), (15, 0, l.disagree)]
      | 6 => pair32 l.updated 0
      | 7 => pair32 l.updated 1
      | i => pair64 l.confirmed (i - 2)
    | _, _, some (c, w), _ => pair32 (s.led c).xfer (w / 4)
    | _, _, _, some (c, w) =>
      let l := s.led c
      match w with
      | 0 => l.confirmations
      | 4 => regWord [(31, 16, l.rollbacks), (15, 0, l.halts)]
      | 8 => l.replayed
      | _ => regWord [(31, 16, l.ckptRestores), (15, 0, l.seeds)]
    | _, _, _, _ => 0

def State.readCkpt (s : State) (off : Nat) : Nat :=
  let r := s.ckptRegs
  let k := s.ckpt r.sel
  match off with
  | 0x00 => r.sel
  | 0x04 => regWord [(28, 28, r.restoreSlot), (9, 0, r.ctx)]
  | 0x08 => regWord [(31, 31, b2n (s.ckpts.any fun e => e.2.state == 4)), (30, 30, b2n r.cmdRefused), (7, 0, r.lastStatus)]
  | 0x40 => regWord [(31, 16, k.everyConf), (15, 0, k.timerS)]
  | 0x44 => regWord [(31, 20, k.qp), (19, 12, k.staggerSlots), (11, 0, k.staggerMs)]
  | 0x48 => k.cowRow
  | 0x4C => k.cowRows
  | 0x50 => k.rate
  | 0x54 => k.rkey
  | 0x58 => wordOf k.slotA 0
  | 0x5C => wordOf k.slotA 1
  | 0x60 => wordOf k.slotB 0
  | 0x64 => wordOf k.slotB 1
  | 0x68 => k.slotUnits
  | _ =>
    match inst off 0x1000 0x20 1024 with
    | some (c, w) =>
      let k := s.ckpt c
      match w / 4 with
      | 0 => regWord [(31, 29, k.state), (28, 28, b2n k.due), (27, 27, k.lastSlot), (26, 26, b2n k.lastValid), (23, 16, k.lastStatus),
          (15, 8, k.portStatus), (7, 0, k.skipped)]
      | 1 => k.seq
      | 6 => pair32 k.progress 0
      | 7 => pair32 k.progress 1
      | i => pair64 k.lastStep (i - 2)
    | none => 0

/-! ### SYNC (R221) and PACK (R279) -/

def State.readSync (s : State) (off : Nat) : Nat :=
  let y := s.sync
  match off with
  | 0x00 => y.selPart
  | 0x04 => y.cmdCtx
  | 0x08 => regWord [(31, 31, b2n (decide (s.clk < y.busyTo))), (30, 30, b2n y.cmdRefused), (15, 8, y.lastStatus)]
  | _ =>
    match inst off 0x100 0x20 64, inst off 0x4000 0x10 1024, inst off 0x8000 8 2048 with
    | some (g, w), _, _ =>
      let p := (s.part g).sync
      match w / 8 with
      | 0 => pair16 p.inHand (w / 4)
      | 1 => pair16 p.out (w / 4 - 2)
      | 2 => pair16 p.stranded (w / 4 - 4)
      | _ => 0
    | _, some (c, w), _ =>
      let x := s.cens c
      match w with
      | 0 => regWord [(31, 16, x.runs), (15, 0, x.mismatches)]
      | 4 => regWord [(31, 16, x.minted), (15, 0, x.lastTotal)]
      | 8 => regWord [(31, 31, b2n x.recValid), (29, 24, x.gpart), (15, 14, x.counter), (13, 11, x.failKind), (10, 0, x.obj)]
      | _ => regWord [(31, 16, x.found), (15, 0, x.expected)]
    | _, _, some (o, w) => pair16 ((s.part y.selPart).sync.obj o) (w / 4)
    | _, _, _ => 0

def State.readPack (s : State) (off : Nat) : Nat :=
  if off == 0 then 4096 - (s.packs.filter fun e => e.2.valid).length
  else
    match inst off 0x1000 0x10 1024, inst off 0x8000 8 4096 with
    | some (c, w), _ =>
      let p := Tab.get s.packCtx c {}
      match w with
      | 0 => p.phases
      | 4 => regWord [(31, 24, p.lastStatus), (23, 12, p.lastGroup)]
      | 8 => regWord [(31, 16, p.staleDrops), (15, 0, p.clamps)]
      | _ => p.combined
    | _, some (i, w) =>
      let e := Tab.get s.packs i {}
      if w == 0 then regWord [(31, 31, b2n e.valid), (27, 14, e.stride), (13, 0, e.base)] else regWord [(24, 15, e.ctx), (14, 0, e.count)]
    | _, _ => 0

/-! ### FAB (R342) -/

def State.readFab (s : State) (off : Nat) : Nat :=
  let f := s.fab
  match off with
  | 0x00 => pair32 f.dev 0
  | 0x04 => pair32 f.dev 1
  | 0x08 => f.sysid
  | 0x0C => f.cmdPort
  | 0x10 => regWord [(31, 31, b2n f.pending), (30, 30, b2n f.cmdRefused), (15, 8, f.lastStatus), (4, 0, s.upPorts.length)]
  | 0x18 => Config.serial % 2 ^ 32
  | 0x1C => wordOf Config.serial 1
  | 0x20 => regWord [(4, 1, f.rmapSlot), (0, 0, f.rmapPage)]
  | _ =>
    match inst off 0x100 0x40 23, inst off 0x1000 0x20 16, inst off 0x2000 4 1024 with
    | some (p, w), _, _ =>
      let x := s.port p
      let pool (v : Nat) : Nat := ((x.vcs[v]?).getD {}).pool
      match w with
      | 0x00 => regWord [(31, 29, x.state), (28, 24, x.width), (23, 16, x.gen), (15, 8, x.lastStatus), (7, 7, b2n x.degraded)]
      | 0x04 => regWord [(31, 20, x.expDev), (19, 14, x.expPort), (13, 13, b2n x.expSwitch), (12, 12, b2n x.none_), (11, 11, b2n x.dateline),
          (10, 10, b2n x.roleCheck)]
      | 0x08 => regWord [(31, 20, x.peerDev), (19, 14, x.peerPort), (13, 12, x.peerRole)]
      | 0x0C => wordOf x.peerSerial 0
      | 0x10 => wordOf x.peerSerial 1
      | 0x14 => regWord [(31, 16, pool 1), (15, 0, pool 0)]
      | 0x18 => x.crcErrors
      | 0x1C => regWord [(31, 16, x.retrains), (15, 0, x.censusFail)]
      | 0x20 => x.dropped
      | 0x24 => regWord [(31, 16, x.foreign), (15, 0, x.noRoute)]
      | 0x28 => regWord [(31, 16, pool 2)]
      | _ => 0
    | _, some (j, w), _ =>
      let x := s.job_ j
      match w with
      | 0x00 => x.jobId
      | 0x04 => pair32 x.epoch 0
      | 0x08 => pair32 x.epoch 1
      | 0x0C => regWord [(31, 31, b2n x.valid), (10, 0, (s.boundTo j).length)]
      | 0x10 => x.cells
      | _ => 0
    | _, _, some (c, _) => Tab.get s.ctxJobs c 0
    | _, _, _ =>
      match inst off 0x4000 4 4096, inst off 0x8000 4 8192 with
      | some (d, _), _ => Tab.get f.routeSh d 0
      | _, some (r, _) => Tab.get f.rmapSh (f.rmapSlot * 16384 + f.rmapPage * 8192 + r) 0
      | _, _ => 0

/-! ### OPT (R362) -/

/-- OPT_ENG of an engine, word at `w`. -/
def State.readEng (s : State) (e w : Nat) : Nat :=
  let x := s.eng e
  match w with
  | 0x00 => regWord [(29, 29, b2n x.tableMode), (28, 28, b2n x.calEn), (27, 20, x.calTicks), (11, 0, x.calInterval)]
  | 0x04 => regWord [(31, 29, x.state), (28, 28, b2n x.cmdRefused), (27, 27, b2n x.applyPending), (26, 23, x.laserOk),
      (22, 15, (x.out.filter fun o => o.gone).length), (14, 8, x.tempC), (7, 0, x.lastStatus)]
  | 0x08 => x.swNow
  | 0x0C => regWord [(30, 28, x.slot)]
  | 0x20 => regWord [(31, 16, x.lockLosses), (15, 0, x.searches)]
  | 0x24 => regWord [(31, 16, x.calDone), (15, 0, x.calFail)]
  | 0x28 => regWord [(31, 16, x.planFires), (15, 0, x.coldOpens)]
  | _ => if 0x10 ≤ w && w < 0x20 then pair64 x.applyAt ((w - 0x10) / 4) else 0

def State.readOpt (s : State) (off : Nat) : Nat :=
  if off == 0x80 then s.opt.ttabSel
  else
    match inst off 0 0x40 2, inst off 0x100 4 16, inst off 0x200 8 64, inst off 0x1000 0x10 32 with
    | some (e, w), _, _, _ => s.readEng e w
    | _, some (i, _), _, _ => (s.opt.slots[i]?).getD 0
    | _, _, some (i, w), _ => let x := Tab.get s.opt.plan i (0, 0); if w == 0 then x.1 else x.2
    | _, _, _, some (b, w) =>
      let x := s.bus b
      match w with
      | 0 => regWord [(31, 31, b2n x.assigned), (30, 26, x.start), (17, 0, x.bad)]
      | 4 => regWord [(31, 16, x.lanesIn), (15, 0, x.locked)]
      | 8 => regWord [(31, 16, x.lockLosses), (15, 0, x.calFails)]
      | _ => 0
    | _, _, _, _ =>
      match inst off 0x2000 4 576, inst off 0x3000 0x10 2, inst off 0x6000 8 288 with
      | some (i, _), _, _ => let x := s.ring i; regWord [(31, 30, x.role), (29, 26, x.wavelength), (23, 12, x.heater), (11, 0, x.err)]
      | _, some (e, w), _ =>
        let a := s.adc e
        match w with
        | 0 => regWord [(31, 31, b2n a.manual), (30, 28, a.filter), (27, 26, a.gain), (9, 5, a.bus), (4, 0, a.sel)]
        | 4 => regWord [(31, 31, b2n a.valid), (30, 28, a.sFilter), (27, 26, a.sGain), (25, 16, a.sChannel), (10, 0, a.code)]
        | 8 => a.samples
        | _ => 0
      | _, _, some (i, w) => pair32 (s.opt.table (18 * s.opt.ttabSel + i / 16) (i % 16)) (w / 4)
      | _, _, _ => 0

/-! ### MEM (R204, R260) -/

/-- MEM_TG of a channel, word at `w`. -/
def TrafGen.read (t : TrafGen) (w : Nat) : Nat :=
  match w with
  | 0x00 => regWord [(29, 28, t.mode), (27, 25, t.pattern), (24, 24, b2n t.inject), (23, 16, t.passes)]
  | 0x04 => regWord [(17, 9, t.baseK), (8, 0, t.countK)]
  | 0x08 => t.seed
  | 0x0C => regWord [(31, 31, b2n t.busy), (30, 30, b2n t.done), (29, 29, b2n t.mismatch), (23, 16, t.lastStatus), (15, 0, t.passesDone)]
  | 0x10 => t.errCount
  | 0x14 => regWord [(31, 31, b2n t.errValid), (18, 0, t.errRow)]
  | 0x18 => t.errXor
  | 0x1C => t.errWord
  | _ => 0

def State.readMem (s : State) (off : Nat) : Nat :=
  let m := s.memc
  let a := m.arbNext.getD (m.wCluster, m.wCobbler, m.wPort, m.wTg)
  match off with
  | 0x00 => regWord [(31, 31, b2n m.bulkEn), (30, 30, b2n m.cmEn), (15, 0, m.interval)]
  | 0x04 => regWord [(15, 12, a.1), (11, 8, a.2.1), (7, 4, a.2.2.1), (3, 0, a.2.2.2)]
  | 0x08 => regWord [(31, 31, b2n m.winRefused), (30, 30, b2n m.arbRefused), (23, 16, m.lastRefusal), (9, 0, m.refusedCtx)]
  | _ =>
    match inst off 0x1000 8 1024, inst off 0x4000 0x10 1024, inst off 0x8000 0x10 256, inst off 0x9000 0x20 256 with
    | some (c, w), _, _, _ => pair32 (s.memCtx c).win (w / 4)
    | _, some (c, w), _, _ =>
      let f := s.memCtx c
      match w with
      | 0 => regWord [(31, 31, b2n f.fValid), (30, 23, f.fStatus), (22, 20, f.fUnit), (19, 19, f.fSpace), (10, 0, f.fLoc)]
      | 4 => wordOf f.fAddr 0
      | 8 => wordOf f.fAddr 1
      | _ => f.fTick
    | _, _, some (ch, w), _ =>
      let x := s.chan ch
      match w with
      | 0 => x.ce
      | 4 => regWord [(31, 16, x.ue), (15, 0, x.scrubPasses)]
      | 8 => x.poisoned
      | _ => regWord [(31, 31, b2n x.ueValid), (18, 0, x.lastUeRow)]
    | _, _, _, some (ch, w) => (s.chan ch).tg.read w
    | _, _, _, _ =>
      match inst off 0xC000 0x10 256 with
      | some (ch, w) =>
        let x := s.chan ch
        match w with
        | 0 => x.cobPasses
        | 4 => x.cobSkipped
        | 8 => regWord [(31, 31, b2n x.cobBusy), (30, 29, x.cobPhase), (23, 16, x.cobStatus), (9, 0, x.cobCtx)]
        | _ => x.cobElements
      | none => 0

/-! ### HOST (R417) and STOR (R418) -/

def State.readHost (s : State) (off : Nat) : Nat :=
  let h := s.host
  let u := s.usb
  match off with
  | 0x0000 => regWord [(31, 31, b2n h.up), (30, 28, h.gen), (27, 23, h.width), (22, 22, b2n h.flit), (21, 21, b2n h.vfEnable), (20, 15, h.numVfs)]
  | 0x0004 => h.cplTimeout
  | 0x8000 => regWord [(31, 31, b2n u.attached), (30, 30, b2n u.highSpeed), (29, 29, b2n u.configured), (28, 28, b2n u.suspended), (22, 16, u.address),
      (15, 0, u.busResets)]
  | 0x8004 => regWord [(31, 16, u.cutTransfers), (15, 0, u.idVendor)]
  | 0x9000 => regWord [(31, 31, b2n s.sb.pmbusStuck), (30, 30, b2n s.sb.i3cStuck), (29, 29, b2n s.sb.faultNLow), (28, 28, b2n s.sb.faultNExt),
      (15, 8, s.sb.recoveries)]
  | _ =>
    match inst off 0x100 0x10 64, inst off 0x1000 4 1024 with
    | some (f, w), _ =>
      let x := s.fn f
      let tags := s.tags.filter fun t => t.space == 2 && t.qp == f
      match w with
      | 0 => regWord [(31, 31, b2n x.bme), (30, 30, b2n x.flr), (9, 0, x.aperCtx)]
      | 4 => regWord [(31, 31, b2n x.aperValid), (6, 0, x.aperBase)]
      | 8 => regWord [(31, 16, (tags.filter fun t => t.quarantined).length), (15, 0, (tags.filter fun t => !t.quarantined).length)]
      | _ => regWord [(31, 16, x.disabledEnds), (15, 0, x.inboundDrops)]
    | _, some (c, _) => Tab.get h.ctxFn c 0
    | _, _ => 0

def State.readStor (s : State) (off : Nat) : Nat :=
  if off == 0x100 then s.stor.qpSel
  else
    match inst off 0 0x20 2, inst off 0x110 4 8, inst off 0x2000 0x10 256 with
    | some (p, w), _, _ =>
      let x := (s.stor.ports[p]?).getD {}
      match w with
      | 0 => regWord [(31, 31, b2n x.up), (30, 30, b2n x.paused), (29, 27, x.prio), (15, 0, x.stuckMs)]
      | 4 => regWord [(31, 16, x.cnpRx), (15, 0, x.cnpTx)]
      | 8 => x.pauseRx
      | 0xC => x.rxDiscard
      | _ => 0
    | _, some (i, _), _ =>
      let q := s.qp s.stor.qpSel
      match i with
      | 0 => regWord [(31, 30, q.state), (29, 29, q.port), (28, 27, q.mtu), (26, 22, q.ackTo), (21, 19, q.retryCnt), (9, 0, q.ctx)]
      | 1 => regWord [(31, 24, q.lastStatus), (23, 0, q.remoteQpn)]
      | 2 => q.psn
      | 7 => regWord [(31, 16, q.retries)]
      | _ => wordOf q.gid (i - 3)
    | _, _, some (i, w) =>
      let m := Tab.get s.stor.mrs i {}
      match w with
      | 0 => regWord [(31, 31, b2n m.valid), (30, 30, b2n m.rd), (29, 29, b2n m.wr), (9, 0, m.ctx)]
      | 4 => m.rkey
      | 8 => m.base
      | _ => m.len
    | _, _, _ => 0

/-! ### MGMT (R442), METER (R463), PWR (R65, R478), ARITH (R117, R153) -/

/-- MGMT_PEER or MGMT_SINK, word at `w`; a peer has no port. -/
def Peer.read (p : Peer) (sink : Bool) (w : Nat) : Nat :=
  match w with
  | 0x00 => regWord [(31, 31, b2n p.valid), (15, 0, if sink then p.udpPort else 0)]
  | 0x14 => p.count
  | 0x18 => 0
  | 0x1C => 0
  | _ => (p.addr[w / 4 - 1]?).getD 0

def State.readMgmt (s : State) (off : Nat) : Nat :=
  let m := s.mgmt
  match off with
  | 0x0 => regWord [(31, 31, b2n m.up), (15, 0, m.rxRefused)]
  | 0x4 => regWord [(31, 24, m.hbS), (15, 0, m.intervalMs)]
  | 0x8 => regWord [(31, 16, m.sent), (15, 0, m.resends)]
  | _ =>
    match inst off 0x100 0x20 4, inst off 0x200 0x20 2, inst off 0x4000 4 256 with
    | some (i, w), _, _ => ((m.peers[i]?).getD {}).read false w
    | _, some (i, w), _ => ((m.sinks[i]?).getD {}).read true w
    | _, _, some (i, _) => Config.idKey i % 2 ^ 32
    | _, _, _ => 0

/-- An energy as the window shows it: whole µJ, paired (R463). -/
def energyWord (p : Paired 80) (i : Nat) : Nat := pair64 (pairOf 64 (microJ p)) i

/-- The window onto the meter; every offset reads 0 while it is absent (R447, R463). -/
def State.readMeter (s : State) (off : Nat) : Nat :=
  let m := s.meter
  if !s.meterHub.present then 0
  else
    match off with
    | 0x00 => m.fwVer
    | 0x04 => regWord [(31, 31, 1), (30, 30, b2n m.sealed_), (29, 29, b2n m.calibFault), (23, 16, m.lastStatus), (11, 0, m.recordS)]
    | 0x08 => m.sealBreaks
    | 0x0C => m.calibGen
    | 0x80 => regWord [(31, 16, m.framesLost), (15, 0, m.overwritten)]
    | 0x88 => wordOf m.nonce 0
    | 0x8C => wordOf m.nonce 1
    | _ =>
      match inst off 0x10 4 4, inst off 0x20 4 8, inst off 0x40 0x10 4 with
      | some (i, _), _, _ => pair64 m.seq i
      | _, some (i, _), _ => leAt (beBytes 32 m.fwDigest) (4 * i) 4
      | _, _, some (i, w) =>
        energyWord (match i with | 0 => m.dev.total | 1 => m.dev.unattr | 2 => m.dev.lost | _ => m.dev.own) (w / 4)
      | _, _, _ =>
        match inst off 0x1000 4 256, inst off 0x4000 0x10 1024, inst off 0x8000 0x100 128 with
        | some (i, _), _, _ => Config.meterKey i % 2 ^ 32
        | _, some (c, w), _ => energyWord (m.acct c).total (w / 4)
        | _, _, some (i, w) => match (m.recs.drop (m.recs.length - 128)).find? fun r => r.seq % 128 == i with
          | some r => leAt r.bytes w 4
          | none => 0
        | _, _, _ => 0

def State.readPwr (s : State) (off : Nat) : Nat :=
  match off with
  | 0x00 => s.gov.slew
  | 0x04 => s.gov.pEst
  | 0x08 => s.gov.pBallast
  | 0x0C => s.gov.slewViol
  | 0x20 => regWord [(15, 8, 0x73), (7, 0, s.therm.throttleNext.getD s.therm.throttleC)]
  | 0x24 => regWord [(31, 31, b2n s.therm.throttling), (30, 30, b2n s.boot.tripSeen), (15, 0, s.therm.throttleTicks)]
  | _ =>
    match inst off 0x100 0x10 14, inst off 0x200 4 15 with
    | some (i, w), _ =>
      let r := (s.therm.rails[i]?).getD {}
      match w with
      | 0 => regWord [(31, 16, r.vout), (15, 0, r.iout)]
      | 4 => regWord [(31, 31, b2n r.inBand), (30, 30, b2n r.stale), (15, 0, r.word)]
      | _ => 0
    | _, some (k, _) => unsigned 16 ((s.therm.temps[k]?).getD 0)
    | _, _ => 0

/-- Slots of a context in fallback (R153). -/
def State.fallenCount (s : State) (c : Nat) : Nat :=
  (s.drifts.filter fun e => decide (e.1 / 256 = c) && e.2.fallen).length

def State.readArith (s : State) (off : Nat) : Nat :=
  match off with
  | 0x10 => s.driftSel
  | 0x14 => let a := s.arith s.driftSel; regWord [(31, 16, a.calibRuns), (15, 0, a.calibKept)]
  | _ =>
    match inst off 0x1000 4 1024, inst off 0x2000 8 256, inst off 0x4000 0x10 1024, inst off 0x8000 0x10 1024 with
    | some (c, _), _, _, _ => regWord [(31, 16, (s.arith c).samplesTotal), (8, 0, s.fallenCount c)]
    | _, some (i, w), _, _ =>
      let d := s.drift s.driftSel i
      if w == 0 then regWord [(31, 31, b2n d.fallen), (30, 27, d.fmtNow), (26, 23, d.fallbackFmt), (19, 16, d.trip), (15, 8, d.exceed),
        (7, 0, d.samples)]
      else regWord [(31, 16, d.lastRatio), (15, 0, d.limit)]
    | _, _, some (c, w), _ => ((s.arith c).cnt[w / 4]?).getD 0
    | _, _, _, some (c, w) =>
      let a := s.arith c
      match w with
      | 0 => regWord [(31, 31, b2n a.recValid), (30, 29, a.recClass), (28, 21, a.recStatus), (20, 18, a.recUnit), (10, 0, a.recLoc)]
      | 4 => a.recInstr
      | 8 => a.recTick
      | _ => regWord [(31, 16, a.recRow), (15, 0, a.recCol)]
    | _, _, _, _ =>
      match inst off 0xC000 4 1024 with
      | some (c, _) => regWord [(3, 0, (s.arith c).stopMask)]
      | none => 0

/-! ### The control space (R6 to R8) -/

/-- The stored word at an address of the control space: 0 where R7 and R8 say so. -/
def State.readReg (s : State) (addr : Nat) : Nat :=
  let off := addr % 0x10000
  if addr % 4 != 0 then 0
  else match addr / 0x10000 with
    | 0x00 => s.readGlb off
    | 0x01 => s.readTick off
    | 0x02 => s.readBoot off
    | 0x03 => s.readDog off
    | 0x04 => s.readPart off
    | 0x05 => s.readLedger off
    | 0x06 => s.readSync off
    | 0x07 => s.readPack off
    | 0x08 => s.readFab off
    | 0x09 => s.readOpt off
    | 0x0A => s.readMem off
    | 0x0B => s.readHost off
    | 0x0C => s.readStor off
    | 0x0D => s.readMgmt off
    | 0x0E => s.readMeter off
    | 0x0F => s.readPwr off
    | 0x10 => s.readArith off
    | 0x11 => s.readCkpt off
    | _ => 0

/-! ### Paired registers (R14 to R16) -/

/-- The repeated sets of paired registers: address, stride, count, words of the pair (2 or 4). -/
def pairSets : List (Nat × Nat × Nat × Nat) :=
  [(0x100, 0x20, 16, 2), (0x108, 0x20, 16, 2), (0x110, 0x20, 16, 2), (0x10010, 0x10, 1, 4), (0x10048, 0x10, 1, 4),
   (0x21010, 8, 1, 2), (0x30010, 8, 1, 2), (0x42000, 0x10, 1024, 4), (0x48008, 0x10, 1, 4), (0x50010, 8, 1, 2),
   (0x51008, 0x20, 1024, 4), (0x51018, 0x20, 1024, 2), (0x59000, 8, 1024, 2), (0x60100, 0x20, 64, 2), (0x60108, 0x20, 64, 2),
   (0x60110, 0x20, 64, 2), (0x68000, 8, 2048, 2), (0x80000, 8, 1, 2), (0x81004, 0x20, 16, 2), (0x90010, 0x40, 2, 4),
   (0x96000, 8, 288, 2), (0xA1000, 8, 1024, 2), (0xE0010, 0x10, 1, 4), (0xE0040, 0x10, 4, 4), (0xE4000, 0x10, 1024, 4),
   (0x111008, 0x20, 1024, 4), (0x111018, 0x20, 1024, 2)]

/-- The pair that an address is a word of: its +0 address, the number of its words, and the word's place. -/
def pairAt (addr : Nat) : Option (Nat × Nat × Nat) :=
  pairSets.findSome? fun x =>
    let d := addr - x.1
    if x.1 ≤ addr && d / x.2.1 < x.2.2.1 && d % x.2.1 < 4 * x.2.2.2 then some (addr - d % x.2.1, x.2.2.2, d % x.2.1 / 4) else none

/-- Number of an access path (R15, R412). -/
def pathNo : Path → Nat | .bar0 => 0 | .mgmt => 1 | .usb => 2

/-- A word read by an access path (R15): the +0 word of a pair latches the pair for the path; another word of it comes from a
latch of the path that is at most 64 clk old. -/
def State.pathRead (s : State) (p : Path) (addr : Nat) : Nat × State :=
  let v := s.readReg addr
  if addr % 4 != 0 then (0, s)
  else match pairAt addr with
    | none => (v, s)
    | some (base, n, 0) =>
      let l : PairLatch := ⟨pathNo p, base, (List.range n).map fun i => s.readReg (base + 4 * i), s.clk⟩
      (v, { s with latches := (s.latches.filter fun x => !(x.path == pathNo p && x.base == base)) ++ [l] })
    | some (base, _, i) =>
      match s.latches.find? fun x => x.path == pathNo p && x.base == base with
      | some l => (if s.clk ≤ l.at_ + 64 then (l.words[i]?).getD 0 else v, s)
      | none => (v, s)

end Sys2Proof.Machine
end

