-- ==== Sys2Proof/Machine/Ctrl.lean ====
section
/-! DEFINITION. Writes to the control space: registers by their access codes, paired registers by their sequences
(spec/00_scope.md R7 to R17 and the register tables of every chapter). A field that starts a command runs that command's
meaning (DESIGN CHOICE, unsafe: notes/assumptions/50.md). -/

namespace Sys2Proof.Machine

/-- The state that a command leaves, where it ends in a next state. (DESIGN CHOICE, unsafe: notes/assumptions/19.md.) -/
def State.after (s : State) (x : Host.Outcome State Fault Refusal) : State := match x with | .next t => t | _ => s

/-- Run a command where a bit is written as 1. -/
def State.when (s : State) (b : Bool) (f : State → Host.Outcome State Fault Refusal) : State := if b then s.after (f s) else s

/-- A W1C bit after a write of its bit (R10). -/
def w1c (old : Bool) (v i : Nat) : Bool := old && !bitOf v i

def State.writeGlb (s : State) (off v : Nat) : State :=
  match off with
  | 0x40 => s.after (execDeterministicWrite v s)
  | 0x48 => { s with glb := { s.glb with ctxSel := fld v 9 0 } }
  | _ => s

/-- TICK_CTRL (R64): a change to role or ports waits for the next edge. -/
def Tick.writeCtrl (t : Tick) (v : Nat) : Tick :=
  let new := (bitOf v 12, fld v 11 6, fld v 5 0)
  { t with
    holdoverMax := max 1 (fld v 23 16)
    ctrlNext := if new == (t.role, t.backupPort, t.upstreamPort) then none else some new }

def State.writeTick (s : State) (off v : Nat) : State :=
  match off with
  | 0x00 => s.after (execTickPeriodWrite v s)
  | 0x04 => { s with tick := s.tick.writeCtrl v }.when (bitOf v 15) execRelock
  | 0x08 => { s with tick := { s.tick with periodRefused := w1c s.tick.periodRefused v 29, digestDiffers := w1c s.tick.digestDiffers v 28 } }
  | 0x30 => { s with tick := { s.tick with slipMax := fld v 7 0 } }
  | 0x40 => { s with tick := { s.tick with startCtx := fld v 9 0 } }.when (bitOf v 10) (execStartDisarm (fld v 9 0))
  | _ => s

/-- UPD_CMD (R443). -/
def State.writeUpdCmd (s : State) (p : Path) (v : Nat) : State :=
  let live := bitOf v 25
  ((((({ s with upd := { s.upd with live := live } }.when (bitOf v 31) (execUpdBegin p true)).when (bitOf v 30) (execUpdVerify p [] true)).when
    (bitOf v 29) (execUpdActivate p live true s.clk)).when (bitOf v 28) (execUpdConfirm p true)).when (bitOf v 27) (execUpdRevert p true s.clk)).when
    (bitOf v 26) (execUpdAbort p)

def State.writeBoot (s : State) (p : Path) (off v : Nat) : State :=
  match off with
  | 0x08 => { s with boot := { s.boot with wakeNext := some (max 300 (fld v 25 16)), stagger := fld v 9 0 } }
  | 0x30 => s.when (bitOf v 31) (execLeaveRomWait [] {} s.clk)
  | 0x1000 => s.writeUpdCmd p v
  | 0x100C => { s with upd := { s.upd with trialS := fld v 15 0 } }
  | _ => s

def State.writeDog (s : State) (off v : Nat) : State :=
  if off == 0x04 then (s.when (bitOf v 31) execSheepdogAck).when (bitOf v 30) execSheepdogPop
  else
    match inst off 0x100 0x10 64 with
    | some (g, 0) => s.modMon g fun m => { m with
        hangAction := if fld v 25 24 == 3 then m.hangAction else fld v 25 24, hangTicks := fld v 23 0 }
    | _ => s

/-- PART_CMD (R382). -/
def State.writePartCmd (s : State) (v : Nat) : State :=
  let g := fld v 5 0
  let c := fld v 15 6
  let full := bitOf v 27
  (((({ s with partRegs := { s.partRegs with fullSearch := full, ctx := c, gpart := g } }.when (bitOf v 31) (execPartFence g s.clk)).when
    (bitOf v 30) (execPartReset g full s.clk)).when (bitOf v 29) (execCtxStop c)).when (bitOf v 28) (execCtxAbort c s.clk))

/-- PART_LOAD_CMD (R241). -/
def State.writeLoadCmd (s : State) (v : Nat) : State :=
  let c := fld v 9 0
  let q := fld v 21 10
  let src := fld v 28 27
  ((({ s with loader := { s.loader with src := src, qp := q, ctx := c } }.when (bitOf v 31) (execLoadGo src q c s.clk)).when
    (bitOf v 30) (execLoadAbort c s.clk)).when (bitOf v 29) (execUnload c s.clk))

def State.writePart (s : State) (off v : Nat) : State :=
  match off with
  | 0x0000 => s.writePartCmd v
  | 0x0004 => { s with partRegs := { s.partRegs with cmdRefused := w1c s.partRegs.cmdRefused v 30 } }
  | 0x0008 => { s with partRegs := { s.partRegs with drainLimit := max 10 (fld v 15 0) } }
  | 0x8000 => s.writeLoadCmd v
  | 0x8018 => { s with loader := { s.loader with len := v } }
  | 0x801C => { s with loader := { s.loader with rankCount := fld v 30 16, rankBase := fld v 13 0 } }
  | _ =>
    match inst off 0x100 0x10 64 with
    | some (g, 4) => s.after (execNextContextWrite g v s)
    | _ => s

/-- The bits of LEDGER_CFG1 to LEDGER_CFG15 that are not rsvd (R307). -/
def ledCfgMask : List Nat :=
  [0xFFFFFFF8, 0xFFFFFC00, 0xFFFFFC00, 0xFF07FFFF, 0x7FFFF, 0x7FFFF, 0x7FFFF, 0xFFF7FFFF, 0x7FFFF, 0xFFFFFFFF, 0xFFFFFF, 0xFFFFFFFF,
   0xFFFFFFFF, 0xFFFFFFFF, 0xFFFFFFFF, 0xFFFFFFFF]

/-- A write of a LEDGER_CFG word other than the first: stored while the ledger is off, and otherwise discarded (R306). -/
def State.writeLedCfg (s : State) (i v : Nat) : State :=
  let c := s.ledRegs.sel
  if i == 0 then s.after (execLedgerEnableWrite v s)
  else if (s.led c).state != 0 then s
  else s.modLed c fun l => { l with cfg := l.cfg.set i (v &&& (ledCfgMask[i]?).getD 0) }

def State.writeLedger (s : State) (off v : Nat) : State :=
  let c := fld v 9 0
  match off with
  | 0x00 => { s with ledRegs := { s.ledRegs with sel := c } }
  | 0x04 => ({ s with ledRegs := { s.ledRegs with ctx := c } }.when (bitOf v 31) (execLedgerRollback c s.clk)).when (bitOf v 30) (execLedgerHalt c)
      |>.when (bitOf v 29) (execClearStrikes c)
  | 0x08 => { s with ledRegs := { s.ledRegs with cmdRefused := w1c s.ledRegs.cmdRefused v 30 } }
  | _ =>
    match inst off 0x40 4 16 with
    | some (i, _) => s.writeLedCfg i v
    | none => s

/-- A word of CKPT_CFG (R319). -/
def Ckpt.write (k : Ckpt) (off v : Nat) : Ckpt :=
  match off with
  | 0x40 => { k with everyConf := fld v 31 16, timerS := fld v 15 0 }
  | 0x44 => { k with qp := fld v 31 20, staggerSlots := max 1 (fld v 19 12), staggerMs := fld v 11 0 }
  | 0x48 => { k with cowRow := fld v 18 0 }
  | 0x4C => { k with cowRows := fld v 18 0 }
  | 0x50 => { k with rate := fld v 15 0 }
  | 0x54 => { k with rkey := v }
  | 0x58 => { k with slotA := k.slotA / 2 ^ 32 * 2 ^ 32 + v }
  | 0x5C => { k with slotA := k.slotA % 2 ^ 32 + v * 2 ^ 32 }
  | 0x60 => { k with slotB := k.slotB / 2 ^ 32 * 2 ^ 32 + v }
  | 0x64 => { k with slotB := k.slotB % 2 ^ 32 + v * 2 ^ 32 }
  | 0x68 => { k with slotUnits := v }
  | _ => k

/-- CKPT registers (R319). The data of a restore come with CKPT_RESTORE; a write stores its slot and context. -/
def State.writeCkpt (s : State) (off v : Nat) : State :=
  let c := fld v 9 0
  match off with
  | 0x00 => { s with ckptRegs := { s.ckptRegs with sel := c } }
  | 0x04 => ({ s with ckptRegs := { s.ckptRegs with ctx := c, restoreSlot := fld v 28 28 } }.when (bitOf v 31) (execCkptTake c)).when
      (bitOf v 30) (execCkptAbort c)
  | 0x08 => { s with ckptRegs := { s.ckptRegs with cmdRefused := w1c s.ckptRegs.cmdRefused v 30 } }
  | _ =>
    if (inst off 0x40 4 11).isNone then s
    else if (s.ckpt s.ckptRegs.sel).state != 0 then { s with ckptRegs := { s.ckptRegs with cmdRefused := true } }
    else s.modCkpt s.ckptRegs.sel fun k => k.write off v

def State.writeSync (s : State) (off v : Nat) : State :=
  match off with
  | 0x00 => { s with sync := { s.sync with selPart := fld v 5 0 } }
  | 0x04 =>
    let c := fld v 9 0
    let s1 := { s with sync := { s.sync with cmdCtx := c } }
    if bitOf v 31 then s1.after (execSyncReseed c s1) else s1.when (bitOf v 30) (execSyncCensus c)
  | 0x08 => { s with sync := { s.sync with cmdRefused := w1c s.sync.cmdRefused v 30 } }
  | _ =>
    match inst off 0x4000 0x10 1024 with
    | some (c, 8) => if bitOf v 31 then s.modCens c fun x => { x with
        recValid := false, gpart := 0, counter := 0, failKind := 0, obj := 0, found := 0, expected := 0 } else s
    | _ => s

/-- FAB_CMD (R342). -/
def State.writeFabCmd (s : State) (v : Nat) : State :=
  let p := fld v 5 0
  let s1 := { s with fab := { s.fab with cmdPort := p } }
  if 22 < p && fld v 31 27 != 0 then s1.fabRefuse
  else ((((s1.when (bitOf v 31) execFabCommit).when (bitOf v 30) (execFabRetrain p)).when (bitOf v 29) (execFabFullSearch p)).when
    (bitOf v 28) (execFabPortOff p)).when (bitOf v 27) (execFabPortOn p)

def State.writeFab (s : State) (off v : Nat) : State :=
  match off with
  | 0x08 => { s with fab := { s.fab with sysid := v }, glb := { s.glb with digestStale := s.glb.digestStale || v != s.fab.sysid } }
  | 0x0C => s.writeFabCmd v
  | 0x10 => { s with fab := { s.fab with cmdRefused := w1c s.fab.cmdRefused v 30 } }
  | 0x20 => { s with fab := { s.fab with rmapSlot := fld v 4 1, rmapPage := fld v 0 0 } }
  | _ =>
    match inst off 0x100 0x40 23, inst off 0x1000 0x20 16, inst off 0x2000 4 1024 with
    | some (p, 4), _, _ => s.modPort p fun x => { x with
        expDev := fld v 31 20, expPort := fld v 19 14, expSwitch := bitOf v 13, none_ := bitOf v 12, dateline := bitOf v 11, roleCheck := bitOf v 10 }
    | _, some (j, 0), _ => s.after (execFabJobWrite j false v s)
    | _, some (j, 0xC), _ => s.modJob j fun x => { x with valid := bitOf v 31 }
    | _, _, some (c, _) => s.after (execFabCtxJobWrite c v s)
    | _, _, _ =>
      match inst off 0x4000 4 4096, inst off 0x8000 4 8192 with
      | some (d, _), _ => { s with fab := { s.fab with routeSh := Tab.put s.fab.routeSh d 0 (v &&& 0xE000FFFF) } }
      | _, some (r, _) => { s with fab := { s.fab with
          rmapSh := Tab.put s.fab.rmapSh (s.fab.rmapSlot * 16384 + s.fab.rmapPage * 8192 + r) 0 (v &&& 0x80000FFF) } }
      | _, _ => s

/-- OPT_ENG of an engine, word at `w` (R362). -/
def State.writeEng (s : State) (e w v : Nat) : State :=
  match w with
  | 0x00 => ((s.after (execTableModeWrite e v s)).when (bitOf v 31) (execEngineSearch e)).when (bitOf v 30) (execEngineSearchCached e)
  | 0x04 => s.modEng e fun x => { x with cmdRefused := w1c x.cmdRefused v 28 }
  | 0x0C => (s.modEng e fun x => { x with slot := fld v 30 28 }).when (bitOf v 31) (execMapApply e (fld v 30 28))
  | _ => s

def State.writeOpt (s : State) (off v : Nat) : State :=
  if off == 0x80 then { s with opt := { s.opt with ttabSel := fld v 4 0 } }
  else
    match inst off 0 0x40 2, inst off 0x100 4 16, inst off 0x200 8 64, inst off 0x3000 0x10 2 with
    | some (e, w), _, _, _ => s.writeEng e w v
    | _, some (i, _), _, _ => s.after (execSwitchSlotWrite i v s)
    | _, _, some (i, w), _ => s.after (execPlanEntryWrite i (w / 4) v s)
    | _, _, _, some (e, 0) => s.after (execAdcSettingsWrite e v s)
    | _, _, _, _ => s

/-- MEM_TG of a channel, word at `w` (R204). -/
def State.writeTg (s : State) (ch w v : Nat) : State :=
  let set (f : TrafGen → TrafGen) : State := s.modChan ch fun c => { c with tg := f c.tg }
  match w with
  | 0x00 => ((set fun t => { t with mode := fld v 29 28, pattern := fld v 27 25, inject := bitOf v 24, passes := fld v 23 16 }).when
      (bitOf v 31) (execTgStart ch [])).when (bitOf v 30) (execTgStop ch)
  | 0x04 => set fun t => { t with baseK := fld v 17 9, countK := fld v 8 0 }
  | 0x08 => set fun t => { t with seed := max 1 (fld v 30 0) }
  | 0x0C => set fun t => { t with done := w1c t.done v 30, mismatch := w1c t.mismatch v 29 }
  | _ => s

def State.writeMem (s : State) (off v : Nat) : State :=
  match off with
  | 0x00 => { s with memc := { s.memc with bulkEn := bitOf v 31, cmEn := bitOf v 30, interval := max 16 (fld v 15 0) } }
  | 0x04 => s.after (execMemArbWrite v s)
  | 0x08 => { s with memc := { s.memc with winRefused := w1c s.memc.winRefused v 31, arbRefused := w1c s.memc.arbRefused v 30 } }
  | _ =>
    match inst off 0x4000 0x10 1024, inst off 0x9000 0x20 256 with
    | some (c, 0), _ => if bitOf v 31 then s.modMemCtx c fun m => { win := m.win } else s
    | _, some (ch, w) => s.writeTg ch w v
    | _, _ => s

def State.writeHost (s : State) (off v : Nat) : State :=
  match off with
  | 0x0004 => { s with host := { s.host with cplTimeout := max 1 (fld v 5 0) } }
  | 0x9000 => { s with sb := { s.sb with faultNExt := w1c s.sb.faultNExt v 28 } }
  | _ =>
    match inst off 0x100 0x10 64, inst off 0x1000 4 1024 with
    | some (f, 0), _ => s.modFn f fun x => { x with aperCtx := fld v 9 0 }
    | some (f, 4), _ => s.modFn f fun x => { x with aperValid := bitOf v 31, aperBase := fld v 6 0 }
    | _, some (c, _) => { s with host := { s.host with ctxFn := Tab.put s.host.ctxFn c 0 (v &&& 0x8000003F) } }
    | _, _ => s

/-- A word of STOR_QP, written in reset (R418). An mtu of 3 keeps the field. -/
def Qp.write (q : Qp) (i v : Nat) : Qp :=
  match i with
  | 0 => { q with
      port := fld v 29 29, mtu := if fld v 28 27 == 3 then q.mtu else fld v 28 27, ackTo := fld v 26 22, retryCnt := fld v 21 19, ctx := fld v 9 0 }
  | 1 => { q with remoteQpn := fld v 23 0 }
  | 2 => { q with psn := fld v 23 0 }
  | 7 => q
  | _ => { q with gid := q.gid - at' (wordOf q.gid (i - 3)) (32 * (i - 3)) + at' v (32 * (i - 3)) }

/-- A word of STOR_MR (R418). -/
def Mr.write (m : Mr) (w v : Nat) : Mr :=
  match w with
  | 0 => { m with valid := bitOf v 31, rd := bitOf v 30, wr := bitOf v 29, ctx := fld v 9 0 }
  | 4 => { m with rkey := v }
  | 8 => { m with base := v }
  | _ => { m with len := v }

def State.writeStor (s : State) (off v : Nat) : State :=
  match off with
  | 0x100 => { s with stor := { s.stor with qpSel := fld v 11 0 } }
  | 0x104 => (s.when (bitOf v 31) execQpModify).when (bitOf v 30) execQpReset
  | _ =>
    match inst off 0 0x20 2, inst off 0x110 4 8, inst off 0x2000 0x10 256 with
    | some (p, 0), _, _ => s.modSport p fun x => { x with prio := fld v 29 27, stuckMs := max 1 (fld v 15 0) }
    | _, some (i, _), _ => if (s.qp s.stor.qpSel).state == 0 then s.modQp s.stor.qpSel fun q => q.write i v else s
    | _, _, some (i, w) => { s with stor := { s.stor with mrs := Tab.set s.stor.mrs i ((Tab.get s.stor.mrs i {}).write w v) } }
    | _, _, _ => s

/-- A word of MGMT_PEER or MGMT_SINK (R442). -/
def Peer.write (p : Peer) (w v : Nat) : Peer :=
  match w with
  | 0x00 => { p with valid := bitOf v 31, udpPort := fld v 15 0 }
  | 0x04 => { p with addr := p.addr.set 0 v }
  | 0x08 => { p with addr := p.addr.set 1 v }
  | 0x0C => { p with addr := p.addr.set 2 v }
  | 0x10 => { p with addr := p.addr.set 3 v }
  | _ => p

def State.writeMgmt (s : State) (off v : Nat) : State :=
  let m := s.mgmt
  match off with
  | 0x4 => { s with mgmt := { m with hbS := max 1 (fld v 31 24), intervalMs := max 10 (fld v 15 0) } }
  | _ =>
    match inst off 0x100 0x20 4, inst off 0x200 0x20 2 with
    | some (i, w), _ => { s with mgmt := { m with peers := m.peers.set i (((m.peers[i]?).getD {}).write w v) } }
    | _, some (i, w) => { s with mgmt := { m with sinks := m.sinks.set i (((m.sinks[i]?).getD {}).write w v) } }
    | _, _ => s

def State.writePwr (s : State) (off v : Nat) : State :=
  match off with
  | 0x00 =>
    let x := max 312 (min 3125 (fld v 11 0))
    { s with gov := { s.gov with slew := x }, glb := { s.glb with digestStale := s.glb.digestStale || x != s.gov.slew } }
  | 0x20 => { s with therm := { s.therm with throttleNext := some (max 85 (min 105 (fld v 7 0))) } }
  | 0x24 => { s with boot := { s.boot with tripSeen := w1c s.boot.tripSeen v 30 } }
  | _ => s

/-- ARITH_CLEAR: the clear command clears the four counters and the record of a context (R117). -/
def execArithClear (c : Nat) (s : State) : Host.Outcome State Fault Refusal := .next (s.modArith c Arith.clear)

def State.writeArith (s : State) (off v : Nat) : State :=
  if off == 0x10 then { s with driftSel := fld v 9 0 }
  else
    match inst off 0xC000 4 1024 with
    | some (c, _) => (s.modArith c fun a => { a with stopMask := fld v 3 0 }).when (bitOf v 8) (execArithClear c)
    | none => s

/-! ### Paired registers (R16, R17) -/

/-- The source that reports a broken pair written to an address. (DEDUCED, unsafe: notes/assumptions/69.md.) -/
def pairSource (addr : Nat) : Nat :=
  match addr / 0x10000 with
  | 0x1 => 1
  | 0x2 => 14
  | 0x3 => 13
  | 0x4 => if 0x8000 ≤ addr % 0x10000 then 6 else 0
  | 0x5 => 7
  | 0x6 => 4
  | 0x8 => 9
  | 0x9 => 10
  | 0xA => 3
  | 0xE => 16
  | 0x11 => 8
  | _ => 15

/-- A completed sequence with intact complements sets the value of a paired RW register (R16). -/
def State.pairEffect (s : State) (base v : Nat) : State :=
  let off := base % 0x10000
  match base / 0x10000 with
  | 0x1 => if off == 0x48 then s.after (execStartArm v s) else s
  | 0x3 => s.after (execLeaseGrant v s.clk s)
  | 0x4 => match inst off 0x2000 0x10 1024 with
    | some (c, _) => s.after (execPartAssignWrite c v s)
    | none => { s with loader := { s.loader with addr := pairOf 64 (v / 64 * 64) } }
  | 0x5 =>
    if off == 0x10 then { s with ledRegs := { s.ledRegs with rbEpoch := pairOf 32 v } }
    else match inst off 0x1000 0x20 1024 with
      | some (c, 8) => if (s.led c).state == 0 then s.modLed c fun l => { l with confirmed := pairOf 64 v } else s
      | _ => s
  | 0x8 => match inst off 0x1000 0x20 16 with
    | some (j, _) => s.after (execFabJobWrite j true v s)
    | none => s.after (execFabDevWrite v s)
  | 0x9 => match inst off 0 0x40 2, inst off 0x6000 8 288 with
    | some (e, _), _ => s.modEng e fun x => { x with applyAt := pairOf 64 v }
    | _, some (i, _) => { s with opt := { s.opt with
        ttab := Tab.set s.opt.ttab (288 * s.opt.ttabSel + i) (pairOf 32 (v % 4096)) } }
    | _, _ => s
  | 0xA => match inst off 0x1000 8 1024 with
    | some (c, _) => s.after (execWindowWrite c v s)
    | none => s
  | _ => s

/-- The complements of a complete sequence are exact (R16). -/
def seqOk (ws : List Nat) : Bool :=
  let n := ws.length / 2
  (List.range n).all fun i => (ws[i + n]?).getD 0 == 0xFFFFFFFF - (ws[i]?).getD 0

/-- The value of a complete sequence. -/
def seqValue (ws : List Nat) : Nat := if ws.length == 4 then (ws[0]?).getD 0 + 2 ^ 32 * (ws[1]?).getD 0 else (ws[0]?).getD 0

/-- A sequence broken or a word out of turn is reported (R16). -/
def State.seqBroken (s : State) (addr : Nat) : State := s.pairNote (pairSource addr)

/-- The pending sequence of a path (R16). -/
def State.setSeq (s : State) (p : Path) (q : PairSeq) : State := { s with pairSeqs := Tab.set s.pairSeqs (pathNo p) q }
def State.endSeq (s : State) (p : Path) : State := { s with pairSeqs := Tab.erase s.pairSeqs (pathNo p) }

/-- A word of a paired register written by a path (R16): it starts, advances, completes or breaks the path's sequence. -/
def State.pairWrite (s : State) (p : Path) (addr v base n i : Nat) : State :=
  let first (t : State) : State := if i == 0 then t.setSeq p ⟨base, [v]⟩ else t
  match Tab.find s.pairSeqs (pathNo p) with
  | none => if i == 0 then first s else s.seqBroken addr
  | some q =>
    if q.base == base && i == q.words.length then
      let ws := q.words ++ [v]
      if ws.length < n then s.setSeq p ⟨base, ws⟩
      else if seqOk ws then (s.endSeq p).pairEffect base (seqValue ws)
      else (s.endSeq p).seqBroken addr
    else first ((s.endSeq p).seqBroken addr)

/-! ### The control space (R7, R8) -/

/-- A word written to the control space by a path; the METER window takes none (R9). (DESIGN CHOICE, unsafe: notes/assumptions/53.md.) (DEDUCED, unsafe: notes/assumptions/78.md.) -/
def State.writeWord (s : State) (p : Path) (addr value : Nat) : State :=
  let v := value % 2 ^ 32
  let off := addr % 0x10000
  if addr % 4 != 0 || 0x120000 ≤ addr || addr / 0x10000 == 0xE then s
  else match pairAt addr with
    | some (base, n, i) => s.pairWrite p addr v base n i
    | none => match addr / 0x10000 with
      | 0x00 => s.writeGlb off v
      | 0x01 => s.writeTick off v
      | 0x02 => s.writeBoot p off v
      | 0x03 => s.writeDog off v
      | 0x04 => s.writePart off v
      | 0x05 => s.writeLedger off v
      | 0x06 => s.writeSync off v
      | 0x08 => s.writeFab off v
      | 0x09 => s.writeOpt off v
      | 0x0A => s.writeMem off v
      | 0x0B => s.writeHost off v
      | 0x0C => s.writeStor off v
      | 0x0D => s.writeMgmt off v
      | 0x0F => s.writePwr off v
      | 0x10 => s.writeArith off v
      | 0x11 => s.writeCkpt off v
      | _ => s

/-- REGISTER_WRITE: a control-space write acts on the fields of its register by their access codes; one of another width than
32 bits, misaligned or out of range has no effect (R7 to R12). -/
def execRegisterWrite (p : Path) (width addr value at_ : Nat) (s0 : State) : Host.Outcome State Fault Refusal :=
  let s := s0.atClk at_
  .next (if width == 4 then s.writeWord p addr value else s)

/-- PAIRED_READ_LATCH: a read of the +0 word of a paired register latches the pair for its path, and reads of its other
words in the 64 clk after it return the latched ones (R14, R15). -/
def execPairedReadLatch (p : Path) (addr at_ : Nat) (s0 : State) : Host.Outcome State Fault Refusal :=
  let x := (s0.atClk at_).pathRead p addr
  .next (x.2.send (.data stOk (leBytes 4 x.1)))

/-- PAIRED_WRITE_WORD: a word written to a paired register starts, advances, completes or breaks its path's sequence (R16). (DEDUCED, unsafe: notes/assumptions/77.md.) -/
def execPairedWriteWord (p : Path) (addr value at_ : Nat) (s0 : State) : Host.Outcome State Fault Refusal :=
  let s := s0.atClk at_
  .next (match pairAt addr with
    | some _ => s.writeWord p addr value
    | none => s)

end Sys2Proof.Machine
end

