-- ==== Sys2Proof/Machine/Service.lean ====
section
/-! DEFINITION. The USB and management ports, the report path and the lapse of the lease
(spec/17_partitions_reset_and_recovery.md R377, spec/19_host_and_service_ports.md R411, R412,
spec/20_management_and_updates.md R421 to R425). -/

namespace Sys2Proof.Machine

/-- Consecutive words read by a path, in ascending order (R411, R421): the bytes read. -/
def State.readWords (s : State) (p : Path) (addr n : Nat) : List Byte × State :=
  (List.range n).foldl (fun (acc : List Byte × State) i =>
    let x := acc.2.pathRead p (addr + 4 * i)
    (acc.1 ++ leBytes 4 x.1, x.2)) ([], s)

/-- Consecutive words written by a path, in ascending order. -/
def State.writeWords (s : State) (p : Path) (addr : Nat) : List Nat → State
  | [] => s
  | v :: vs => (s.writeWord p addr v).writeWords p (addr + 4) vs

/-! ### USB (R411, R412) -/

/-- A vendor request's wLength is 4 to 64 and a multiple of 4 (R411). -/
def usbLenOk (n : Nat) : Bool := decide (4 ≤ n) && decide (n ≤ 64) && n % 4 == 0

/-- USB_READ: a vendor READ request returns words of the control space; one of another length is answered with a stall (R411). -/
def execUsbRead (addr wLength at_ : Nat) (s0 : State) : Host.Outcome State Fault Refusal :=
  let s := s0.atClk at_
  if !usbLenOk wLength then .next (s.send (.usb true []))
  else
    let x := s.readWords .usb addr (wLength / 4)
    .next (x.2.send (.usb false x.1))

/-- USB_WRITE: a vendor WRITE request writes its words after the whole data stage has been received; an incomplete one
applies nothing (R411). (DEDUCED, unsafe: notes/assumptions/72.md.) -/
def execUsbWrite (addr wLength : Nat) (words : List Nat) (at_ : Nat) (s0 : State) : Host.Outcome State Fault Refusal :=
  let s := s0.atClk at_
  if !usbLenOk wLength then .next (s.send (.usb true []))
  else if words.length < wLength / 4 then .next s
  else .next ((s.writeWords .usb addr (words.take (wLength / 4))).send (.usb false []))

/-- USB_BUS_RESET: the USB path's pending sequence is discarded and the port reset; `cut` says that a control transfer was cut
short, `highSpeed` the speed found (R412). -/
def execUsbBusReset (cut highSpeed : Bool) (s : State) : Host.Outcome State Fault Refusal :=
  let s1 := { s.endSeq .usb with usb := { s.usb with
    attached := true, highSpeed := highSpeed, configured := false, suspended := false, address := 0,
    busResets := satAdd 0xFFFF s.usb.busResets 1, cutTransfers := if cut then satAdd 0xFFFF s.usb.cutTransfers 1 else s.usb.cutTransfers } }
  .next (if cut then s1.report 0 11 stUsbReset else s1)

/-! ### Control requests (R421, R422) -/

/-- A response of the management port (R421). -/
def mgmtAnswer (seq op status count addr : Nat) (data : List Byte) : List Byte :=
  leBytes 4 0x52434D4B ++ leBytes 4 seq ++ leBytes 1 op ++ leBytes 1 status ++ leBytes 2 count ++ leBytes 4 addr ++ data

/-- MGMT_READ: a read request returns `count` consecutive words; a repeat gets the kept response (R421, R422). -/
def execMgmtRead (peer seq addr count at_ : Nat) (s0 : State) : Host.Outcome State Fault Refusal :=
  .next ((s0.atClk at_).request peer seq (decide (1 ≤ count) && decide (count ≤ 256)) fun t =>
    let x := t.readWords .mgmt addr count
    (mgmtAnswer seq 1 stOk count addr x.1, x.2))

/-- MGMT_WRITE: a write request writes consecutive words as one path (R421, R422). -/
def execMgmtWrite (peer seq addr : Nat) (words : List Nat) (at_ : Nat) (s0 : State) : Host.Outcome State Fault Refusal :=
  .next ((s0.atClk at_).request peer seq (decide (1 ≤ words.length) && decide (words.length ≤ 256)) fun t =>
    (mgmtAnswer seq 2 stOk words.length addr [], t.writeWords .mgmt addr words))

/-- MGMT_DOWNLOAD_CHUNK: a chunk of 1 to 4 units of 256 bytes is programmed at its offset, ignored or refused (R421, R434). -/
def execMgmtDownloadChunk (peer seq off : Nat) (data : List Byte) (ok : Bool) (s : State) : Host.Outcome State Fault Refusal :=
  let count := data.length / 256
  .next (s.request peer seq (data.length % 256 == 0 && decide (1 ≤ count) && decide (count ≤ 4)) fun t =>
    let x := t.chunk .mgmt off data ok
    (mgmtAnswer seq 3 x.1 count off [], x.2))

/-! ### Reports (R423 to R425) -/

/-- The 32-byte header of a report datagram (R423). -/
def State.reportHead (s : State) (count kind : Nat) : List Byte :=
  leBytes 4 0x54524D4B ++ leBytes 4 s.mgmt.seq ++ leBytes 2 count ++ leBytes 1 kind ++ [0] ++ leBytes 2 s.fab.num ++
    leBytes 2 s.dog.queue.length ++ leBytes 8 Config.serial ++ leBytes 8 s.glb.cfgDigest

/-- The valid sinks, by number. -/
def Mgmt.sinksOn (m : Mgmt) : List Nat := (List.range m.sinks.length).filter fun i => ((m.sinks[i]?).getD {}).valid

/-- A datagram goes to every valid sink (R423). -/
def State.toSinks (s : State) (bs : List Byte) : State := s.mgmt.sinksOn.foldl (fun t i => t.send (.datagram i bs)) s

/-- The oldest unsent entries, up to `n`, marked as carried by datagram `seq`. -/
def markSent (seq : Nat) : Nat → List Event → List Event
  | _, [] => []
  | 0, es => es
  | n + 1, e :: es => if e.sent then e :: markSent seq (n + 1) es else { e with sent := true, dgram := seq } :: markSent seq n es

/-- The clk from which the interval lets a report datagram carry the entries that wait (R424): interval_ms after the last one;
after a quiet period of at least interval_ms the delay that the serial number gives, counted from the oldest of them. -/
def State.reportFrom (s : State) : Nat :=
  let i := s.mgmt.intervalMs * 1100000
  let first := match s.dog.queue.find? fun e => !e.sent with | some e => e.clk | none => s.clk
  let staggered := first + Config.serial % 16 * i / 16
  match s.mgmt.lastReport with
  | none => staggered
  | some t => if t + i ≤ first then staggered else t + i

/-- The pace of R424 lets a report datagram leave. (DEDUCED, unsafe: notes/assumptions/70.md.) -/
def State.reportDue (s : State) : Bool :=
  let unsent := s.dog.queue.filter fun e => !e.sent
  s.mgmt.up && !s.mgmt.sinksOn.isEmpty && !unsent.isEmpty && decide (s.mgmt.unacked.length < 4) &&
  ((unsent.any fun e => e.severity == 3) || decide (s.reportFrom ≤ s.clk))

/-- REPORT_DATAGRAM_SEND: a report datagram carries up to 64 of the oldest unsent entries when the interval, or an entry of
severity 3, lets it leave (R423, R424). -/
def execReportDatagramSend (at_ : Nat) (s0 : State) : Host.Outcome State Fault Refusal :=
  let s := s0.atClk at_
  if !s.reportDue then .next s
  else
    let es := (s.dog.queue.filter fun e => !e.sent).take 64
    let bs := s.reportHead es.length 0 ++ es.flatMap fun e => leBytes 16 e.bits
    let m := s.mgmt
    .next ({ s with
      dog := { s.dog with queue := markSent m.seq 64 s.dog.queue }
      mgmt := { m with
        seq := wrapAdd 32 m.seq 1, sent := wrapAdd 16 m.sent 1, lastReport := some s.clk, unacked := m.unacked ++ [({ seq := m.seq, clk := s.clk, bytes := bs } : Datagram)] } }.toSinks bs)

/-- HEARTBEAT_SEND: a heartbeat datagram leaves every hb_s seconds (R423, R424). -/
def execHeartbeatSend (at_ : Nat) (s0 : State) : Host.Outcome State Fault Refusal :=
  let s := s0.atClk at_
  let m := s.mgmt
  if !m.up || m.sinksOn.isEmpty || s.clk < m.lastBeat + m.hbS * 1100000000 then .next s
  else
    let bs := s.reportHead 0 1 ++ leBytes 8 s.tickNo ++ leBytes 4 s.bootReady ++ leBytes 4 s.leaseStatus ++ leBytes 2 s.dog.lost ++ zeros 14
    .next ({ s with mgmt := { m with seq := wrapAdd 32 m.seq 1, lastBeat := s.clk } }.toSinks bs)

/-- Datagram `d` is not later than `seq`, on a count that wraps. -/
def seqLe (d seq : Nat) : Bool := decide ((seq + 2 ^ 32 - d % 2 ^ 32) % 2 ^ 32 < 2 ^ 31)

/-- REPORT_ACK_RECEIVE: a sink's cumulative acknowledgement removes the entries of every datagram up to its seq; one of a seq
never sent is ignored (R425, R444). -/
def execReportAckReceive (sink seq : Nat) (s : State) : Host.Outcome State Fault Refusal :=
  let m := s.mgmt
  let x := (m.sinks[sink]?).getD {}
  if !x.valid || seqLe m.seq seq then .next s
  else .next { s with
    dog := { s.dog with queue := s.dog.queue.filter fun e => !(e.sent && seqLe e.dgram seq) }
    mgmt := { m with unacked := m.unacked.filter fun (d : Datagram) => !seqLe d.seq seq, sinks := m.sinks.set sink { x with count := seq % 2 ^ 32 } } }

/-- REPORT_RESEND: with no acknowledgement within 4 × interval_ms the oldest unacknowledged datagram is sent again, unchanged
(R425). -/
def execReportResend (at_ : Nat) (s0 : State) : Host.Outcome State Fault Refusal :=
  let s := s0.atClk at_
  match s.mgmt.unacked with
  | [] => .next s
  | d :: ds =>
    if !s.mgmt.up || s.clk < d.clk + 4 * s.mgmt.intervalMs * 1100000 then .next s
    else .next ({ s with mgmt := { s.mgmt with unacked := { d with clk := s.clk } :: ds, resends := satAdd 0xFFFF s.mgmt.resends 1 } }.toSinks d.bytes)

/-! ### The lapse of the lease (R377) -/

/-- The collective phases of every cluster end with a status and send no more. -/
def State.endPhases (s : State) (status : Nat) : State :=
  (s.clus.map (·.1)).foldl (fun t k => ((t.clu k).runs.filter fun r => recKind r.rec_ == 5 && !r.finished).foldl (fun u r => u.endRun k r.idx status) t) s

/-- LEASE_LAPSE: remaining reaches 0 (R377): ST_LEASE_LOST at severity 3, every context stops at the next edge, collective
phases, ledger sends and checkpoint drains end. (DEDUCED, unsafe: notes/assumptions/61.md.) -/
def execLeaseLapse (at_ : Nat) (s0 : State) : Host.Outcome State Fault Refusal :=
  let s := s0.atClk at_
  if s.dog.leaseState != 1 || s.clk < s.dog.leaseEnd then .next s
  else
    let s1 := { s with dog := { s.dog with leaseState := 2, lapses := satAdd 255 s.dog.lapses 1 } }.report 3 13 stLeaseLost
    let loaded := (s.loads.filter fun e => e.2.state == 4).map (·.1)
    let s2 := (loaded.foldl State.stopCtx s1).endPhases stLeaseLost
    let s3 := (s2.leds.map (·.1)).foldl (fun (t : State) c =>
      if (t.led c).sends.isEmpty then t else t.modLed c fun l => { l with sends := [], lastStatus := stLeaseLost }) s2
    let s4 := { s3 with fab := { s3.fab with waiting := [] } }
    .next ((s4.ckpts.map (·.1)).foldl (fun (t : State) c => if (t.ckpt c).state == 2 then t.ckptEnd c stLeaseLost 0 else t) s4)

end Sys2Proof.Machine
end

