-- ==== Sys2Proof/Machine/Edge.lean ====
section
/-! DEFINITION. The tick edge (spec/02_the_tick.md R48, R50): all that happens at it, in one order (DESIGN CHOICE, unsafe: notes/assumptions/51.md). -/

namespace Sys2Proof.Machine

/-- The clk of the next edge: the tick's nominal length and its correction (R42, R50). -/
def Tick.due (t : Tick) : Nat := (((t.lastEdge + t.period * 1100 : Nat) : Int) + t.corr).toNat

/-- The contexts that an image is loaded for, those unloading at their barrier with them. -/
def State.loadedCtxs (s : State) : List Nat := (s.loads.filter fun e => e.2.state == 4 || e.2.state == 5).map (·.1)

/-- What was written for this edge (R24, R64, R335, R365, R396, R475): period, ports, tables, links, device number, cap. -/
def State.edgeWrites (s : State) : State :=
  let s1 := if s.tick.periodNext.isSome then { s with glb := { s.glb with digestStale := true } } else s
  let s2 := s1.edgePending.weltEdge
  let s3 := { s2 with
    fab := s2.fab.commit, boot := { s2.boot with wakeCap := s2.boot.wakeNext.getD s2.boot.wakeCap, wakeNext := none, wakeUsed := 0 } }
  let s4 := s3.digestEdge
  ((s4.devEdge Config.serial s4.digest64).throttleEdge).optEdge

/-- Overruns of the ending segments, starts and releases, then residency: what becomes resident at an edge has its first
segment released at the next (R44, R55, R57, R365). -/
def State.edgeSegments (s : State) : State :=
  let s1 := (s.loadedCtxs.foldl State.overruns s).startEdge
  (s1.loadedCtxs.foldl State.releaseCtx s1).residency

/-- Beacons on the up ports that lead away from the root, then a census marker on each channel (R48, R325). -/
def State.edgeFrames (s : State) : State :=
  let s1 := s.sendBeacons (s.upPorts.filter fun p => s.tick.role || p != s.tick.upstream)
  s1.upPorts.foldl (fun t p => [0, 1, 2].foldl (fun u v => u.sendMarker p v) t) s1

/-- A wait that the ledger excuses (R367). -/
def State.excused (s : State) (c : Nat) : Bool := (s.led c).state == 2 || (s.led c).state == 3

/-- TICK_EDGE: the tick number counts, overruns are checked, segments released, beacons and markers sent, the governor closes
its estimate (R48, R50). `work` and `room` are the power of the tick's work and what ballast could add, in 0.1 W; `bad` says
that a part switched live fails to start (R436); `ext` that another device drives FAULT_N (R415). (DEDUCED, unsafe: notes/assumptions/35.md.) -/
def execTickEdge (at_ work room : Nat) (bad ext : Bool) (s0 : State) : Host.Outcome State Fault Refusal :=
  let s := s0.atClk at_
  if s.clk < s.tick.due then .next s
  else
    let s1 := (s.closeFrame s.tickNo).countTick
    let s2 := { s1 with tick := s1.tick.holdoverEdge }.edgeWrites
    let s3 := (s2.governorClose work room).feedForwardEdge.edgeSegments
    let s4 := (s3.edgeFrames).quietTicks s3.excused
    .next (((s4.updEdge bad).sampleFaultN ext).readiness)

end Sys2Proof.Machine
end

