-- ==== Sys2Proof/Machine/Dispatch.lean ====
section
/-! DEFINITION. One arm per command, each a call of its meaning. -/

namespace Sys2Proof.Machine

def exec (i : Instr) (s : State) : Host.Outcome State Fault Refusal :=
  match i with
  | .registerWrite p width addr value at_ => Sys2Proof.Machine.execRegisterWrite p width addr value at_ s
  | .pairedReadLatch p addr at_ => Sys2Proof.Machine.execPairedReadLatch p addr at_ s
  | .pairedWriteWord p addr value at_ => Sys2Proof.Machine.execPairedWriteWord p addr value at_ s
  | .weltLinkDown l => Sys2Proof.Machine.execWeltLinkDown l s
  | .tickEdge at_ work room bad ext => Sys2Proof.Machine.execTickEdge at_ work room bad ext s
  | .beaconReceive port b at_ => Sys2Proof.Machine.execBeaconReceive port b at_ s
  | .echoSend at_ => Sys2Proof.Machine.execEchoSend at_ s
  | .echoReceive port b at_ => Sys2Proof.Machine.execEchoReceive port b at_ s
  | .holdoverExpire => Sys2Proof.Machine.execHoldoverExpire s
  | .relock => Sys2Proof.Machine.execRelock s
  | .startArm S => Sys2Proof.Machine.execStartArm S s
  | .startDisarm c => Sys2Proof.Machine.execStartDisarm c s
  | .governorEnergyCheck running => Sys2Proof.Machine.execGovernorEnergyCheck running s
  | .tickPeriodWrite value => Sys2Proof.Machine.execTickPeriodWrite value s
  | .arithClear c => Sys2Proof.Machine.execArithClear c s
  | .recordDispatch g n at_ => Sys2Proof.Machine.execRecordDispatch g n at_ s
  | .recordWaitMet g n u at_ => Sys2Proof.Machine.execRecordWaitMet g n u at_ s
  | .recordRetire g n idx at_ => Sys2Proof.Machine.execRecordRetire g n idx at_ s
  | .stepEndMark g n => Sys2Proof.Machine.execStepEndMark g n s
  | .passIssue g n u at_ => Sys2Proof.Machine.execPassIssue g n u at_ s
  | .awlTileIssue g n at_ => Sys2Proof.Machine.execAwlTileIssue g n at_ s
  | .bankDrain g n u at_ => Sys2Proof.Machine.execBankDrain g n u at_ s
  | .codebookCalibrate c instr grp => Sys2Proof.Machine.execCodebookCalibrate c instr grp s
  | .driftSample g n idx blk => Sys2Proof.Machine.execDriftSample g n idx blk s
  | .windowWrite c value => Sys2Proof.Machine.execWindowWrite c value s
  | .memArbWrite value => Sys2Proof.Machine.execMemArbWrite value s
  | .granuleRead c g n unit space addr ups => Sys2Proof.Machine.execGranuleRead c g n unit space addr ups s
  | .eccWriteback cm idx => Sys2Proof.Machine.execEccWriteback cm idx s
  | .granuleWrite c g n unit space addr bytes => Sys2Proof.Machine.execGranuleWrite c g n unit space addr bytes s
  | .scrubAccess cm idx bank at_ ups => Sys2Proof.Machine.execScrubAccess cm idx bank at_ ups s
  | .retrieverCopy g n at_ => Sys2Proof.Machine.execRetrieverCopy g n at_ s
  | .retrieverFillZeros g n at_ => Sys2Proof.Machine.execRetrieverFillZeros g n at_ s
  | .retrieverDefineZero g n at_ => Sys2Proof.Machine.execRetrieverDefineZero g n at_ s
  | .retrieverInvalidate g n at_ => Sys2Proof.Machine.execRetrieverInvalidate g n at_ s
  | .unitAccept g n at_ => Sys2Proof.Machine.execUnitAccept g n at_ s
  | .tgStart ch fails => Sys2Proof.Machine.execTgStart ch fails s
  | .tgStop ch => Sys2Proof.Machine.execTgStop ch s
  | .tgRunEnd ch fails => Sys2Proof.Machine.execTgRunEnd ch fails s
  | .localSendApply id at_ => Sys2Proof.Machine.execLocalSendApply id at_ s
  | .remoteSendApply id at_ => Sys2Proof.Machine.execRemoteSendApply id at_ s
  | .sendAckReceive id at_ => Sys2Proof.Machine.execSendAckReceive id at_ s
  | .stepBoundaryCensus c at_ => Sys2Proof.Machine.execStepBoundaryCensus c at_ s
  | .syncReseed c => Sys2Proof.Machine.execSyncReseed c s
  | .syncCensus c => Sys2Proof.Machine.execSyncCensus c s
  | .loadGo src q c at_ => Sys2Proof.Machine.execLoadGo src q c at_ s
  | .loadFetchData tag status at_ bs => Sys2Proof.Machine.execLoadFetchData tag status at_ bs s
  | .loadCheck at_ => Sys2Proof.Machine.execLoadCheck at_ s
  | .loadAbort c at_ => Sys2Proof.Machine.execLoadAbort c at_ s
  | .unload c at_ => Sys2Proof.Machine.execUnload c at_ s
  | .deferredUnload c at_ => Sys2Proof.Machine.execDeferredUnload c at_ s
  | .cobblerQueueEnter ch => Sys2Proof.Machine.execCobblerQueueEnter ch s
  | .cobblerUpdate ch => Sys2Proof.Machine.execCobblerUpdate ch s
  | .cobblerEmit ch => Sys2Proof.Machine.execCobblerEmit ch s
  | .fabricPacketReceive p v k => Sys2Proof.Machine.execFabricPacketReceive p v k s
  | .acceptReceive p v k => Sys2Proof.Machine.execAcceptReceive p v k s
  | .reduceStage g n idx m st => Sys2Proof.Machine.execReduceStage g n idx m st s
  | .packetRoute k => Sys2Proof.Machine.execPacketRoute k s
  | .deterministicWrite value => Sys2Proof.Machine.execDeterministicWrite value s
  | .ledgerTransferReceive c kind step bytes digest => Sys2Proof.Machine.execLedgerTransferReceive c kind step bytes digest s
  | .voteReceive c v => Sys2Proof.Machine.execVoteReceive c v s
  | .voteTimeout c => Sys2Proof.Machine.execVoteTimeout c s
  | .decisionReceive c down from_ step yes due at_ => Sys2Proof.Machine.execDecisionReceive c down from_ step yes due at_ s
  | .decisionTimeout c => Sys2Proof.Machine.execDecisionTimeout c s
  | .mirrorConfirmedReceive c step => Sys2Proof.Machine.execMirrorConfirmedReceive c step s
  | .ledgerRollback c at_ => Sys2Proof.Machine.execLedgerRollback c at_ s
  | .rollbackExchange c target needTail lost at_ => Sys2Proof.Machine.execRollbackExchange c target needTail lost at_ s
  | .mirrorRestore c role bytes digest => Sys2Proof.Machine.execMirrorRestore c role bytes digest s
  | .tailReplay c copy => Sys2Proof.Machine.execTailReplay c copy s
  | .spareTakeover c target records banks weights => Sys2Proof.Machine.execSpareTakeover c target records banks weights s
  | .mirrorSeeding c role step bytes digest => Sys2Proof.Machine.execMirrorSeeding c role step bytes digest s
  | .ledgerHalt c => Sys2Proof.Machine.execLedgerHalt c s
  | .clearStrikes c => Sys2Proof.Machine.execClearStrikes c s
  | .ledgerEnableWrite value => Sys2Proof.Machine.execLedgerEnableWrite value s
  | .ckptTake c => Sys2Proof.Machine.execCkptTake c s
  | .ckptTimerExpire c at_ => Sys2Proof.Machine.execCkptTimerExpire c at_ s
  | .ckptDrainStart c at_ => Sys2Proof.Machine.execCkptDrainStart c at_ s
  | .ckptUnitAccept c u at_ => Sys2Proof.Machine.execCkptUnitAccept c u at_ s
  | .ckptDigestTreeReceive c from_ digest => Sys2Proof.Machine.execCkptDigestTreeReceive c from_ digest s
  | .ckptCompletionReceive c step => Sys2Proof.Machine.execCkptCompletionReceive c step s
  | .ckptAbort c => Sys2Proof.Machine.execCkptAbort c s
  | .ckptRestore c slot port manifest data => Sys2Proof.Machine.execCkptRestore c slot port manifest data s
  | .frameReceive f at_ => Sys2Proof.Machine.execFrameReceive f at_ s
  | .linkIdleTimeout p at_ => Sys2Proof.Machine.execLinkIdleTimeout p at_ s
  | .portDown p at_ => Sys2Proof.Machine.execPortDown p at_ s
  | .censusMarkerReceive p v h rs sent at_ => Sys2Proof.Machine.execCensusMarkerReceive p v h rs sent at_ s
  | .portTrainingDone p width ok at_ => Sys2Proof.Machine.execPortTrainingDone p width ok at_ s
  | .fullSearchRetry p at_ => Sys2Proof.Machine.execFullSearchRetry p at_ s
  | .helloReceive p h at_ => Sys2Proof.Machine.execHelloReceive p h at_ s
  | .fabCommit => Sys2Proof.Machine.execFabCommit s
  | .fabRetrain p => Sys2Proof.Machine.execFabRetrain p s
  | .fabFullSearch p => Sys2Proof.Machine.execFabFullSearch p s
  | .fabPortOff p => Sys2Proof.Machine.execFabPortOff p s
  | .fabPortOn p => Sys2Proof.Machine.execFabPortOn p s
  | .fabDevWrite value => Sys2Proof.Machine.execFabDevWrite value s
  | .fabJobWrite slot epoch value => Sys2Proof.Machine.execFabJobWrite slot epoch value s
  | .fabCtxJobWrite c value => Sys2Proof.Machine.execFabCtxJobWrite c value s
  | .engineSearch e => Sys2Proof.Machine.execEngineSearch e s
  | .engineSearchCached e => Sys2Proof.Machine.execEngineSearchCached e s
  | .searchComplete e buses found temp => Sys2Proof.Machine.execSearchComplete e buses found temp s
  | .lockVisit b r err => Sys2Proof.Machine.execLockVisit b r err s
  | .laneOutRequest p w fault => Sys2Proof.Machine.execLaneOutRequest p w fault s
  | .laneOutReply p w accept => Sys2Proof.Machine.execLaneOutReply p w accept s
  | .combLineLow p w => Sys2Proof.Machine.execCombLineLow p w s
  | .calCycleStart e at_ => Sys2Proof.Machine.execCalCycleStart e at_ s
  | .calSlotEnd e dTx dRx => Sys2Proof.Machine.execCalSlotEnd e dTx dRx s
  | .laserLoss e L => Sys2Proof.Machine.execLaserLoss e L s
  | .laserRestored e L => Sys2Proof.Machine.execLaserRestored e L s
  | .tableModeUpdate e t4 => Sys2Proof.Machine.execTableModeUpdate e t4 s
  | .tableModeWrite e value => Sys2Proof.Machine.execTableModeWrite e value s
  | .switchSlotWrite k value => Sys2Proof.Machine.execSwitchSlotWrite k value s
  | .mapApply e slot => Sys2Proof.Machine.execMapApply e slot s
  | .planEntryWrite k word value => Sys2Proof.Machine.execPlanEntryWrite k word value s
  | .circuitIdentReceive p serial gen last at_ => Sys2Proof.Machine.execCircuitIdentReceive p serial gen last at_ s
  | .adcSampleDone e code => Sys2Proof.Machine.execAdcSampleDone e code s
  | .adcSettingsWrite e value => Sys2Proof.Machine.execAdcSettingsWrite e value s
  | .partAssignWrite c mask => Sys2Proof.Machine.execPartAssignWrite c mask s
  | .nextContextWrite g value => Sys2Proof.Machine.execNextContextWrite g value s
  | .hangDetected g at_ => Sys2Proof.Machine.execHangDetected g at_ s
  | .partFence g at_ => Sys2Proof.Machine.execPartFence g at_ s
  | .fenceDrainComplete g at_ => Sys2Proof.Machine.execFenceDrainComplete g at_ s
  | .drainLimitExpire g at_ => Sys2Proof.Machine.execDrainLimitExpire g at_ s
  | .partReset g full at_ => Sys2Proof.Machine.execPartReset g full at_ s
  | .resetPhaseComplete g ok at_ => Sys2Proof.Machine.execResetPhaseComplete g ok at_ s
  | .ctxStop c => Sys2Proof.Machine.execCtxStop c s
  | .ctxAbort c at_ => Sys2Proof.Machine.execCtxAbort c at_ s
  | .leaseGrant value at_ => Sys2Proof.Machine.execLeaseGrant value at_ s
  | .leaseLapse at_ => Sys2Proof.Machine.execLeaseLapse at_ s
  | .sheepdogAck => Sys2Proof.Machine.execSheepdogAck s
  | .sheepdogPop => Sys2Proof.Machine.execSheepdogPop s
  | .vAonValid => Sys2Proof.Machine.execVAonValid s
  | .vbusAbove at_ => Sys2Proof.Machine.execVbusAbove at_ s
  | .brownOut at_ => Sys2Proof.Machine.execBrownOut at_ s
  | .pllLock bootSel at_ => Sys2Proof.Machine.execPllLock bootSel at_ s
  | .pllLockTimeout at_ => Sys2Proof.Machine.execPllLockTimeout at_ s
  | .bootSlotRead bad c at_ => Sys2Proof.Machine.execBootSlotRead bad c at_ s
  | .leaveRomWait bad c at_ => Sys2Proof.Machine.execLeaveRomWait bad c at_ s
  | .railSequence fail at_ => Sys2Proof.Machine.execRailSequence fail at_ s
  | .bringupTraining saved welt chans at_ => Sys2Proof.Machine.execBringupTraining saved welt chans at_ s
  | .selfTestStart g at_ => Sys2Proof.Machine.execSelfTestStart g at_ s
  | .selfTestComplete g ok at_ => Sys2Proof.Machine.execSelfTestComplete g ok at_ s
  | .hostInboundRequest f write off len bytes at_ => Sys2Proof.Machine.execHostInboundRequest f write off len bytes at_ s
  | .hostCompletionReceive tag status at_ bs => Sys2Proof.Machine.execHostCompletionReceive tag status at_ bs s
  | .hostCompletionTimeout tag at_ => Sys2Proof.Machine.execHostCompletionTimeout tag at_ s
  | .busMasterDisable f at_ => Sys2Proof.Machine.execBusMasterDisable f at_ s
  | .busMasterEnable f at_ => Sys2Proof.Machine.execBusMasterEnable f at_ s
  | .functionLevelReset f at_ => Sys2Proof.Machine.execFunctionLevelReset f at_ s
  | .flrComplete f at_ => Sys2Proof.Machine.execFlrComplete f at_ s
  | .hostLinkDown at_ => Sys2Proof.Machine.execHostLinkDown at_ s
  | .storPacketReceive p q pkt ce at_ => Sys2Proof.Machine.execStorPacketReceive p q pkt ce at_ s
  | .cnpReceive q at_ => Sys2Proof.Machine.execCnpReceive q at_ s
  | .rateRecovery q at_ => Sys2Proof.Machine.execRateRecovery q at_ s
  | .pfcStuck p at_ => Sys2Proof.Machine.execPfcStuck p at_ s
  | .ackTimeout q at_ => Sys2Proof.Machine.execAckTimeout q at_ s
  | .storPortDownTimeout p at_ => Sys2Proof.Machine.execStorPortDownTimeout p at_ s
  | .qpModify => Sys2Proof.Machine.execQpModify s
  | .qpReset => Sys2Proof.Machine.execQpReset s
  | .usbRead addr wLength at_ => Sys2Proof.Machine.execUsbRead addr wLength at_ s
  | .usbWrite addr wLength words at_ => Sys2Proof.Machine.execUsbWrite addr wLength words at_ s
  | .usbBusReset cut highSpeed => Sys2Proof.Machine.execUsbBusReset cut highSpeed s
  | .usbEp1Chunk off len data ok => Sys2Proof.Machine.execUsbEp1Chunk off len data ok s
  | .sidebandRecovery bus freed at_ => Sys2Proof.Machine.execSidebandRecovery bus freed at_ s
  | .sidebandRetry bus freed at_ => Sys2Proof.Machine.execSidebandRetry bus freed at_ s
  | .i3cIbi => Sys2Proof.Machine.execI3cIbi s
  | .mgmtRead peer seq addr count at_ => Sys2Proof.Machine.execMgmtRead peer seq addr count at_ s
  | .mgmtWrite peer seq addr words at_ => Sys2Proof.Machine.execMgmtWrite peer seq addr words at_ s
  | .mgmtDownloadChunk peer seq off data ok => Sys2Proof.Machine.execMgmtDownloadChunk peer seq off data ok s
  | .reportDatagramSend at_ => Sys2Proof.Machine.execReportDatagramSend at_ s
  | .heartbeatSend at_ => Sys2Proof.Machine.execHeartbeatSend at_ s
  | .reportAckReceive sink seq => Sys2Proof.Machine.execReportAckReceive sink seq s
  | .reportResend at_ => Sys2Proof.Machine.execReportResend at_ s
  | .updBegin p ok => Sys2Proof.Machine.execUpdBegin p ok s
  | .updVerify p bad ok => Sys2Proof.Machine.execUpdVerify p bad ok s
  | .updActivate p live ok at_ => Sys2Proof.Machine.execUpdActivate p live ok at_ s
  | .updConfirm p ok => Sys2Proof.Machine.execUpdConfirm p ok s
  | .updRevert p ok at_ => Sys2Proof.Machine.execUpdRevert p ok at_ s
  | .updAbort p => Sys2Proof.Machine.execUpdAbort p s
  | .trialTimerExpire at_ => Sys2Proof.Machine.execTrialTimerExpire at_ s
  | .meterHeartbeatSend at_ => Sys2Proof.Machine.execMeterHeartbeatSend at_ s
  | .meterHeartbeatTimeout at_ => Sys2Proof.Machine.execMeterHeartbeatTimeout at_ s
  | .attributionFrame tick tickN f => Sys2Proof.Machine.execAttributionFrame tick tickN f s
  | .meterTickClose es ein own ms => Sys2Proof.Machine.execMeterTickClose es ein own ms s
  | .meterSelfPeriod es ein own ms => Sys2Proof.Machine.execMeterSelfPeriod es ein own ms s
  | .meterSnapshot ok ms => Sys2Proof.Machine.execMeterSnapshot ok ms s
  | .recordIntervalEnd ms => Sys2Proof.Machine.execRecordIntervalEnd ms s
  | .meterFetch peer seq first count => Sys2Proof.Machine.execMeterFetch peer seq first count s
  | .meterNonce peer seq => Sys2Proof.Machine.execMeterNonce peer seq s
  | .meterInterval peer seq arg => Sys2Proof.Machine.execMeterInterval peer seq arg s
  | .meterTimeMark peer seq utc => Sys2Proof.Machine.execMeterTimeMark peer seq utc s
  | .meterBreak peer seq tok => Sys2Proof.Machine.execMeterBreak peer seq tok s
  | .meterRestore peer seq tok => Sys2Proof.Machine.execMeterRestore peer seq tok s
  | .meterCalibration peer seq ch constants => Sys2Proof.Machine.execMeterCalibration peer seq ch constants s
  | .meterFwChunk peer seq off data => Sys2Proof.Machine.execMeterFwChunk peer seq off data s
  | .vMtrFail ms => Sys2Proof.Machine.execVMtrFail ms s
  | .vMtrReturn ms => Sys2Proof.Machine.execVMtrReturn ms s
  | .thermalThrottle temps => Sys2Proof.Machine.execThermalThrottle temps s
  | .thermalTrip temps at_ => Sys2Proof.Machine.execThermalTrip temps at_ s
  | .tripRecovery temps at_ => Sys2Proof.Machine.execTripRecovery temps at_ s
  | .railPoll reads at_ => Sys2Proof.Machine.execRailPoll reads at_ s
  | .unitFault g at_ => Sys2Proof.Machine.execUnitFault g at_ s
  | .vAonLoss => Sys2Proof.Machine.execVAonLoss s
  | .storagePortDown p at_ => Sys2Proof.Machine.execStoragePortDown p at_ s
  | .storagePortUp p at_ => Sys2Proof.Machine.execStoragePortUp p at_ s
  | .hostLinkUp gen width flit vfs => Sys2Proof.Machine.execHostLinkUp gen width flit vfs s
  | .weltLinkRestored l => Sys2Proof.Machine.execWeltLinkRestored l s
  | .pfcPauseReceive p prio pause at_ => Sys2Proof.Machine.execPfcPauseReceive p prio pause at_ s

end Sys2Proof.Machine
end

