-- ==== Sys2Proof/Machine/Step.lean ====
section
/-! DEFINITION. One step of the block: the command at the front of its queue, or the clock while none waits
(DESIGN CHOICE, safe: notes/assumptions/5.md). -/

namespace Sys2Proof.Machine

/-- With no command waiting the block idles for a clock. -/
def State.idle (s : State) : State := { s with clk := s.clk + 1 }

/-- The state with the first command taken from its queue. -/
def State.popped (s : State) (rest : List Instr) : State := { s with pending := rest }

/-- One step. (DESIGN CHOICE, safe: notes/assumptions/1.md.) (DESIGN CHOICE, safe: notes/assumptions/18.md.) -/
def step (s : State) : Host.Outcome State Fault Refusal :=
  match s.pending with
  | [] => .next s.idle
  | c :: rest => exec c (s.popped rest)

/-- The state with the command that a word spells at the front of its queue. -/
def State.withFetchWord (s : State) (nbits w : Nat) : State :=
  match decodeTableWord nbits w with
  | some c => { s with pending := c :: s.pending }
  | none => s

end Sys2Proof.Machine
end

