-- ==== Sys2Proof/Laws/Table.lean ====
section
/-! SUPPORT. Lemmas about the tables that State is made of (Tab.get, Tab.set, Tab.put). -/

namespace Sys2Proof.Machine

variable {α : Type}

/-- Keys strictly rising. -/
def Tab.Sorted : Tab α → Prop
  | [] => True
  | [_] => True
  | a :: b :: t => a.1 < b.1 ∧ Tab.Sorted (b :: t)

theorem Tab.Sorted.tail {a : Nat × α} {t : Tab α} (h : Tab.Sorted (a :: t)) : Tab.Sorted t := by
  cases t with
  | nil => trivial
  | cons b t => exact h.2

/-- In a sorted table a key below the first one is not listed. -/
theorem Tab.find_below {t : Tab α} {k : Nat} (h : Tab.Sorted t) (b : ∀ e ∈ t.head?, k < e.1) : Tab.find t k = none := by
  induction t with
  | nil => rfl
  | cons e t ih =>
    obtain ⟨k', v⟩ := e
    have hk : k < k' := b (k', v) rfl
    have hne : (k == k') = false := by simp; omega
    simp only [Tab.find, hne]
    refine ih h.tail fun f hf => ?_
    cases t with
    | nil => cases hf
    | cons g t =>
      have : g = f := by simpa using hf
      subst this
      have := h.1
      simp only at this
      omega

@[simp] theorem Tab.find_set_same (t : Tab α) (k : Nat) (x : α) : Tab.find (Tab.set t k x) k = some x := by
  induction t with
  | nil => simp [Tab.set, Tab.find]
  | cons e t ih =>
    obtain ⟨k', v⟩ := e
    simp only [Tab.set]
    split
    · simp [Tab.find]
    · split
      · simp [Tab.find]
      · rename_i h
        simp only [Tab.find, h]
        exact ih

theorem Tab.find_set_other (t : Tab α) (k j : Nat) (x : α) (h : j ≠ k) : Tab.find (Tab.set t k x) j = Tab.find t j := by
  have hb : (j == k) = false := by simpa using h
  induction t with
  | nil => simp [Tab.set, Tab.find, hb]
  | cons e t ih =>
    obtain ⟨k', v⟩ := e
    simp only [Tab.set]
    split
    · simp [Tab.find, hb]
    · split
      · rename_i h2
        have : k = k' := by simpa using h2
        subst this
        simp [Tab.find, hb]
      · simp only [Tab.find, ih]

/-- What was written under a key is read there. -/
@[simp] theorem Tab.get_set_same (t : Tab α) (k : Nat) (x d : α) : Tab.get (Tab.set t k x) k d = x := by
  simp [Tab.get]

/-- A write under one key leaves every other. -/
theorem Tab.get_set_other (t : Tab α) (k j : Nat) (x d : α) (h : j ≠ k) : Tab.get (Tab.set t k x) j d = Tab.get t j d := by
  simp [Tab.get, Tab.find_set_other t k j x h]

theorem Tab.get_set (t : Tab α) (k j : Nat) (x d : α) :
    Tab.get (Tab.set t k x) j d = if j = k then x else Tab.get t j d := by
  split
  · subst_vars; simp
  · exact Tab.get_set_other _ _ _ _ _ ‹_›

theorem Tab.find_erase_other (t : Tab α) (k j : Nat) (h : j ≠ k) : Tab.find (Tab.erase t k) j = Tab.find t j := by
  have hb : (j == k) = false := by simpa using h
  induction t with
  | nil => rfl
  | cons e t ih =>
    obtain ⟨k', v⟩ := e
    simp only [Tab.erase]
    split
    · rename_i h2
      have : k = k' := by simpa using h2
      subst this
      simp [Tab.find, hb]
    · simp only [Tab.find, ih]

/-- In a sorted table nothing is left under an erased key. -/
theorem Tab.find_erase_same (t : Tab α) (k : Nat) (h : Tab.Sorted t) : Tab.find (Tab.erase t k) k = none := by
  induction t with
  | nil => rfl
  | cons e t ih =>
    obtain ⟨k', v⟩ := e
    simp only [Tab.erase]
    split
    · rename_i h2
      have : k = k' := by simpa using h2
      subst this
      refine Tab.find_below h.tail fun f hf => ?_
      cases t with
      | nil => cases hf
      | cons g t =>
        have : g = f := by simpa using hf
        subst this
        exact h.1
    · rename_i h2
      simp only [Tab.find, h2]
      exact ih h.tail

theorem Tab.get_put_other [DecidableEq α] (t : Tab α) (k j : Nat) (d x : α) (h : j ≠ k) :
    Tab.get (Tab.put t k d x) j d = Tab.get t j d := by
  unfold Tab.put Tab.get
  split
  · rw [Tab.find_erase_other t k j h]
  · rw [Tab.find_set_other t k j x h]

theorem Tab.get_put_same [DecidableEq α] (t : Tab α) (k : Nat) (d x : α) (h : Tab.Sorted t) :
    Tab.get (Tab.put t k d x) k d = x := by
  unfold Tab.put Tab.get
  split
  · rw [Tab.find_erase_same t k h]; simp [*]
  · simp

end Sys2Proof.Machine
end

