-- ==== Sys2Proof/Safety.lean ====
section
/-! DEFINITION. What counts as a sound state and as an answered command, in the terms that claims use. -/

namespace Sys2Proof.Machine

/-- The command is answered with a next state: neither a fault nor a refusal. -/
def Answers (i : Instr) (s t : State) : Prop := exec i s = .next t

/-- A state that the block may be in: memory in its canonical form (R180), at most 256 events queued (R369), the tick number's
pair intact (R48). -/
structure Sound (s : State) : Prop where
  mem : Memory.wf s.mem = true
  queue : s.dog.queue.length ≤ 256
  tick : s.tick.number.ok = true

/-! What a command leaves alone: `t` is `s` with at most the named fields changed. -/

/-- What reporting an event changes (R369, R404): the event queue, the messages sent, the interrupts that host functions hold. -/
def Reported (s t : State) : Prop := t = { s with dog := t.dog, tx := t.tx, host := t.host }

/-- What the link layer changes (R321 to R328): the fabric ports, the circuits of the optical ones, and what reporting changes. -/
def LinkOnly (s t : State) : Prop := t = { s with fab := t.fab, opt := t.opt, dog := t.dog, tx := t.tx, host := t.host }

/-- What an access to memory changes (R180 to R200, R314): cells, granule states, upsets, the counts of channels and clusters,
the memory controller, the copies of a checkpoint under way, the first fault of a context, a ledger's mark of a bad interval,
and what reporting changes. -/
def MemOnly (s t : State) : Prop :=
  t = { s with
    mem := t.mem, gran := t.gran, ecc := t.ecc, chans := t.chans, clus := t.clus, memc := t.memc, ckpts := t.ckpts,
    memCtxs := t.memCtxs, leds := t.leds, dog := t.dog, tx := t.tx, host := t.host }

/-- Commands that do the work of a cluster's units, of memory, of a channel's Cobbler and of the sync objects. -/
def unitWork : Instr → Bool
  | .recordDispatch .. | .stepEndMark .. | .passIssue .. | .awlTileIssue .. | .bankDrain .. | .codebookCalibrate ..
  | .driftSample .. | .granuleRead .. | .eccWriteback .. | .granuleWrite .. | .scrubAccess .. | .retrieverFillZeros ..
  | .retrieverDefineZero .. | .retrieverInvalidate .. | .unitAccept .. | .localSendApply .. | .remoteSendApply ..
  | .sendAckReceive .. | .cobblerQueueEnter .. | .cobblerUpdate .. | .cobblerEmit .. => true
  | _ => false

/-- Everything that only control, power, the ports, updates and the meter change is as it was: the tick and the governor, starts and
loads, global, partition, ledger and checkpoint registers, register sequences and latches, the Welt links, optics, USB and
the sideband, fuses, flash, boot, updates, management, temperatures and the meter. -/
structure ControlKept (s t : State) : Prop where
  pairSeqs : t.pairSeqs = s.pairSeqs
  latches : t.latches = s.latches
  glb : t.glb = s.glb
  weltUp : t.weltUp = s.weltUp
  weltNext : t.weltNext = s.weltNext
  tick : t.tick = s.tick
  gov : t.gov = s.gov
  starts : t.starts = s.starts
  loads : t.loads = s.loads
  loader : t.loader = s.loader
  partRegs : t.partRegs = s.partRegs
  ctxJobs : t.ctxJobs = s.ctxJobs
  ledRegs : t.ledRegs = s.ledRegs
  ckptRegs : t.ckptRegs = s.ckptRegs
  opt : t.opt = s.opt
  usb : t.usb = s.usb
  sb : t.sb = s.sb
  fuses : t.fuses = s.fuses
  flash : t.flash = s.flash
  boot : t.boot = s.boot
  upd : t.upd = s.upd
  mgmt : t.mgmt = s.mgmt
  therm : t.therm = s.therm
  meter : t.meter = s.meter

end Sys2Proof.Machine
end

