-- ==== Sys2Proof/Certificates/Slice0/Obligations.lean ====
section
/-! DEFINITION. The statements for the provers, one definition each (OBLIGATIONS.json lists them). `exec c s = .next t` says that
command `c` on state `s` is answered with `t`; where `t` is written as `s` with some fields replaced, every other field of the
state, every byte of memory among them, stands as it was. `s.atClk a` is `s` with its clock moved on to `a`. -/

open Sys2Proof Sys2Proof.Machine

/-- A step takes the command at the front of the queue and runs it on the state with the rest of the queue; on an empty queue
the clock moves on by one (notes/assumptions/5.md, the model's own). -/
def Obligations.StepTakesFrontCommand : Prop :=
  (∀ (s : State) (c : Instr) (rest : List Instr), s.pending = c :: rest → step s = exec c { s with pending := rest }) ∧
  ∀ s : State, s.pending = [] → step s = .next { s with clk := s.clk + 1 }

/-- The state after reset is one the block may be in (Safety.lean). -/
def Obligations.ResetIsSound : Prop := Sound State.reset

/-- Reset values that the register tables of the spec give (R64, R65, R182, R191, R204, R214, R221, R366, R376, R382). -/
def Obligations.ResetLeavesSpecValues : Prop :=
  let s := State.reset
  (s.tick.period = 16 ∧ s.tick.holdoverMax = 0x40 ∧ s.tick.slipMax = 4 ∧ s.tick.aligned = false ∧ s.tick.backupPort = 0x3F ∧
    s.tick.upstreamPort = 0x3F ∧ s.gov.slew = 0xC35) ∧
  (∀ c, (s.start c).state = 0 ∧ (s.memCtx c).win = pairOf 32 0 ∧ (s.load c).state = 0 ∧ s.partsOf c = [] ∧ (s.led c).state = 0) ∧
  (∀ gk, s.granState gk = 0) ∧
  (s.memc.bulkEn = true ∧ s.memc.cmEn = true ∧ s.memc.interval = 0x400 ∧
    (s.memc.wCluster, s.memc.wCobbler, s.memc.wPort, s.memc.wTg) = (6, 6, 4, 0)) ∧
  (∀ g o, (s.part g).sync.obj o = pairOf 16 0 ∧ (s.part g).sync.inHand = pairOf 16 0 ∧ (s.part g).sync.out = pairOf 16 0 ∧
    (s.part g).sync.stranded = pairOf 16 0) ∧
  (∀ g, (s.part g).ctl.state = 0 ∧ (s.part g).mon.hangAction = 1 ∧ (s.part g).mon.hangTicks = 0x7A12) ∧
  s.partRegs.drainLimit = 0x3E8 ∧ s.dog.leaseState = 0 ∧ s.dog.queue = [] ∧ s.pending = []

/-- Soundness (Safety.lean) is kept by every step, from every sound state. -/
def Obligations.StepKeepsSound : Prop := ∀ s t : State, Sound s → step s = .next t → Sound t

/-- No command, on any operands and in any state, ends in a fault or a refusal. -/
def Obligations.EveryCommandAnswered : Prop := ∀ (c : Instr) (s : State), ∃ t, exec c s = .next t

/-- No command changes the queue of waiting commands or the fuses (R29), moves the clock back, or takes back a message sent. -/
def Obligations.CommandKeepsQueueAndHistory : Prop :=
  ∀ (c : Instr) (s t : State), Sound s → exec c s = .next t →
    t.pending = s.pending ∧ t.fuses = s.fuses ∧ s.clk ≤ t.clk ∧ s.freeCtr ≤ t.freeCtr ∧ s.tx <+: t.tx

/-- R9: a write to the METER window (0x000E_0000 to 0x000E_FFFF, R6), by any path, completes and changes nothing: neither the
meter nor anything else but the clock. -/
def Obligations.MeterWindowTakesNoWrite : Prop :=
  ∀ (s : State) (p : Path) (addr value at_ : Nat), 0xE0000 ≤ addr → addr < 0xF0000 →
    (∀ width, exec (.registerWrite p width addr value at_) s = .next (s.atClk at_)) ∧
    exec (.pairedWriteWord p addr value at_) s = .next (s.atClk at_)

/-- R7: an access of another width or alignment, or at or above 0x0012_0000, completes without effect and returns 0. -/
def Obligations.RegisterAccessesOutsideTheSpaceDoNothing : Prop :=
  (∀ (s : State) (p : Path) (width addr value at_ : Nat), width ≠ 4 ∨ addr % 4 ≠ 0 ∨ 0x120000 ≤ addr →
    exec (.registerWrite p width addr value at_) s = .next (s.atClk at_)) ∧
  ∀ (s : State) (p : Path) (addr at_ : Nat), addr % 4 ≠ 0 ∨ 0x120000 ≤ addr →
    exec (.pairedReadLatch p addr at_) s = .next ((s.atClk at_).send (.data stOk [0, 0, 0, 0]))

/-- Writes of RW fields (R10) with rsvd bits ignored (R11): TICK_SLIP_MAX (R64), and hang_action and hang_ticks of a partition
(R383; hang_action 3 keeps the field, the model's own, notes/assumptions/53.md). -/
def Obligations.RegisterFieldsTakeWhatIsWritten : Prop :=
  (∀ (s : State) (p : Path) (v at_ : Nat), v < 2 ^ 32 →
    exec (.registerWrite p 4 0x10030 v at_) s =
      .next { s.atClk at_ with tick := { s.tick with slipMax := v % 256 } }) ∧
  ∀ (s : State) (p : Path) (g v at_ : Nat), g < 64 → v < 2 ^ 32 → v / 2 ^ 24 % 4 ≠ 3 →
    exec (.registerWrite p 4 (0x30100 + 16 * g) v at_) s =
      .next ((s.atClk at_).modMon g fun m => { m with hangAction := v / 2 ^ 24 % 4, hangTicks := v % 2 ^ 24 })

/-- R15: a read of +0 latches the pair for its path; a read of another word of it within 64 clk returns the latched word, and
later, or with no latch, the stored one. -/
def Obligations.PairedReadsComeFromOneLatch : Prop :=
  (∀ (s : State) (p : Path) (base n at_ : Nat), base % 4 = 0 → pairAt base = some (base, n, 0) →
    exec (.pairedReadLatch p base at_) s =
      .next ({ s.atClk at_ with
        latches := (s.latches.filter fun (x : PairLatch) => !(x.path == pathNo p && x.base == base)) ++
          [(⟨pathNo p, base, (List.range n).map fun i => (s.atClk at_).readReg (base + 4 * i), (s.atClk at_).clk⟩ : PairLatch)] }.send
          (.data stOk (leBytes 4 ((s.atClk at_).readReg base))))) ∧
  (∀ (s : State) (p : Path) (addr base n i w at_ : Nat) (l : PairLatch), addr % 4 = 0 → pairAt addr = some (base, n, i) → i ≠ 0 →
    (s.latches.find? fun x => x.path == pathNo p && x.base == base) = some l → l.words[i]? = some w →
    (s.atClk at_).clk ≤ l.at_ + 64 →
    exec (.pairedReadLatch p addr at_) s = .next ((s.atClk at_).send (.data stOk (leBytes 4 w)))) ∧
  ∀ (s : State) (p : Path) (addr base n i at_ : Nat), addr % 4 = 0 → pairAt addr = some (base, n, i) → i ≠ 0 →
    (∀ l, (s.latches.find? fun x => x.path == pathNo p && x.base == base) = some l → l.at_ + 64 < (s.atClk at_).clk) →
    exec (.pairedReadLatch p addr at_) s = .next ((s.atClk at_).send (.data stOk (leBytes 4 ((s.atClk at_).readReg addr))))

/-- R16 on the two words of LEDGER_RB_EPOCH (0x0005_0010, R307): the start of a sequence at any pair, its completion, a wrong
complement and a word out of turn. -/
def Obligations.PairedWritesTakeEffectOnTheFinalWord : Prop :=
  (∀ (s : State) (p : Path) (addr n v at_ : Nat), addr % 4 = 0 → addr < 0x120000 → addr / 0x10000 ≠ 0xE → v < 2 ^ 32 →
    pairAt addr = some (addr, n, 0) → Tab.find s.pairSeqs (pathNo p) = none →
    exec (.pairedWriteWord p addr v at_) s =
      .next { s.atClk at_ with pairSeqs := Tab.set s.pairSeqs (pathNo p) ⟨addr, [v]⟩ }) ∧
  (∀ (s : State) (p : Path) (v w at_ : Nat), v < 2 ^ 32 → w < 2 ^ 32 → Tab.find s.pairSeqs (pathNo p) = some ⟨0x50010, [v]⟩ →
    exec (.pairedWriteWord p 0x50014 w at_) s =
      .next (if w = 2 ^ 32 - 1 - v then
          { s.atClk at_ with
            pairSeqs := Tab.erase s.pairSeqs (pathNo p), ledRegs := { s.ledRegs with rbEpoch := pairOf 32 v } }
        else { s.atClk at_ with pairSeqs := Tab.erase s.pairSeqs (pathNo p) }.report 0 7 stPairBroken)) ∧
  ∀ (s : State) (p : Path) (w at_ : Nat), Tab.find s.pairSeqs (pathNo p) = none →
    exec (.pairedWriteWord p 0x50014 w at_) s = .next ((s.atClk at_).report 0 7 stPairBroken)

/-- R51 and R53: which beacons are accepted, and what an accepted and a discarded one leave. That `aligned` reads 1 for an error
of at most 8 clk is the model's own reading of R50 (notes/assumptions/52.md). -/
def Obligations.BeaconIsAcceptedOrCounted : Prop :=
  (∀ (s : State) (port : Nat) (b : Beacon) (at_ : Nat), b.echo = false → b.tickN = not64 b.tick →
    (b.tick = s.tickNo ∨ s.tick.everAligned = false ∨ s.tick.adoptNext = true) → b.periodUs = s.tick.period →
    port = s.tick.upstream → port ≠ 0x3F →
    ∃ t, exec (.beaconReceive port b at_) s = .next t ∧
      LinkOnly { s.atClk at_ with tick := t.tick } t ∧
      t.tick.number = (if s.tick.everAligned && !s.tick.adoptNext then s.tick.number else pairOf 64 b.tick) ∧
      t.tick.rootId = b.rootId ∧ t.tick.everAligned = true ∧ t.tick.adoptNext = false ∧ t.tick.holdover = false ∧
      t.tick.drop = s.tick.drop ∧
      let e : Int := ((s.atClk at_).clk : Int) - ((s.tick.lastEdge + median s.tick.delays : Nat) : Int)
      t.tick.corr = max (-4) (min 4 e) ∧ (t.tick.aligned = true ↔ -8 ≤ e ∧ e ≤ 8)) ∧
  ∀ (s : State) (port : Nat) (b : Beacon) (at_ : Nat),
    b.echo = true ∨ b.tickN ≠ not64 b.tick ∨ (b.tick ≠ s.tickNo ∧ s.tick.everAligned = true ∧ s.tick.adoptNext = false) ∨
      b.periodUs ≠ s.tick.period ∨ port ≠ s.tick.upstream →
    ∃ t, exec (.beaconReceive port b at_) s = .next t ∧
      LinkOnly { s.atClk at_ with tick := { s.tick with drop := (s.tick.drop + 1) % 2 ^ 32 } } t ∧
      (b.tickN ≠ not64 b.tick → ∃ u : State, u.dog = s.dog ∧ u.tick = t.tick ∧ t = u.report 0 1 stPairBroken)

/-- RELOCK (R53) and the end of holdover (R52, R66). -/
def Obligations.RelockClearsAlignedAndAdoptsNext : Prop :=
  (∀ s : State, exec .relock s =
    .next { s with tick := { s.tick with aligned := false, adoptNext := true, onBackup := false } }) ∧
  (∀ s : State, s.tick.holdover = true → s.tick.aligned = true → s.tick.holdoverMax ≤ s.tick.holdoverTicks →
    exec .holdoverExpire s =
      .next (if s.tick.backupPort ≠ 0x3F ∧ s.tick.onBackup = false then
          { s with tick := { s.tick with onBackup := true, holdoverTicks := 0 } }
        else { s with tick := { s.tick with aligned := false } }.report 0 1 stLinkDown noPart noCtx s.tick.upstream)) ∧
  ∀ s : State, s.tick.holdover = false ∨ s.tick.aligned = false ∨ s.tick.holdoverTicks < s.tick.holdoverMax →
    exec .holdoverExpire s = .next s

/-- ECHO_SEND and ECHO_RECEIVE (R49, R50). -/
def Obligations.EchoMeasuresTheRoundTrip : Prop :=
  (∀ (s : State) (b : Beacon) (at_ : Nat), s.tick.lastBeacon = some b → 256 ≤ s.tick.ticksSinceEcho →
    exec (.echoSend at_) s =
      .next ({ s.atClk at_ with tick := { s.tick with ticksSinceEcho := 0 } }.giveCell s.tick.upstream 0
        (.beacon { b with echo := true, turnaround := min 0xFFFF ((s.atClk at_).clk - s.tick.lastBeaconClk) }))) ∧
  (∀ (s : State) (at_ : Nat), s.tick.lastBeacon = none ∨ s.tick.ticksSinceEcho < 256 →
    exec (.echoSend at_) s = .next (s.atClk at_)) ∧
  ∀ (s : State) (port : Nat) (b : Beacon) (e : Nat × Nat × Nat) (at_ : Nat),
    (s.tick.beaconSent.find? fun e => e.1 == port && e.2.1 == b.tick) = some e →
    ∃ t, exec (.echoReceive port b at_) s = .next t ∧
      LinkOnly { s.atClk at_ with tick := { s.tick with
        delayBack := Tab.set s.tick.delayBack port (((s.atClk at_).clk - e.2.2 - b.turnaround) / 2) } } t

/-- R54: the arm and its two refusals; R56, R66: the disarm. An arm of a released or withheld context stores S and changes
nothing else, the model's own (notes/assumptions/23.md); the last clause of the arm is R297's move to replaying. -/
def Obligations.StartArmAcceptsOnlyWithLead : Prop :=
  (∀ (s : State) (S c : Nat), s.tick.startCtx = c → (s.start c).state ≠ 3 → (s.start c).state ≠ 6 →
    ((s.tick.aligned = false ∨ (s.load c).state ≠ 4) →
      exec (.startArm S) s =
        .next ({ s with tick := { s.tick with startAt := pairOf 64 S } }.modStart c fun x => { x with state := 5 })) ∧
    (s.tick.aligned = true → (s.load c).state = 4 → S < s.tickNo + 2 + s.rampTicks c →
      exec (.startArm S) s =
        .next ({ s with tick := { s.tick with startAt := pairOf 64 S } }.modStart c fun x => { x with state := 4 })) ∧
    (s.tick.aligned = true → (s.load c).state = 4 → s.tickNo + 2 + s.rampTicks c ≤ S →
      let t := { s.modStart c fun _ => { state := 1, s := S, p1 := s.p1 c } with
        tick := { s.tick with startAt := pairOf 64 S }, gov := { s.gov with ballastCtx := some c } }
      exec (.startArm S) s =
        .next (if (s.led c).state = 5 ∧ (s.led c).settled = true ∧ (s.led c).needTail = false then
          t.modLed c fun l => { l with state := 6 } else t))) ∧
  (∀ (s : State) (S : Nat), (s.start s.tick.startCtx).state = 3 ∨ (s.start s.tick.startCtx).state = 6 →
    exec (.startArm S) s = .next { s with tick := { s.tick with startAt := pairOf 64 S } }) ∧
  ∀ (s : State) (c : Nat), exec (.startDisarm c) s =
    .next (if (s.start c).state = 1 ∨ (s.start c).state = 2 ∨ (s.start c).state = 6 then
        { s.modStart c fun x => { x with state := 0 } with
          tick := { s.tick with startCtx := c }, gov := { s.gov with ballastCtx := some c } }
      else { s with tick := { s.tick with startCtx := c } })

/-- TICK_PERIOD (R64, R66), MEM_ARB (R204) and GLB_DET (R273, R278): what is stored and what is discarded. -/
def Obligations.CheckedWritesStoreOrAreDiscarded : Prop :=
  (∀ (s : State) (v : Nat), exec (.tickPeriodWrite v) s =
    .next (if 4 ≤ v % 128 ∧ v % 128 ≤ 64 ∧ ∀ e ∈ s.starts, e.2.state ≠ 1 ∧ e.2.state ≠ 2 ∧ e.2.state ≠ 3 then
        { s with tick := { s.tick with periodNext := some (v % 128) } }
      else { s with tick := { s.tick with periodRefused := true } })) ∧
  (∀ (s : State) (a b c d : Nat), a < 16 → b < 16 → c < 16 → d < 16 →
    exec (.memArbWrite (4096 * a + 256 * b + 16 * c + d)) s =
      .next (if a + b + c + d = 16 then { s with memc := { s.memc with arbNext := some (a, b, c, d) } }
        else { s with memc := { s.memc with arbRefused := true } })) ∧
  ∀ (s : State) (v : Nat), exec (.deterministicWrite v) s =
    .next (if ∃ e ∈ s.loads, e.2.state = 4 then { s with glb := { s.glb with detRefused := true } }
      else { s with glb := { s.glb with
        deterministic := decide (v % 2 = 1), detRefused := s.glb.detRefused && decide (v / 2 % 2 = 0),
        digestStale := s.glb.digestStale || (decide (v % 2 = 1) != s.glb.deterministic) } })

/-- R159, R161, R172, R173, R207, R215: RECORD_DISPATCH, RECORD_WAIT_MET, RECORD_RETIRE and STEP_END_MARK. -/
def Obligations.RecordsAreDispatchedStartedAndRetired : Prop :=
  (∀ (s : State) (g n at_ c r : Nat) (w : Where), s.mayIssue g = some c → (s.run c).stopped = false →
    (s.clu (18 * g + n)).segOpen = true → (s.clu (18 * g + n)).ended = false →
    ((s.atClk at_).fetchRec (agentOf c g n 4 0) (s.partIndex c g) n (s.clu (18 * g + n)).pos).2.1 = some (w, r) →
    ∃ v, MemOnly (s.atClk at_) v ∧ exec (.recordDispatch g n at_) s =
      .next (if recKind r = 2 ∨ 4 ≤ ((s.clu (18 * g + n)).queued (recUnit r)).length then v
        else v.modClu (18 * g + n) fun y => { y with
          pos := y.pos + 1, queue := y.queue ++ [{
            idx := (s.clu (18 * g + n)).pos, unit := recUnit r, rec_ := r, instr := w.instr, rep := w.rep,
            disp := (s.atClk at_).clk }] })) ∧
  (∀ (s : State) (g n u at_ c : Nat) (q : Queued) (rest : List Queued), s.mayIssue g = some c → (s.run c).stopped = false →
    (s.clu (18 * g + n)).queued u = q :: rest → (s.clu (18 * g + n)).unitFree u = true → u ≠ 3 →
    s.brokenWait g (waitNeeds q.rec_) = none →
    let r : Run := {
      idx := q.idx, unit := u, rec_ := q.rec_, instr := q.instr, rep := q.rep, disp := q.disp,
      taken := ((waitNeeds q.rec_).map (·.2)).foldl (· + ·) 0, mask := (s.arith c).stopMask }
    exec (.recordWaitMet g n u at_) s =
      .next (if s.waitsMet g (waitNeeds q.rec_) then
          ((((s.atClk at_).takeTokens g (waitNeeds q.rec_)).modClu (18 * g + n) fun y => { y with
            queue := y.queue.filter fun (x : Queued) => x.idx != q.idx, runs := y.runs ++ [r] })).beginRecord c g n r
        else s.atClk at_)) ∧
  (∀ (s : State) (g n idx at_ c : Nat) (r : Run), s.residentOf g = some c →
    ((s.clu (18 * g + n)).runs.find? fun r => r.idx == idx && r.finished) = some r → recKind r.rec_ ≠ 5 →
    let u := ((s.atClk at_).modClu (18 * g + n) fun cl => { cl with
      runs := cl.runs.filter fun (x : Run) => x.idx != idx }).handDown g r.taken
    exec (.recordRetire g n idx at_) s =
      .next ((if r.status ≠ 0 then u.strand g r.taken else if recKind r.rec_ = 6 then u
        else (recSigs r.rec_).foldl (fun t e => t.give c g e.1 e.2) u).progress g)) ∧
  ∀ (s : State) (g n c r : Nat) (w : Where), s.mayIssue g = some c → s.nextRec c g n = some (w, r) → recKind r = 2 →
    markEnd r = true → (s.clu (18 * g + n)).segOpen = true → (s.clu (18 * g + n)).ended = false → s.segDone c g n = true →
    exec (.stepEndMark g n) s = .next (s.modClu (18 * g + n) fun y => { y with ended := true, segOpen := false })

/-- R60, R126, R127, R130, R154, R155, R167: PASS_ISSUE, AWL_TILE_ISSUE and BANK_DRAIN. -/
def Obligations.MatrixAndAwlWorkFoldsAndDrains : Prop :=
  (∀ (s : State) (g n u at_ c i : Nat) (r : Run) (pass : Pass), s.mayIssue g = some c → u ≤ 1 →
    bitOf s.gov.gated (18 * g + n) = false → (s.clu (18 * g + n)).active u = some r →
    let s1 := s.atClk at_
    let k := 18 * g + n
    let j := s1.job c g n r
    let d1 := s1.last j.ag j.t.lastIdx
    let d2 := s1.last j.ag (j.t.lastIdx + 1)
    let ps := j.passes r.tile d1 d2
    let bands := if pass.second then d2 else d1
    let key := j.statKey r.idx r.tile pass
    let co := j.bankCo pass
    let fetch := if r.next == 0 && j.tileIdx r.tile j.redDim == 0 then s1.fetchTile j r.tile else (0, s1)
    let cl := fetch.2.clu k
    let lp := (cl.lastPass[u]?).getD (0, 0, 0)
    let x := fetch.2.runPass j k r.idx r.tile (fun t o => (j.bandAt pass bands t o).map fun b => j.bandRange r.tile pass d1 b)
      (cl.bank i).accs r.partials
    s1.stageFree c g n r = true → ps[r.next]? = some pass → fetch.1 = 0 →
    (((unitBanks u).find? fun i => (cl.bank i).state == 1 && (cl.bank i).idx == r.idx && (cl.bank i).tile == r.tile &&
        (cl.bank i).so == pass.so && (cl.bank i).co == co).orElse fun _ =>
      (unitBanks u).find? fun i => (cl.bank i).state == 0) = some i →
    (lp.2.1 = 0 ∨ lp.1 + max lp.2.1 (j.sMin r.tile pass bands (lp.2.2 == key)) ≤ fetch.2.clk) → x.1 = none →
    let more := (ps.drop (r.next + 1)).any fun q => q.so == pass.so && j.bankCo q == co
    let side := if r.next == 0 then (j.span r.tile 1).2 * (j.span r.tile j.colDim).2 * j.outliers.length else 0
    let t := ((x.2.2.countOps c (j.passOps pass bands).1 (j.passOps pass bands).2).countOps c 0 side).modClu k fun cl => { cl with
      banks := cl.banks.set i {
        state := if more then 1 else 2, idx := r.idx, tile := r.tile, so := pass.so, co := co,
        lastPass := r.tile * 2 ^ 24 + r.next, accs := x.2.1 },
      lastPass := cl.lastPass.set u (x.2.2.clk, pass.sHi - pass.sLo, key) }
    exec (.passIssue g n u at_) s =
      .next (if r.next + 1 < ps.length then t.modRunOf k r.idx fun y => { y with next := r.next + 1 }
        else t.advance j k r (r.tile + 1))) ∧
  (∀ (s : State) (g n u at_ c : Nat), s.mayIssue g = some c → bitOf s.gov.gated (18 * g + n) = true →
    exec (.passIssue g n u at_) s = .next (s.atClk at_)) ∧
  (∀ (s : State) (g n at_ c : Nat) (r : Run), s.mayIssue g = some c → (s.clu (18 * g + n)).active 2 = some r →
    ((s.clu (18 * g + n)).bank 4).state = 0 →
    let s1 := s.atClk at_
    let k := 18 * g + n
    let j := s1.job c g n r
    let fetch := if j.tileIdx r.tile j.redDim == 0 then s1.fetchTile j r.tile else (0, s1)
    let sp := j.span r.tile j.redDim
    let top := if sp.1 + sp.2 == j.t.red then j.padEnd else sp.1 + sp.2
    let x := fetch.2.runPass j k r.idx r.tile (fun _ _ => some (sp.1, top)) [] r.partials
    s1.stageFree c g n r = true → fetch.1 = 0 → x.1 = none →
    exec (.awlTileIssue g n at_) s =
      .next (((x.2.2.countOps c 4 ((j.span r.tile 1).2 * (j.span r.tile j.colDim).2 * (top - sp.1))).modClu k fun cl => { cl with
        banks := cl.banks.set 4 { state := 2, idx := r.idx, tile := r.tile, lastPass := r.tile * 2 ^ 24, accs := x.2.1 } }).advance
          j k r (r.tile + 1))) ∧
  ∀ (s : State) (g n u at_ c i : Nat) (r : Run), s.mayIssue g = some c → (s.clu (18 * g + n)).completeBank u = some i →
    ((s.clu (18 * g + n)).runs.find? fun r => r.idx == ((s.clu (18 * g + n)).bank i).idx) = some r →
    let b := (s.clu (18 * g + n)).bank i
    let k := 18 * g + n
    let j := (s.atClk at_).job c g n r
    let s1 := (s.atClk at_).modClu k fun cl => { cl with banks := cl.banks.set i ({} : Bank) }
    let d := (s1.modRunOf k r.idx fun x => { x with
      partials := b.accs.foldl (fun q e => Tab.erase q e.1) x.partials, tilesDone := x.tilesDone + 1 }).drainBank j k r.idx
        (b.tile / j.perProblem) (2 ^ 64) b.accs
    exec (.bankDrain g n u at_) s =
      .next (if (j.span b.tile j.redDim).1 + (j.span b.tile j.redDim).2 ≠ j.t.red then
          (s1.modRunOf k r.idx fun x => { x with
            partials := b.accs.foldl (fun q e => Tab.set q e.1 e.2) x.partials }).checkDone k r.idx
        else match d.1 with
          | some st => d.2.endRun k r.idx st true
          | none => d.2.checkDone k r.idx)

/-- R48: the number rises by one at every edge and wraps from 2^64 − 1 to 0; R53: beyond edges only an adopted beacon, or a new
power-on, changes it. (Laws/Follows*.lean retargeted to the pair of the tick number goes through for every operation but those
named here.) -/
def Obligations.TickNumberCountsOnceAtAnEdge : Prop :=
  (∀ (s t : State) (at_ work room : Nat) (bad ext : Bool), s.tick.number.ok = true → s.tick.due ≤ (s.atClk at_).clk →
    exec (.tickEdge at_ work room bad ext) s = .next t → t.tick.number = pairOf 64 ((s.tickNo + 1) % 2 ^ 64)) ∧
  ∀ (s t : State) (c : Instr), exec c s = .next t →
    (match c with
      | .tickEdge .. | .beaconReceive .. | .registerWrite .. | .pairedWriteWord .. | .usbWrite .. | .mgmtWrite ..
      | .vAonValid | .vAonLoss | .brownOut .. | .thermalTrip .. | .updActivate .. | .updRevert .. | .trialTimerExpire .. => True
      | _ => t.tick.number = s.tick.number)

/-- R48, R50, R57: the stages of TICK_EDGE in the order of notes/assumptions/51.md; R60: GOVERNOR_ENERGY_CHECK. -/
def Obligations.EdgeDoesItsWorkInOneOrder : Prop :=
  (∀ (s : State) (at_ work room : Nat) (bad ext : Bool), s.tick.due ≤ (s.atClk at_).clk → s.tick.number.ok = true →
    ∃ u v, u = (s.atClk at_).closeFrame s.tickNo ∧
      v = { u with tick := ({ u.tick with
        number := pairOf 64 (wrapAdd 64 u.tickNo 1), lastEdge := u.clk, ticksSinceEcho := u.tick.ticksSinceEcho + 1 } : Tick).holdoverEdge } ∧
      (u.tick.number.ok = true → exec (.tickEdge at_ work room bad ext) s =
        .next (((((v.edgeWrites.governorClose work room).feedForwardEdge.edgeSegments.edgeFrames).quietTicks
          (v.edgeWrites.governorClose work room).feedForwardEdge.edgeSegments.excused).updEdge bad).sampleFaultN ext).readiness)) ∧
  (∀ (s : State) (at_ work room : Nat) (bad ext : Bool), (s.atClk at_).clk < s.tick.due →
    exec (.tickEdge at_ work room bad ext) s = .next (s.atClk at_)) ∧
  (∀ (s : State) (running i : Nat), i < 1152 →
    min (s.gov.pEst * 100 + s.limitMw) (s.powerCap * 100) < running * 100 → bitOf s.gov.gated i = false →
    (∀ j < i, bitOf s.gov.gated j = true) →
    exec (.governorEnergyCheck running) s = .next { s with gov := { s.gov with
      running := running, checks := s.gov.checks + 1, gated := s.gov.gated + 2 ^ i } }) ∧
  ∀ (s : State) (running i : Nat), i < 1152 →
    running * 100 ≤ min (s.gov.pEst * 100 + s.limitMw) (s.powerCap * 100) → bitOf s.gov.gated i = true →
    (∀ j < i, bitOf s.gov.gated j = false) →
    exec (.governorEnergyCheck running) s = .next { s with gov := { s.gov with
      running := running, checks := s.gov.checks + 1, gated := s.gov.gated - 2 ^ i } }

/-- R117, R145, R146, R147, R150, R151, R249, R252, R255, R256: ARITH_CLEAR, CODEBOOK_CALIBRATE, DRIFT_SAMPLE,
COBBLER_QUEUE_ENTER, COBBLER_UPDATE and COBBLER_EMIT. -/
def Obligations.CobblerAndMonitorWork : Prop :=
  (∀ (s : State) (c : Nat), exec (.arithClear c) s = .next { s with ariths := Tab.set s.ariths c (s.arith c).clear }) ∧
  (∀ (s : State) (c instr grp : Nat),
    let im := s.image c
    let ag : Agent := { ctx := c, loc := 0, unit := 2, instr := instr }
    let fr := s.readRange ag 0 (im.place 1 + 64 * instr) 64
    let p : CobP := ⟨leNat fr.2.1⟩
    let w := s.wset ag p.ws
    let C := (s.chList c).length
    let rows := (List.range p.rows).filter fun j => (p.n0 + j) / w.group == grp
    let x := rows.foldl (fun (acc : Nat × List (List Nat) × State) j =>
      if acc.1 != 0 then acc
      else
        let h := acc.2.2.slabRead ag p.hiRow p.rec2 (j % C) (j / C) (2 * p.k) C
        (h.1, acc.2.1 ++ [(List.range p.k).map fun k => leAt h.2.1 (2 * k) 2], h.2.2)) (0, [], fr.2.2)
    let b := x.2.2.readRange ag 0 (w.book * 64 + 64 * grp) 64
    let ol := b.2.2.readRange ag 0 (w.side * 64) (4 * w.outliers)
    let s1 := ol.2.2.modArith c fun a => { a with calibRuns := satAdd 0xFFFF a.calibRuns 1 }
    im.calibEvery ≠ 0 → (s.run c).step % im.calibEvery = 0 → fr.1 = 0 → recKind p.r = 4 → p.narrow = true → w.fmt ≠ .tern →
    x.1 = 0 → b.1 = 0 → ol.1 = 0 →
    exec (.codebookCalibrate c instr grp) s =
      .next (match calibrate (calHist x.2.1 ((List.range w.outliers).map fun i => leAt ol.2.1 (4 * i) 4)) (codebookOf w.fmt b.2.1) with
        | some v => (s1.writeRange ag 0 (w.book * 64 + 64 * grp) (codebookBytes v)).2
        | none => (s1.modArith c fun a => { a with calibKept := satAdd 0xFFFF a.calibKept 1 }).report 0 5 stCalibKept noPart c 0 instr)) ∧
  (∀ (s : State) (g n idx blk c : Nat) (r : Run), s.residentOf g = some c →
    ((s.clu (18 * g + n)).runs.find? fun r => r.idx == idx && recKind r.rec_ == 1 && !r.stopped) = some r →
    (s.job c g n r).side = .codes → (s.job c g n r).t.transposed = false → (s.job c g n r).w.trip ≠ 0 →
    (sampledBlocks (s.job c g n r).w (s.run c).step).contains blk = true →
    let j := s.job c g n r
    let blocks := sampledBlocks j.w (s.run c).step
    let bs := (blocks.takeWhile (· != blk)).length
    let os := ((List.range 128).map (128 * blk + ·)).filter (· < j.t.n)
    let x := (List.range j.t.p).foldl (fun (acc : Val × Val) p => (List.range j.t.m).foldl (fun (acc : Val × Val) t =>
      os.foldl (fun (acc : Val × Val) o =>
        let u := s.narrowElem j p t o
        let ur := s.refElem j p t o bs
        let d := (fl32 j.t.sat (u.add ur.flip).1).1.abs
        ((add32 j.t.sat acc.1 d).1, (add32 j.t.sat acc.2 ur.abs).1)) acc) acc) (negZero, negZero)
    let lim := (mul32 j.t.sat (scDecode j.w.limit).1 x.2).1
    let exceed := x.1.isNan || x.2.isNan || lim.lt x.1 || (x.2.isZero && posZero.lt x.1)
    let ratio := if x.1.isZero && x.2.isZero then 0 else (ffBF.encode j.t.sat (x.1.div x.2).1).1
    exec (.driftSample g n idx blk) s =
      .next (((s.countOps c 0 (j.t.p * j.t.m * os.length * j.t.k)).modDrift c j.w.slot fun d =>
        let e := if exceed then satAdd 255 d.exceed 1 else d.exceed
        { d with
          samples := satAdd 255 d.samples 1, exceed := e, lastRatio := ratio, tripped := d.tripped || decide (j.w.trip ≤ e) }).modArith c fun a => { a with
            samplesTotal := satAdd 0xFFFF a.samplesTotal 1 })) ∧
  (∀ (s : State) (ch : Nat) (e : CobPass) (rest : List CobPass), (s.chan ch).cobWait = e :: rest →
    let s1 := s.modChan ch fun x => { x with cobWait := rest, cobQueue := x.cobQueue ++ [e] }
    exec (.cobblerQueueEnter ch) s = .next (if 4 ≤ (s.chan ch).cobQueue.length then s
      else (if s1.passWaits e then s1
        else s1.modRunOf (18 * e.g + e.n) e.idx fun (r : Run) => { r with issued := true }).cobBegin ch)) ∧
  (∀ (s : State) (ch q : Nat) (e : CobPass) (r : Run), s.cobRunning ch 2 = some (e, r, q) →
    let p : CobP := ⟨r.rec_⟩
    let C := (s.chList e.ctx).length
    let ag : Agent := { ctx := e.ctx, loc := ch, unit := 5, instr := r.instr, gpart := e.g }
    let pag := agentOf e.ctx e.g e.n 4 r.instr
    let x := (List.range (p.recs C q)).foldl (fun (acc : Nat × Nat × State) i =>
      if acc.1 != 0 then acc
      else
        let y := acc.2.2.cobRecord ag p r q C i ch
        (y.1, acc.2.1 + y.2.1, y.2.2)) (0, 0, s)
    let s1 := ((x.2.2.ledgerSlot ag r q C x.2.1).slotWord pag p.progCm q 1 x.2.1).modChan ch fun ct => { ct with
      cobElements := min 0xFFFFFFFF x.2.1 }
    exec (.cobblerUpdate ch) s =
      .next (if x.1 ≠ 0 then s1.cobEnd e x.1 (x.1 == stArith || x.1 == stRsvdEncoding)
        else if p.op = 0 then s1.slotDone e pag p ch q x.2.1
        else s1.modChan ch fun ct => { ct with cobPhase := 3, cobElements := 0 })) ∧
  ∀ (s : State) (ch q : Nat) (e : CobPass) (r : Run), s.cobRunning ch 3 = some (e, r, q) →
    let p : CobP := ⟨r.rec_⟩
    let C := (s.chList e.ctx).length
    let ag : Agent := { ctx := e.ctx, loc := ch, unit := 5, instr := r.instr, gpart := e.g }
    let pag := agentOf e.ctx e.g e.n 4 r.instr
    let w := s.wset ag p.ws
    let fallen := p.narrow && w.trip != 0 && (s.drift e.ctx w.slot).fallen
    let f := if fallen then (Fmt.ofCode w.fbCode).getD .bf16 else (Fmt.ofCode p.emitC).getD .bf16
    let x := (List.range (p.recs C q)).foldl (fun (acc : Nat × Nat × State) i =>
      if acc.1 != 0 then acc
      else
        let y := acc.2.2.emitRecord ag p w f (p.narrow && !fallen) r q C i
        (y.1, acc.2.1 + (if y.1 == 0 then p.k else 0), y.2)) (0, 0, s)
    let mons := if p.narrow && w.trip != 0 && !fallen then
        (List.range (p.recs C q)).filter fun i => (sampledBlocks w (leAt r.blob 40 4)).contains ((p.n0 + q + i * C) / 128)
      else []
    let s1 := (mons.foldl (fun (acc : Nat × State) i =>
      let h := acc.2.slabRead ag p.hiRow p.rec2 q i (2 * p.k) C
      (acc.1 + 1, if h.1 == 0 then h.2.2.slabWrite ag p.monRow p.rec2 q acc.1 C h.2.1 else h.2.2)) (0, x.2.2)).2
    let s2 := ((s1.countOps e.ctx 7 x.2.1).slotWord pag p.progCm q 2 x.2.1).modChan ch fun ct => { ct with
      cobElements := min 0xFFFFFFFF x.2.1 }
    exec (.cobblerEmit ch) s =
      .next (if x.1 ≠ 0 then s2.cobEnd e x.1 (x.1 == stArith || x.1 == stRsvdEncoding)
        else s2.slotDone e pag p ch q x.2.1)

/-- R182, R184, R192, R193, R196, R197, R286, R314, R372: WINDOW_WRITE, GRANULE_READ, ECC_WRITEBACK, GRANULE_WRITE and SCRUB_ACCESS. -/
def Obligations.MemoryCommandsAct : Prop :=
  (∀ (s : State) (c value : Nat), s.windowRefusal c (winMask value) = none →
    let s0 := { s with loader := if s.loader.busy == some c then { s.loader with winChanged := true } else s.loader }
    let s1 := s0.modMemCtx c fun m => { m with win := pairOf 32 (winMask value) }
    exec (.windowWrite c value) s =
      .next (if bitOf (winMask value) 31 then s1.clearRows (s1.chList c) (fld (winMask value) 17 9) (fld (winMask value) 8 0) else s1)) ∧
  (∀ (s : State) (c value st : Nat), s.windowRefusal c (winMask value) = some st →
    exec (.windowWrite c value) s =
      .next { s with memc := { s.memc with winRefused := true, lastRefusal := st, refusedCtx := c % 1024 } }) ∧
  (∀ (s : State) (c g n unit space addr : Nat) (ups : List (Nat × Nat)),
    let ag := reqAgent c g n unit
    (s.locOf ag space addr = none →
      exec (.granuleRead c g n unit space addr ups) s =
        .next ((s.memFault ag stOutOfWindow space addr).send (.data stOutOfWindow []))) ∧
    (∀ key, s.locOf ag space addr = some key → s.walled ag key = true →
      exec (.granuleRead c g n unit space addr ups) s = .next ((s.wallFault ag).send (.data stFenced []))) ∧
    ∀ key, s.locOf ag space addr = some key → s.walled ag key = false →
      let r := (s.upset (granOf key) ups).readGran (granOf key)
      MemOnly (s.upset (granOf key) ups) r.2 ∧ exec (.granuleRead c g n unit space addr ups) s =
        .next (if r.1 = stOk then
            r.2.send (.data stOk ((List.range (granSize (granOf key))).map fun i => r.2.peek (granKey (granOf key) + i)))
          else (r.2.memFault ag r.1 space addr).send (.data r.1 []))) ∧
  (∀ (s : State) (cm : Bool) (idx : Nat) (w : WriteBack),
    s.memc.writeBacks.find? (fun w => if cm then decide (lineBase ≤ w.granule) && (w.granule - lineBase) / 32768 == idx
      else decide (w.granule < lineBase) && w.granule / rowsPerChan == idx) = some w →
    let s1 := { s with memc := { s.memc with writeBacks := s.memc.writeBacks.filter fun x => x != w } }
    exec (.eccWriteback cm idx) s =
      .next (if Tab.get s.ecc w.word 0 = 2 then s1.poison w.granule else { s1 with ecc := Tab.erase s.ecc w.word })) ∧
  (∀ (s : State) (c g n unit space addr : Nat) (bytes : List Byte),
    let held := if space == 0 then
        ((granPieces 0 addr bytes.length).filterMap fun p => (s.bulkLoc c p.1).map granOf).find? s.cowFull else none
    exec (.granuleWrite c g n unit space addr bytes) s =
      .next (if space = 0 ∧ s.locked c addr bytes.length = true then s
        else match held with
          | some gk => s.urge gk
          | none => (s.writeRange (reqAgent c g n unit) space addr bytes).2)) ∧
  (∀ (s : State) (idx bank at_ : Nat) (ups : List (Nat × Nat)), s.memc.cmEn = true → bank < 8 →
    let due := (((s.clu idx).scrubClk[bank]?).getD 0) + s.memc.interval
    exec (.scrubAccess true idx bank at_ ups) s =
      .next (if due ≤ (s.atClk at_).clk then (s.atClk at_).scrubLine idx bank ups else s.atClk at_)) ∧
  ∀ (s : State) (idx bank at_ : Nat) (ups : List (Nat × Nat)), s.memc.bulkEn = true →
    let due := (s.chan idx).scrubClk + s.memc.interval
    exec (.scrubAccess false idx bank at_ ups) s =
      .next (if due ≤ (s.atClk at_).clk then (s.atClk at_).scrubBulk idx ups else s.atClk at_)

/-- R184, R192, R196: a write inside one granule by the table of states, and a read of a granule written whole. -/
def Obligations.GranuleWritesFollowTheStateTable : Prop :=
  ∀ (s : State) (c g n unit space addr key : Nat) (bs : List Byte), Memory.wf s.mem = true → bs ≠ [] → space ≤ 1 →
    (space = 0 → s.locked c addr bs.length = false) → s.heldAt (granOf key) = none →
    s.locOf (reqAgent c g n unit) space addr = some key → s.walled (reqAgent c g n unit) key = false →
    addr / (if space = 1 then 64 else 256) = (addr + bs.length - 1) / (if space = 1 then 64 else 256) →
    granKey (granOf key) ≤ key → key + bs.length ≤ granKey (granOf key) + granSize (granOf key) →
    ∃ t, exec (.granuleWrite c g n unit space addr bs) s = .next t ∧ MemOnly s t ∧
      (∀ i, ∀ h : i < bs.length, Memory.get t.mem (key + i) = bs[i]) ∧
      (∀ k, granKey (granOf key) ≤ k → k < granKey (granOf key) + granSize (granOf key) → (k < key ∨ key + bs.length ≤ k) →
        Memory.get t.mem k = if s.granState (granOf key) = 0 ∨ s.granState (granOf key) = 1 then 0 else Memory.get s.mem k) ∧
      (∀ k, (k < granKey (granOf key) ∨ granKey (granOf key) + granSize (granOf key) ≤ k) →
        Memory.get t.mem k = Memory.get s.mem k) ∧
      (∀ q, t.granState q = if q = granOf key then
          (if s.granState (granOf key) = 3 ∧ bs.length ≠ granSize (granOf key) then 3 else 2) else s.granState q) ∧
      (bs.length = granSize (granOf key) → exec (.granuleRead c g n unit space addr []) t = .next (t.send (.data stOk bs)))

/-- R192, R199, R200, R286, R314, R402, R404: RETRIEVER_COPY, RETRIEVER_FILL_ZEROS, RETRIEVER_DEFINE_ZERO, RETRIEVER_INVALIDATE
and UNIT_ACCEPT. -/
def Obligations.RetrieverTransfersRunToTheirProgressWord : Prop :=
  ∀ (s : State) (g n at_ c : Nat), s.mayIssue g = some c →
    let s1 := s.atClk at_
    let k := 18 * g + n
    (∀ r, (s.clu k).descriptor 0 = some r →
      let d : RetD := ⟨r.rec_⟩
      (d.dstSpace < 2 → d.srcSpace < 2 →
        let x := (s1.beginRet c g n r).copyRows c g n r d
        exec (.retrieverCopy g n at_) s = .next (x.2.2.giveUnits k r.idx x.1 x.2.1)) ∧
      (d.dstSpace < 2 → 2 ≤ d.srcSpace → s1.portDeny c d.srcSpace d.qp = 0 →
        exec (.retrieverCopy g n at_) s =
          .next (((s1.beginRet c g n r).modRunOf k r.idx fun y => { y with aux := [0, 0, 0, 0, 0] }).pumpPorts))) ∧
    (∀ r, (s.clu k).descriptor 1 = some r →
      let d : RetD := ⟨r.rec_⟩
      exec (.retrieverFillZeros g n at_) s =
        .next ((s1.beginRet c g n r).giveUnits k r.idx ((List.range d.rows).flatMap fun row =>
          unitsOf d.dstSpace (s1.retAddr c g n r.rep d.dstSpace (d.dst + row * d.dstPitch)) (zeros (d.rowUnits * 64)) true) 0)) ∧
    (∀ r, (s.clu k).descriptor 2 = some r → exec (.retrieverDefineZero g n at_) s = .next (s1.retState c g n 1 r)) ∧
    (∀ r, (s.clu k).descriptor 3 = some r → exec (.retrieverInvalidate g n at_) s = .next (s1.retState c g n 0 r)) ∧
    ∀ (r : Run) (u : UnitW) (us : List UnitW),
      ((s.clu k).runs.find? fun r => recKind r.rec_ == 3 && !r.units.isEmpty) = some r → r.units = u :: us →
      let d : RetD := ⟨r.rec_⟩
      let ag := retAgent c g n r
      let waits := !s1.canWrite u.space d.qp || (u.space == 0 && s1.locked c u.addr u.bytes.length)
      (waits = true → exec (.unitAccept g n at_) s = .next s1) ∧
      (waits = false → (u.space = 0 → ∀ key, s1.bulkLoc c u.addr = some key → s1.cowFull (key / 256) = false) →
        let w := s1.takeUnit ag d.qp u
        let prog := r.prog + b2n u.counts
        let s2 := (w.2.writeProg ag d.progCm prog).progress g
        exec (.unitAccept g n at_) s =
          .next (if w.1 ≠ 0 then w.2.endRun k r.idx w.1
            else (if u.space == 3 then s2.qpHeard d.qp else s2).modRunOf k r.idx fun x => { x with
              units := us, prog := prog, finished := x.issued && us.isEmpty }))

/-- R202, R203, R204: TG_START, TG_STOP and TG_RUN_END. -/
def Obligations.TrafficGeneratorRunsAndStops : Prop :=
  (∀ (s : State) (ch : Nat) (fails : List (Nat × Nat × Nat)),
    (s.tgRefused ch = true → exec (.tgStart ch fails) s =
      .next (s.modChan ch fun c => { c with tg := { c.tg with lastStatus := stTgBusy } })) ∧
    (s.tgRefused ch = false →
      let t := (s.chan ch).tg
      let s1 := s.modChan ch fun c => { c with tg := { c.tg with
        busy := true, errCount := 0, errValid := false, passesDone := 0, stopping := false } }
      let s2 := ((List.range (max 1 t.passes)).foldl (fun (acc : State × Nat) _ => acc.1.tgPass ch acc.2) (s1, t.seed)).1.modChan ch
        fun c => { c with tg := { c.tg with passesDone := min 0xFFFF (max 1 t.passes) } }
      exec (.tgStart ch fails) s = .next (if t.mode = 0 then s2.tgFails ch fails else s2))) ∧
  (∀ (s : State) (ch : Nat), exec (.tgStop ch) s =
    .next (s.modChan ch fun c => { c with tg := { c.tg with stopping := c.tg.busy } })) ∧
  ∀ (s : State) (ch : Nat) (fails : List (Nat × Nat × Nat)), (s.chan ch).tg.busy = true →
    let t := (s.chan ch).tg
    let s1 := (if t.mode = 0 then s.tgFails ch fails else s).modChan ch fun c => { c with tg := { c.tg with
      busy := false, done := true, stopping := false, lastStatus := if c.tg.errCount == 0 then stOk else stTgMismatch } }
    exec (.tgRunEnd ch fails) s = .next (if t.mode ≠ 1 then s1.clearRows [ch] t.baseK t.countK else s1)

/-- R172, R206, R213, R214, R215: LOCAL_SEND_APPLY, REMOTE_SEND_APPLY and SEND_ACK_RECEIVE move tokens and neither make nor
lose any. -/
def Obligations.SendsMoveTheirTokensOnce : Prop :=
  ∀ (s : State) (id at_ : Nat) (e : Send), s.sendOf id = some e → e.due ≤ max s.clk at_ → 0 < e.tokens →
    (e.remote = false → e.tokens ≤ (s.part e.src).sync.inHand.nat →
      ((s.part e.src).sync.obj e.obj).ok = true → (s.part e.src).sync.frozen.contains e.obj = false →
      ((s.part e.src).sync.obj e.obj).nat + e.tokens ≤ 0xFFFF →
      ∃ t, exec (.localSendApply id at_) s = .next t ∧ t.sendOf id = none ∧
        (t.part e.src).sync.inHand.nat = (s.part e.src).sync.inHand.nat - e.tokens ∧
        (∀ o, ((t.part e.src).sync.obj o).nat = ((s.part e.src).sync.obj o).nat + if o = e.obj then e.tokens else 0) ∧
        (t.part e.src).sync.out = (s.part e.src).sync.out ∧ (t.part e.src).sync.stranded = (s.part e.src).sync.stranded ∧
        ∀ g, g ≠ e.src → (t.part g).sync = (s.part g).sync) ∧
    (e.remote = true → e.phase = 0 → s.cutOff e.dst = false →
      ((s.part e.dst).sync.obj e.obj).ok = true → (s.part e.dst).sync.frozen.contains e.obj = false →
      ((s.part e.dst).sync.obj e.obj).nat + e.tokens ≤ 0xFFFF →
      ∃ t, exec (.remoteSendApply id at_) s = .next t ∧
        t.sendOf id = some { e with phase := 1, due := t.clk + 32 + 24 * e.hops } ∧
        (∀ o, ((t.part e.dst).sync.obj o).nat = ((s.part e.dst).sync.obj o).nat + if o = e.obj then e.tokens else 0) ∧
        (t.part e.dst).sync.inHand = (s.part e.dst).sync.inHand ∧ (t.part e.dst).sync.out = (s.part e.dst).sync.out ∧
        (t.part e.dst).sync.stranded = (s.part e.dst).sync.stranded ∧ ∀ g, g ≠ e.dst → (t.part g).sync = (s.part g).sync) ∧
    (e.remote = true → e.phase = 0 → s.cutOff e.dst = true → (s.part e.dst).sync.stranded.nat + e.tokens ≤ 0xFFFF →
      ∃ t, exec (.remoteSendApply id at_) s = .next t ∧
        t.sendOf id = some { e with phase := 1, due := t.clk + 32 + 24 * e.hops } ∧
        (t.part e.dst).sync = { (s.part e.dst).sync with
          stranded := pairOf 16 ((s.part e.dst).sync.stranded.nat + e.tokens) } ∧
        ∀ g, g ≠ e.dst → (t.part g).sync = (s.part g).sync) ∧
    (e.remote = true → e.phase = 1 → e.tokens ≤ (s.part e.src).sync.out.nat →
      ∃ t, exec (.sendAckReceive id at_) s = .next t ∧ t.sendOf id = none ∧
        (t.part e.src).sync = { (s.part e.src).sync with out := pairOf 16 ((s.part e.src).sync.out.nat - e.tokens) } ∧
        ∀ g, g ≠ e.src → (t.part g).sync = (s.part g).sync)

/-- R211, R216, R217, R221: STEP_BOUNDARY_CENSUS, SYNC_CENSUS and SYNC_RESEED (the times by notes/assumptions/13.md). -/
def Obligations.CensusAndReseedCommandsRun : Prop :=
  (∀ (s : State) (c at_ : Nat), s.stepOver c = true →
    let r := (s.atClk at_).takeCensus c true
    let s1 := r.2.atClk ((s.atClk at_).clk + 289)
    exec (.stepBoundaryCensus c at_) s = .next (if r.1 = true then s1.barrier c else s1)) ∧
  (∀ (s : State) (c at_ : Nat), s.stepOver c = false → exec (.stepBoundaryCensus c at_) s = .next (s.atClk at_)) ∧
  ∀ (s : State) (c : Nat),
    let s1 := { s with sync := { s.sync with cmdCtx := c } }
    let r := s1.takeCensus c false
    (s.syncRefused c = false →
      exec (.syncCensus c) s =
        .next { r.2 with sync := { r.2.sync with lastStatus := if r.1 then stOk else stCensus, busyTo := s.clk + 289 } } ∧
      exec (.syncReseed c) s =
        .next { r.2.reseedAll c with sync := { (r.2.reseedAll c).sync with
          lastStatus := if r.1 then stOk else stCensus, busyTo := s.clk + 545 } }) ∧
    (s.syncRefused c = true → ∀ i ∈ [Instr.syncCensus c, .syncReseed c],
      exec i s = .next { s with sync := { s.sync with cmdCtx := c, cmdRefused := true } })

/-- R233, R234, R235, R239, R240, R242, R372, R402: LOAD_GO, LOAD_FETCH_DATA, LOAD_CHECK, LOAD_ABORT, UNLOAD and DEFERRED_UNLOAD. -/
def Obligations.LoadsAndUnloadsRunOrAreRefused : Prop :=
  (∀ (s : State) (src q c at_ : Nat),
    let s1 := { s.atClk at_ with loader := { s.loader with src := src, qp := q, ctx := c } }
    (s1.goOk c = false → exec (.loadGo src q c at_) s = .next (s1.loadReject c 0x2F 0)) ∧
    (s1.goOk c = true →
      let s2 := { s1 with loader := { s1.loader with
        busy := some c, curSrc := src, curQp := q, curLen := s.loader.len, curAddr := s.loader.addr.nat,
        curRankCount := s.loader.rankCount, curRankBase := s.loader.rankBase, bytes := [], pieces := [], asked := 0,
        winChanged := false } }.modLoad c fun x => { x with state := if s.loader.len == 0 then 2 else 1 }
      (s.fencedOff c = true → exec (.loadGo src q c at_) s = .next (s2.endLoad c stFenced 0 0 noIndex 0)) ∧
      (s.fencedOff c = false → 2 ≤ src → s2.portDeny c src q = 0 → exec (.loadGo src q c at_) s = .next s2.pumpPorts))) ∧
  (∀ (s : State) (tag status at_ : Nat) (bs : List Byte) (t : PortTag), s.tagOf tag = some t → t.op = 1 →
    exec (.loadFetchData tag status at_ bs) s = .next ((s.atClk at_).loadAnswer t status bs)) ∧
  (∀ (s : State) (at_ c : Nat), s.loader.busy = some c → (s.load c).state = 2 →
    let im := { Image.parse s.loader.bytes with rankBase := s.loader.curRankBase }
    exec (.loadCheck at_) s = .next (match (s.atClk at_).checkLoad c im with
      | some r => (s.atClk at_).rejectLoad c r.1 r.2.1 r.2.2 0
      | none => (s.atClk at_).commitLoad c im)) ∧
  (∀ (s : State) (c at_ : Nat),
    let s1 := { s.atClk at_ with loader := { s.loader with ctx := c } }
    (exec (.loadAbort c at_) s = .next (if s.loader.busy = some c then s1.endLoad c stAborted 0 0 noIndex 0
      else s1.modLoad c fun l => { l with status := stAlreadyDone, reason := 0 })) ∧
    (s.loader.busy = some c → exec (.unload c at_) s = .next (s1.endLoad c stAborted 0 0 noIndex 0)) ∧
    (s.loader.busy ≠ some c → (s.load c).state ≠ 4 →
      exec (.unload c at_) s = .next (s1.modLoad c fun l => { l with status := stAlreadyDone, reason := 0 })) ∧
    (s.loader.busy ≠ some c → (s.load c).state = 4 → s.loadBusy = false →
      exec (.unload c at_) s = .next (if s1.released c = true ∧ (s.run c).stopped = false then
          (s1.modLoad c fun l => { l with state := 5 }).modRun c fun r => { r with unloadDue := true }
        else s1.doUnload c))) ∧
  ∀ (s : State) (c at_ : Nat),
    exec (.deferredUnload c at_) s = .next
      (if (s.run c).unloadDue = true ∧ ((s.run c).inStep = false ∨ (s.run c).stopped = true) then (s.atClk at_).doUnload c
       else s.atClk at_)

/-- R266, R267, R268, R270, R329 to R333: FABRIC_PACKET_RECEIVE, ACCEPT_RECEIVE, PACKET_ROUTE and REDUCE_STAGE. -/
def Obligations.PacketsAreDeliveredParkedOrSentOn : Prop :=
  (∀ (s : State) (p v : Nat) (k : Packet), s.hasCells p v k = true →
    let h : HeldPkt := ⟨p, v, (s.port p).gen, k⟩
    (s.mine k = false → exec (.fabricPacketReceive p v k) s = .next (s.forward h)) ∧
    (s.mine k = true →
      (s.slotOfJob k.job = none → exec (.fabricPacketReceive p v k) s = .next (s.dropForeign h).retryHeld) ∧
      ∀ slot, s.slotOfJob k.job = some slot →
        (s.ctxOfRank slot k.rank = none → exec (.fabricPacketReceive p v k) s = .next (s.dropForeign h).retryHeld) ∧
        ∀ c, s.ctxOfRank slot k.rank = some c →
          let behind := epochDiff k.epoch (s.job_ slot).epoch.nat
          (behind < 0 → exec (.fabricPacketReceive p v k) s = .next (s.dropStale h c).retryHeld) ∧
          (0 < behind → exec (.fabricPacketReceive p v k) s =
            .next (if 64 < (s.job_ slot).cells + 1 + k.data.length / 64 then s.hold h
              else (s.freePkt h).modJob slot fun j => { j with park := j.park ++ [(p, k)] }).retryHeld) ∧
          (behind = 0 → k.typ = 0x10 → exec (.fabricPacketReceive p v k) s =
            .next (match s.takeUnitPkt c k with
              | .done t => t.freePkt h
              | .wait => s.hold h).retryHeld) ∧
          (behind = 0 → k.typ = 0x13 → k.group ≠ 0xFFF → ∀ i ∈ [Instr.fabricPacketReceive p v k, .acceptReceive p v k],
            exec i s = .next ((s.accepted c k.group k.phase k.stage k.rank k.aux).freePkt h).retryHeld) ∧
          (behind = 0 → k.typ = 0x13 → k.group = 0xFFF → ∀ i ∈ [Instr.fabricPacketReceive p v k, .acceptReceive p v k],
            exec i s = .next ((s.ledgerAccept c k.phase k.aux).freePkt h).retryHeld))) ∧
  (∀ (s : State) (i : Nat) (k : Packet), s.fab.waiting[i]? = some k →
    let s1 := { s with fab := { s.fab with waiting := s.fab.waiting.eraseIdx i } }
    (s.mine k = true → exec (.packetRoute i) s = .next (s1.arrive ⟨63, pktVc k, 256, k⟩).retryHeld) ∧
    (s.mine k = false → exec (.packetRoute i) s = .next (match s.routeTo k with
      | none => s1.report 0 9 stNoRoute
      | some none => s.maskDown k.dstDev
      | some (some p) => s1.givePacket p (pktVc k) k))) ∧
  ∀ (s : State) (g n idx m st c : Nat) (r : Run), s.mayIssue g = some c →
    ((s.clu (18 * g + n)).runs.find? fun r => r.idx == idx && recKind r.rec_ == 5 && r.begun && !r.finished) = some r →
    let x := s.phaseOf c g n r
    exec (.reduceStage g n idx m st) s =
      .next (if x.p.op = 2 ∧ m ∈ x.here ∧ st < x.plan.length then s.sendStage x m st else s)

/-- R282, R287, R289, R290, R291, R308, R372: LEDGER_TRANSFER_RECEIVE, VOTE_RECEIVE, VOTE_TIMEOUT, DECISION_RECEIVE, DECISION_TIMEOUT
and MIRROR_CONFIRMED_RECEIVE. -/
def Obligations.LedgerTransfersVotesAndDecisionsAreTaken : Prop :=
  ∀ (s : State) (c : Nat), (s.led c).state ≠ 0 →
    let l := s.led c
    (∀ (kind step digest : Nat) (bytes : List Byte), l.wardDev ≠ 0xFFF → s.fencedOff c = true →
      exec (.ledgerTransferReceive c kind step bytes digest) s = .next (s.ledFenced c)) ∧
    (∀ (kind step digest : Nat) (bytes : List Byte), l.wardDev ≠ 0xFFF → s.fencedOff c = false →
      let ok (t : State) : State := (t.modLed c fun l => { l with lastStatus := stOk }).acceptTo c l.wardDev step (ceilDiv bytes.length 2048)
      (dg bytes ≠ digest → exec (.ledgerTransferReceive c kind step bytes digest) s =
        .next ((s.modLed c fun l => { l with lastStatus := stDigestMismatch }).report 1 7 stDigestMismatch noPart c)) ∧
      (dg bytes = digest → kind = 0 → exec (.ledgerTransferReceive c kind step bytes digest) s =
        .next (ok ((s.ledWrite c (s.wardSlot c step) bytes).modLed c fun l => { l with
          wardRecs := l.wardRecs.filter (fun (j : Nat) => j != step) ++ [step] }))) ∧
      (dg bytes = digest → kind ≠ 0 → exec (.ledgerTransferReceive c kind step bytes digest) s =
        .next (if (l.wardGrads.any fun j => j != step && j % l.k == step % l.k) = true then s
          else ok ((s.ledWrite c ((l.retRow + step % l.k * l.gRows) * s.rowBytes c) bytes).modLed c fun l => { l with
            wardGrads := l.wardGrads.filter (fun (j : Nat) => j != step) ++ [step] })))) ∧
    (∀ v : Vote, v.stepN = not64 v.step →
      (l.state = 2 → l.verdict = none → v.step ≤ l.voteStep → (l.votes.any fun x => x.member == v.member) = false →
        exec (.voteReceive c v) s = .next ((s.modLed c fun l => { l with votes := l.votes ++ [v] }).tryVerdict c)) ∧
      (l.voteStep < v.step → exec (.voteReceive c v) s = .next (s.modLed c fun l => { l with
        early := l.early.filter (fun (x : Vote) => x.member != v.member || x.step != v.step) ++ [v] }))) ∧
    (exec (.voteTimeout c) s = .next (if l.state = 2 ∧ l.verdict = none ∧ l.voteTick + 4096 ≤ s.tickNo then
        (s.formVerdict c).tryOwn c else s)) ∧
    (exec (.decisionTimeout c) s = .next (if l.state = 2 ∧ l.decision = none ∧ l.voteTick + 4096 ≤ s.tickNo then
        s.decide_ c false false else s)) ∧
    (∀ (from_ step at_ : Nat) (yes due : Bool),
      exec (.decisionReceive c true from_ step yes due at_) s =
        .next (if l.state = 2 ∧ l.decision = none ∧ step = l.voteStep then
          ((s.atClk at_).decide_ c yes due).decisionDown c step yes due else s.atClk at_) ∧
      let s1 := (s.atClk at_).modLed c fun l => { l with
        ups := l.ups.filter (fun u => u.1 != step || u.2.1 != from_) ++ [(step, from_, yes, due)] }
      exec (.decisionReceive c false from_ step yes due at_) s = .next (if l.state = 2 then s1.treeUp c else s1)) ∧
    ∀ step, exec (.mirrorConfirmedReceive c step) s = .next (if step ≠ l.confirmed.nat then s
      else s.modLed c fun l => { l with
        mirrorValid := true, state := if l.state == 3 then (if step < l.replayTo then 6 else 1) else l.state })

/-- R281, R292, R293, R295, R296, R298, R299, R302, R304, R306, R307, R320: the ledger's recovery commands. -/
def Obligations.LedgerRollsBackAndRestores : Prop :=
  ∀ (s : State) (c : Nat),
    let l := s.led c
    (∀ at_,
      let s1 := { s.atClk at_ with ledRegs := { s.ledRegs with ctx := c } }
      (l.state ∉ [1, 2, 3, 6] → exec (.ledgerRollback c at_) s = .next (s1.ledRefuse (openStatus 5))) ∧
      (l.state ∈ [1, 2, 3, 6] →
        let need := l.ownRows != 0 && !s1.clean c l.confirmed.nat
        let s2 := { s1 with ledRegs := { s1.ledRegs with lastStatus := stOk } }.quiesce c
        let i := s1.memberOf c l.jobGroup
        exec (.ledgerRollback c at_) s = .next (if i = 0 then s2
          else s2.treeMsg c l.jobGroup (treeAbove i)
            (leBytes 8 l.confirmed.nat ++ leBytes 8 (not64 l.confirmed.nat) ++ leBytes 1 3 ++ leBytes 1 (b2n need))))) ∧
    (∀ (target at_ : Nat) (needTail lost : Bool), l.state = 4 →
      let s0 := s.atClk at_
      let s1 := if l.confirmed.nat < target then (s0.confirmStep c target).modLed c fun x => { x with mirrorValid := l.mirrorValid } else s0
      let s2 := if lost = true then
          (if (s1.ckpt c).state == 2 || (s1.ckpt c).state == 3 then s1.ckptEnd c stAborted 0 else s1).modLed c fun x =>
            { x with mirrorValid := false, seeded := false }
        else s1
      exec (.rollbackExchange c target needTail lost at_) s =
        .next (if (s2.led c).state = 7 then s2 else s2.settleShard c target needTail)) ∧
    (∀ (bytes : List Byte) (digest : Option Nat), l.state ≠ 0 → l.wardValid = true →
      exec (.mirrorRestore c 0 bytes digest) s = .next (s.streamTo c l.wardDev 2 l.wardStep (s.mirrorBytes c))) ∧
    (∀ (bytes : List Byte) (digest : Option Nat), l.state = 5 → l.settled = false → l.seeded = true → s.fencedOff c = false →
      let total := (l.ownRows + l.sideRows) * s.rowBytes c
      let bs := bytes.take (total - l.streamed)
      let n := l.streamed + bs.length
      let s1 := ((s.ledWrite c (l.ownRow * s.rowBytes c + l.streamed) bs).modLed c fun x => { x with streamed := n }).setXfer c 2 (n / 64)
      exec (.mirrorRestore c 1 bytes digest) s = .next (match digest with
        | none => s1
        | some d => if n < total then s1 else if dg (s1.shardBytes c) == d then s1.settled c else s1.streamBad c 2 6)) ∧
    (∀ (copy : List Byte), l.needTail = true → (s.run c).tail = false →
      ((l.state = 5 ∧ l.settled = true) ∨ (l.state = 1 ∧ s.notStarted c = true ∧ (s.run c).inStep = false)) →
      let j := if l.state == 1 then l.confirmed.nat else l.target
      let r := s.targetRecord c j copy
      exec (.tailReplay c copy) s = .next (match r.1 with
        | none => if j == l.c0 then s.startTail c else r.2.halt c 3
        | some b => ((List.range (leAt b 112 2)).foldl (fun t p =>
            t.ledWrite c ((⟨leAt b (256 + 128 * p) 64⟩ : CobP).hyper * 64) (slice b (256 + 128 * p + 64) 64))
            (r.2.ledWrite c (l.seedAddr * 64) (slice b 48 64))).startTail c)) ∧
    (∀ (target : Nat) (records banks : List (Nat × List Byte)) (weights : List Byte), l.state ∈ [1, 4, 5] → s.notStarted c = true →
      let s1 := records.foldl (fun t e => t.ledWrite c (s.ownSlot c e.1) e.2) s
      let replays := records.filter fun e => target < e.1
      let s2 := (s1.modRun c fun r => { r with step := target + 1, boundary := true, inStep := false }).modLed c fun x => { x with
        state := 5, target := target, confirmed := pairOf 64 target, settled := x.ownRows == 0, seeded := x.ownRows != 0,
        held := replays.map (·.1), replayTo := replays.foldl (fun a e => max a e.1) target, streamed := 0, failed := 0 }
      let ok := replays.all fun e => match banks.find? fun b => b.1 == e.1 with
        | some b => dg b.2 == leAt e.2 32 16
        | none => false
      exec (.spareTakeover c target records banks weights) s = .next
        (if ok = true then
          (replays.foldl (fun t e => match banks.find? fun b => b.1 == e.1 with
            | some b => t.ledWrite c (s.inBank c e.1).1 b.2
            | none => t) s2).fillWeights c weights
        else s2.halt c 5)) ∧
    (∀ (step : Nat) (bytes : List Byte) (digest : Option Nat), l.state ≠ 0 → l.partnerDev ≠ 0xFFF → l.ownRows ≠ 0 →
      exec (.mirrorSeeding c 0 step bytes digest) s = .next (((s.modLed c fun x => { x with mirrorValid := false, seeded := false }).streamTo
        c l.partnerDev 3 l.confirmed.nat (s.shardBytes c)).setXfer c 3 0)) ∧
    (∀ (step : Nat) (bytes : List Byte), l.state ≠ 0 → l.wardDev ≠ 0xFFF → s.fencedOff c = false →
      let n := l.streamed + bytes.length
      exec (.mirrorSeeding c 1 step bytes none) s = .next (((s.ledWrite c (l.mirRow * s.rowBytes c + l.streamed) bytes).modLed c
        fun x => { x with wardValid := false, streamed := n, wardRows := n / s.rowBytes c }).setXfer c 3 (n / 64))) ∧
    (∀ (step d : Nat) (bytes : List Byte), l.state ≠ 0 → l.partnerDev ≠ 0xFFF →
      exec (.mirrorSeeding c 2 step bytes (some d)) s = .next (if dg (s.shardBytes c) = d then
          (s.modLed c fun x => { x with
            mirrorValid := true, seeded := true, seeds := satAdd 0xFFFF x.seeds 1, lastStatus := stOk }).setXfer c 3
              ((l.ownRows + l.sideRows) * s.rowBytes c / 64)
        else (s.modLed c fun x => { x with lastStatus := stDigestMismatch }).report 1 7 stDigestMismatch noPart c)) ∧
    (l.state ≠ 0 → exec (.ledgerHalt c) s =
      .next ({ s with ledRegs := { s.ledRegs with ctx := c, lastStatus := stOk } }.halt c 7)) ∧
    (exec (.clearStrikes c) s = .next ({ s with ledRegs := { s.ledRegs with ctx := c, lastStatus := stOk } }.modLed c
      fun x => { x with strikes := 0 })) ∧
    ∀ value, s.ledRegs.sel = c →
      let stale : State := { s with glb := { s.glb with digestStale := true } }
      let s1 := stale.modLed c fun x => { x with cfg := x.cfg.set 0 (at' (fld value 30 3) 3) }
      (l.state ≠ 0 → bitOf value 31 = false → exec (.ledgerEnableWrite value) s = .next (stale.modLed c Led.off)) ∧
      (l.state = 0 → bitOf value 31 = false → exec (.ledgerEnableWrite value) s = .next s1) ∧
      (l.state = 0 → bitOf value 31 = true → exec (.ledgerEnableWrite value) s = .next (if s1.canEnable c = true then
          ({ s1 with ledRegs := { s1.ledRegs with lastStatus := stOk } }.modLed c Led.on).modRun c
            fun r => { r with step := (s1.led c).confirmed.nat + 1 }
        else s1.ledRefuse stConfigMismatch))

/-- R309, R312, R314 to R317, R319, R320: CKPT_TAKE, CKPT_TIMER_EXPIRE, CKPT_DRAIN_START, CKPT_UNIT_ACCEPT,
CKPT_DIGEST_TREE_RECEIVE, CKPT_COMPLETION_RECEIVE, CKPT_ABORT and CKPT_RESTORE. -/
def Obligations.CheckpointsAreTakenDrainedAndRestored : Prop :=
  ∀ (s : State) (c : Nat),
    let l := s.led c
    (let s1 := { s with ckptRegs := { s.ckptRegs with ctx := c } }
     exec (.ckptTake c) s = .next (if l.state = 0 ∨ l.ownRows = 0 then s1.ckptRefuse
       else { s1 with ckptRegs := { s1.ckptRegs with lastStatus := stOk } }.modCkpt c fun k => { k with due := true })) ∧
    (∀ at_, (s.ckpt c).timerS ≠ 0 → l.state ≠ 0 → l.ownRows ≠ 0 →
      exec (.ckptTimerExpire c at_) s =
        .next (if (s.ckpt c).lastBegan + (s.ckpt c).timerS * 1100000000 ≤ (s.atClk at_).clk then
          (s.atClk at_).modCkpt c fun k => { k with due := true } else s.atClk at_)) ∧
    (∀ at_,
      let s1 := s.atClk at_
      let k := s.ckpt c
      k.state = 2 → k.started = false → k.startAt ≤ s1.clk → s1.portDeny c 3 k.qp = 0 → s1.canWrite 3 k.qp = true →
      exec (.ckptDrainStart c at_) s =
        .next (((s1.send (.portWrite 3 k.qp k.addr (zeros 512))).modCkpt c fun k => { k with
          started := true, bucket := 1048576 * 1100, bucketAt := s1.clk }).pumpDrain c)) ∧
    (∀ (u at_ : Nat), (s.ckpt c).state = 2 → u ∈ (s.ckpt c).out →
      let s1 := s.atClk at_
      let done := insertAsc u (s.ckpt c).done
      let pre := ((List.range (s1.dataUnits c)).takeWhile fun i => done.contains i).length
      let s2 := (s1.modCkpt c fun k => { k with
        out := k.out.filter (fun (x : Nat) => x != u), done := done, saved := k.saved.filter fun (x : Saved) => x.ord / 16 != u,
        progress := pairOf 32 (at' 1 30 + pre) }).qpHeard (s.ckpt c).qp
      exec (.ckptUnitAccept c u at_) s =
        .next (if s1.dataUnits c ≤ done.length then s2.seal c else s2.pumpDrain c)) ∧
    (∀ (from_ : Nat) (digest : List Byte), (s.ckpt c).state ≠ 0 → (s.ckpt c).state ≠ 4 →
      exec (.ckptDigestTreeReceive c from_ digest) s = .next ((s.modCkpt c fun k => { k with
        tree := k.tree.filter (fun (x : Nat × List Byte) => x.1 != from_) ++ [(from_, digest)] }).digestUp c)) ∧
    (∀ step, exec (.ckptCompletionReceive c step) s =
      .next (if (s.ckpt c).state = 3 ∧ step = (s.ckpt c).step then (s.ckptComplete c).completionDown c step else s)) ∧
    ((s.ckpt c).state = 2 ∨ (s.ckpt c).state = 3 → exec (.ckptAbort c) s =
      .next ({ s with ckptRegs := { s.ckptRegs with ctx := c, lastStatus := stAborted } }.ckptEnd c stAborted 0)) ∧
    ((s.ckpt c).state ≠ 2 → (s.ckpt c).state ≠ 3 → exec (.ckptAbort c) s =
      .next { s with ckptRegs := { s.ckptRegs with ctx := c, lastStatus := stAlreadyDone } }) ∧
    ∀ (slot : Nat) (manifest data : List Byte), l.state = 0 → (s.ckpt c).state = 0 → slot ≤ 1 → s.fencedOff c = false →
      let s0 := { s with ckptRegs := { s.ckptRegs with ctx := c, restoreSlot := slot } }
      let k := s.ckpt c
      let n := s0.dataBytes c
      let s1 := ((s0.send (.portRead 3 k.qp s0.freeTag (k.slotAddr slot) 512)).send
        (.portRead 3 k.qp s0.freeTag (k.slotAddr slot + 4096) n)).modCkpt c fun k => { k with progress := pairOf 32 (at' 2 30) }
      let s2 := (s1.ledWrite c (l.ownRow * s0.rowBytes c) (data.take n)).modCkpt c fun k => { k with
        progress := pairOf 32 (at' 2 30 + s0.dataUnits c) }
      s0.portDeny c 3 k.qp = 0 → s0.manifestOk c manifest = true → n ≤ data.length →
      sha256 (data.take n) = slice manifest 84 32 →
      exec (.ckptRestore c slot 0 manifest data) s =
        .next ((s2.restoreEnd c stOk 0).modLed c fun x => { x with
          ckptRestores := satAdd 0xFFFF x.ckptRestores 1, needTail := true, mirrorValid := false, seeded := false })

/-- R323, R324, R326, R327, R328, R351, R398: FRAME_RECEIVE, LINK_IDLE_TIMEOUT, PORT_DOWN, CENSUS_MARKER_RECEIVE,
PORT_TRAINING_DONE, FULL_SEARCH_RETRY and HELLO_RECEIVE. -/
def Obligations.LinksCarryFramesAndCountThem : Prop :=
  (∀ (s : State) (f : Frame) (at_ : Nat), f.port ≤ 22 → f.vc ≤ 2 → (s.port f.port).live = true →
    let s1 := s.atClk at_
    let x := s.port f.port
    let s2 := s1.modPort f.port fun x => { x with lastFrame := s1.clk }
    let s3 := if f.replay then (s2.takeReturns f).replay f.port f.vc else s2.takeReturns f
    let s4 := s3.modPort f.port fun x => x.modVc f.vc fun y => { y with
      rx := wrapAdd 16 y.rx 1, got := wrapAdd 32 y.got 1, o := pairOf 16 (y.o.nat + 1) }
    (f.crcOk = false → exec (.frameReceive f at_) s =
      .next ((s1.modPort f.port fun x => { x with crcErrors := satAdd 0xFFFFFFFF x.crcErrors 1 }).send
        (.returns f.port f.vc (x.vc f.vc).rx 0 true))) ∧
    (f.crcOk = true → f.gen = x.gen → x.state = 3 →
      LinkOnly s1 s3 ∧ exec (.frameReceive f at_) s = .next (if f.idle = true ∨ f.seq ≠ (x.vc f.vc).rx then s3
        else s4.send (.returns f.port f.vc ((s4.port f.port).vc f.vc).rx 0 false)))) ∧
  (∀ (s : State) (p at_ : Nat), (s.port p).live = true →
    exec (.linkIdleTimeout p at_) s = .next (if (s.atClk at_).clk < (s.port p).lastFrame + 4096 then s.atClk at_
      else (s.atClk at_).portDown p) ∧
    exec (.portDown p at_) s = .next ((s.atClk at_).portDown p)) ∧
  (∀ (s : State) (p v h rs sent at_ : Nat), (s.port p).state = 3 → v ≤ 2 → ((s.port p).vc v).o.nat ≠ 0 →
    let s1 := s.atClk at_
    let y := (s.port p).vc v
    let inFlight := (y.rr.nat + 2 ^ 32 - rs % 2 ^ 32) % 2 ^ 32
    exec (.censusMarkerReceive p v h rs sent at_) s =
      .next (if h + (y.o.nat - 1) + inFlight = y.rpool ∧ (y.got + 2 ^ 32 - 1) % 2 ^ 32 = sent then
          s1.freeBufs p v (s.port p).gen 1
        else ((s1.modPort p fun x => { x with censusFail := satAdd 0xFFFF x.censusFail 1 }).portDown p).portStatus p stCensus)) ∧
  (∀ (s : State) (p width at_ : Nat) (ok : Bool), p < 7 →
      let t := (s.atClk at_).trained p width Config.serial (s.glb.cfgDigest % 2 ^ 64) ok
      exec (.portTrainingDone p width ok at_) s = .next (t.elemSearch (t.port p).search)) ∧
  (∀ (s : State) (p width at_ : Nat) (ok : Bool), 7 ≤ p → p ≤ 22 → (s.port p).state = 1 →
    let s1 := s.atClk at_
    let e := (p - 7) / 8
    let mine := (s.eng e).out.filter fun o => o.key / 16 == (p - 7) % 8
    let t := ((mine.foldl (fun u o => u.laneBack e o.key) s1).modEng e fun x => { x with
      faulty := x.faulty.filter fun f => f.1 / 16 != (p - 7) % 8 }).trained p width Config.serial (s.glb.cfgDigest % 2 ^ 64) ok
    exec (.portTrainingDone p width ok at_) s = .next (t.elemSearch (t.port p).search)) ∧
  (∀ (s : State) (p at_ : Nat), (s.port p).state = 5 →
    exec (.fullSearchRetry p at_) s = .next (if (s.atClk at_).clk < (s.port p).failedAt + 60 * 1100000000 then s.atClk at_
      else (s.atClk at_).modPort p fun x => { x with state := 1, search := true, retrains := satAdd 0xFFFF x.retrains 1 })) ∧
  ∀ (s : State) (p at_ : Nat) (h : Hello), (s.port p).live = true →
    let s1 := s.atClk at_
    let s2 := (if h.serial == (s.port p).peerSerial then s1 else s1.dropKept p).modPort p fun x => { x with
      peerDev := h.dev, peerPort := h.port, peerRole := h.role, peerSerial := h.serial, lastFrame := s1.clk }
    let s3 := if h.digest64 != s.glb.cfgDigest % 2 ^ 64 && !(s.port p).digestTold then
        (s2.modPort p fun x => { x with digestTold := true }).portStatus p stConfigMismatch
      else s2
    LinkOnly s1 s3 ∧ exec (.helloReceive p h at_) s =
      .next (if s3.helloOk (s.port p) h = true then
          (if (s.port p).state = 3 then s3
           else (s3.modPort p fun x => { x.fresh h (s1.advertise p) with state := 3 }).resend p)
        else (s3.modPort p fun x => { x with state := 4 }).portStatus p stTopoMismatch)

/-- R331, R335, R337, R342, R358: the commands and writes of the fabric block. -/
def Obligations.FabricCommandsTakeEffectOrAreRefused : Prop :=
  ∀ (s : State),
    let refused : State := { s with fab := { s.fab with cmdRefused := true, lastStatus := stFabRefused } }
    (exec .fabCommit s = .next (if s.fab.pending = true then refused else { s with fab := { s.fab with pending := true } })) ∧
    (∀ p, p ≤ 22 →
      let s1 := { s with fab := { s.fab with cmdPort := p } }
      let x := s.port p
      exec (.fabRetrain p) s = .next (if x.state = 0 then s1 else s1.portDown p) ∧
      exec (.fabFullSearch p) s = .next (if x.state = 0 then s1 else (s1.portDown p).modPort p fun x => { x with search := true }) ∧
      exec (.fabPortOff p) s = .next { s1.modPort p fun x => { x with
          state := 0, width := 0, search := false, gen := if x.live then wrapAdd 8 x.gen 1 else x.gen } with
        opt := { s.opt with circs := s.opt.circs.filter fun (y : Nat × Circ) => y.1 != p } } ∧
      exec (.fabPortOn p) s = .next (if x.state = 0 then s1.modPort p fun x => { x with state := 1, search := false }
        else if x.state = 4 then s1.portDown p else s1)) ∧
    (∀ p, 22 < p → ∀ i ∈ [Instr.fabRetrain p, .fabFullSearch p, .fabPortOff p, .fabPortOn p],
      exec i s = .next { s with fab := { s.fab with cmdPort := p, cmdRefused := true, lastStatus := stFabRefused } }) ∧
    (∀ value,
      let role := fld value 31 30
      let dev := fld value 11 0
      exec (.fabDevWrite value) s = .next
        (if (s.fab.role = 0 ∧ role = 1 ∧ dev ≠ 0xFFF) ∨ (s.fab.role = 0 ∧ role = 2) ∨ (s.fab.role = 2 ∧ role = 1 ∧ dev ≠ 0xFFF) ∨
            (s.fab.role = 1 ∧ role = 2 ∧ (s.ctxJobs.any fun e => bitOf e.2 31) = false) then
          { s with fab := { s.fab with devNext := some (at' role 30 + if role == 1 then dev else 0xFFF) } }
        else refused)) ∧
    (∀ slot value, exec (.fabJobWrite slot false value) s = .next
      (if ((s.boundTo slot).any fun c => (s.load c).state == 4) = true then refused
       else s.modJob slot fun j => { j with jobId := value % 2 ^ 32 })) ∧
    (∀ slot value, exec (.fabJobWrite slot true value) s = .next
      (if ((s.boundTo slot).any fun c => s.released c) = true then refused else s.installEpoch slot (value % 2 ^ 32))) ∧
    ∀ c value, exec (.fabCtxJobWrite c value) s = .next
      (if (s.load c).state = 0 ∧ s.fab.role = 1 then
        { s.finalFlag c with ctxJobs := Tab.put s.ctxJobs c 0 (at' (fld value 31 31) 31 + fld value 3 0) }
      else refused)

/-- R346 to R348, R350 to R352: ENGINE_SEARCH, ENGINE_SEARCH_CACHED, SEARCH_COMPLETE, LOCK_VISIT, LANE_OUT_REQUEST,
LANE_OUT_REPLY and COMB_LINE_LOW. -/
def Obligations.RingSearchesAndLaneExchanges : Prop :=
  (∀ (s : State) (e : Nat), exec (.engineSearch e) s = .next (s.startSearch e false) ∧
    exec (.engineSearchCached e) s = .next (s.startSearch e true)) ∧
  (∀ (s : State) (e temp : Nat) (buses : List (List Nat × Nat)) (found : Bool), e ≤ 1 → (s.eng e).state = 1 →
    ((s.eng e).cached = true → s.mustSearch e temp found = true → exec (.searchComplete e buses found temp) s =
      .next ((s.modEng e fun x => { x with cached := false, tempC := min 127 temp }).elemSearch true)) ∧
    ((s.eng e).cached = false →
      let s1 := (List.range 16).foldl (fun t i =>
        t.searchBus (16 * e + i) ((buses[i]?).getD ([], 0x3FFFF)).1 ((buses[i]?).getD ([], 0x3FFFF)).2 temp) s
      let s2 := s1.modEng e fun x => { x with
        state := 2, cached := false, tempC := min 127 temp, searches := wrapAdd 16 x.searches 1, out := [], faulty := [] }
      exec (.searchComplete e buses found temp) s = .next (fibres.foldl (fun t i =>
        if popCount 16 (t.laneMask e i) < 8 then
          (t.modPort (fibrePort e i) fun x => { x with state := 5, failedAt := t.clk, lastStatus := stRingSearchFail }).optStatus
            e stRingSearchFail (fibrePort e i)
        else t) s2))) ∧
  (∀ (s : State) (b r : Nat) (err : Int), b ≤ 31 → r ≤ 17 → (s.eng (b / 16)).state = 2 → (s.ring (18 * b + r)).role = 1 →
    let e := b / 16
    let i := 18 * b + r
    let g := s.ring i
    let wide := decide (err < -600 ∨ 600 < err)
    let s1 := s.modRing i fun g => { g with
      err := unsigned 12 (clampI (-2048) 2047 err), missed := if wide then g.missed + 1 else 0,
      heater := heaterFor ((heaterShift g.heater : Int) - clampI (-200) 200 err).toNat }
    let bit := 2 ^ g.wavelength
    exec (.lockVisit b r err) s = .next
      (if wide = true ∧ 1 ≤ g.missed then
        ((((s1.modRing i fun g => { g with missed := 0 }).modBus b fun x => { x with
          locked := if bitOf x.locked g.wavelength then x.locked - bit else x.locked,
          lockLosses := satAdd 0xFFFF x.lockLosses 1 }).modEng e fun x => { x with
            lockLosses := satAdd 0xFFFF x.lockLosses 1 }).optStatus e stLockLost).laneFault e (16 * ((b % 16) / 2) + g.wavelength)
      else s1.modBus b fun x => { x with
        locked := if wide then (if bitOf x.locked g.wavelength then x.locked - bit else x.locked) else x.locked ||| bit })) ∧
  (∀ (s : State) (p w : Nat), 7 ≤ p → p ≤ 22 →
    let s1 := s.takeVc0 p 1
    let e := (p - 7) / 8
    let key := 16 * ((p - 7) % 8) + w
    LinkOnly s s1 ∧
    (∀ fault, w ≤ 15 → (s1.port p).state = 3 →
      let ok := s1.laneIn e key && (fault || (!(s1.eng e).calBusy && !(s1.adc e).manual))
      exec (.laneOutRequest p w fault) s = .next (if ok = true then
          (s1.giveCell p 0 (.laneReply w true)).modEng e fun x => { x with out := x.out ++ [⟨key, fault, s1.tickNo + 2, false⟩] }
        else s1.giveCell p 0 (.laneReply w false))) ∧
    (∀ (accept : Bool) (a : Nat × Bool × Nat), ((s1.eng e).asked.find? fun a => a.1 == key) = some a →
      let s2 := s1.modEng e fun x => { x with asked := x.asked.filter fun (y : Nat × Bool × Nat) => y.1 != key }
      exec (.laneOutReply p w accept) s = .next
        (if accept = true then s2.modEng e fun x => { x with out := x.out ++ [⟨key, a.2.1, a.2.2 + 2, false⟩] }
         else if a.2.1 = true then s2
         else (s2.modEng e fun x => { x with calRetry := x.calRetry ++ [key] }).calNext e)) ∧
    (w ≤ 15 → exec (.combLineLow p w) s = .next (s.laneFault e key)))

/-- R352, R353, R354, R359, R360, R362, R363, R472: CAL_CYCLE_START, CAL_SLOT_END, LASER_LOSS, LASER_RESTORED,
TABLE_MODE_UPDATE, TABLE_MODE_WRITE, ADC_SAMPLE_DONE and ADC_SETTINGS_WRITE. -/
def Obligations.CalibrationLasersAndTableMode : Prop :=
  ∀ (s : State) (e : Nat), e ≤ 1 →
    let x := s.eng e
    (∀ at_, x.calEn = true → x.state = 2 ∨ x.state = 3 →
      let s1 := s.atClk at_
      exec (.calCycleStart e at_) s = .next (if s1.clk < x.calClk + x.calInterval * 1100000000 then s1
        else (s1.modEng e fun x => { x with
          calQueue := fibres.flatMap fun t =>
            if (s1.port (fibrePort e t)).state == 3 || s1.loopedBack e t then (bitsOf 16 (s1.laneMask e t)).map (16 * t + ·) else [],
          calRetry := [], calClk := s1.clk }).calNext e)) ∧
    (∀ (dTx dRx : Int) (key end_ : Nat) (abandoned : Bool), x.calLane = some (key, end_, abandoned) → end_ ≤ s.tickNo →
      let b := busOf e (key / 16) 0
      let s0 := s.modEng e fun x => { x with calLane := none }
      let bad (d : Int) : Bool := d < -400 || 400 < d
      let s1 := s0.modEng e fun x => { x with
        calFail := satAdd 0xFFFF x.calFail 1, out := x.out.map fun o => if o.key == key then { o with fault := true } else o,
        faulty := x.faulty.filter (fun f => f.1 != key) ++ [(key, ((x.faulty.find? fun f => f.1 == key).map (·.2)).getD 0 + 1)] }
      let s2 := [(b, dTx), (b + 1, dRx)].foldl (fun t f =>
        if bad f.2 then t.modBus f.1 fun x => { x with calFails := satAdd 0xFFFF x.calFails 1 } else t) s1
      let tune (t : State) (bus : Nat) (d : Int) : State := match t.ringFor bus (key % 16) with
        | some i => t.relock e i d
        | none => t
      (abandoned = true → exec (.calSlotEnd e dTx dRx) s =
        .next (((s0.laneBack e key).modEng e fun x => { x with calRetry := x.calRetry ++ [key] }).calNext e)) ∧
      (abandoned = false → (bad dTx || bad dRx) = true → exec (.calSlotEnd e dTx dRx) s =
        .next (((s2.modPort (fibrePort e (key / 16)) fun x => { x with degraded := true }).optStatus e stCalFail).calNext e)) ∧
      (abandoned = false → (bad dTx || bad dRx) = false → exec (.calSlotEnd e dTx dRx) s =
        .next ((((tune (tune s0 b dTx) (b + 1) dRx).modEng e fun x => { x with
          calDone := satAdd 0xFFFF x.calDone 1 }).laneBack e key).calNext e))) ∧
    (∀ L, L ≤ 3 →
      exec (.laserLoss e L) s = .next ([2 * L, 2 * L + 1].foldl (fun t i =>
          if (t.port (fibrePort e i)).live && !t.loopedBack e i then t.portDown (fibrePort e i) else t)
        (((s.modEng e fun x => { x with
          laserOk := if bitOf x.laserOk L then x.laserOk - 2 ^ L else x.laserOk }).abandonCal e [2 * L, 2 * L + 1]).optStatus e stLaserLoss)) ∧
      exec (.laserRestored e L) s = .next (s.modEng e fun x => { x with laserOk := x.laserOk ||| 2 ^ L })) ∧
    (∀ t4 : Int, x.tableMode = true →
      let off := decide (t4 < 80 ∨ 320 < t4)
      let k := tableIdx t4
      let f := if off then 0 else (t4.toNat - 80) % 16
      let s1 := (List.range 288).foldl (fun t j =>
        if (t.ring (288 * e + j)).role != 1 then t
        else
          let a := t.opt.table (288 * e + j) k
          let b := t.opt.table (288 * e + j) (min 15 (k + 1))
          if !a.ok || !b.ok then t.report 3 10 stPairBroken
          else t.modRing (288 * e + j) fun g => { g with heater := round16 (a.nat % 4096 * (16 - f) + b.nat % 4096 * f) }) s
      let s2 := s1.modEng e fun x => { x with tempC := min 127 (t4 / 4).toNat, rangeTold := off }
      exec (.tableModeUpdate e t4) s = .next (if off = true ∧ x.rangeTold = false then s2.optStatus e stTableRange else s2)) ∧
    (∀ value,
      let on := bitOf value 29
      let s1 := s.modEng e fun x => { x with
        calEn := bitOf value 28, calTicks := max (fld value 27 20) (calBound s.tick.period), calInterval := max 1 (fld value 11 0) }
      exec (.tableModeWrite e value) s = .next (if on = x.tableMode then s1
        else if s.allOff e = true then s1.modEng e fun x => { x with tableMode := on, state := if on then 3 else 0, rangeTold := false }
        else s1.optRefuse e)) ∧
    (∀ code, exec (.adcSampleDone e code) s = .next (s.modAdc e fun a =>
      let b := { a with
        valid := a.invalid == 0, sFilter := a.cur.1, sGain := a.cur.2.1, sChannel := a.cur.2.2, code := code % 2048,
        samples := wrapAdd 32 a.samples 1, invalid := a.invalid - 1 }
      match a.next with
      | some n => { b with cur := n, next := none, invalid := 3 }
      | none => b)) ∧
    ∀ value,
      let a := s.adc e
      let man := bitOf value 31
      let a1 := { a with
        manual := man, filter := if fld value 30 28 < 6 then fld value 30 28 else a.filter, gain := fld value 27 26,
        bus := fld value 9 5, sel := if fld value 4 0 < 21 then fld value 4 0 else a.sel }
      let want := (a1.filter, a1.gain, at' a1.bus 5 + a1.sel)
      let s1 := s.modAdc e fun _ => if man && want != a.next.getD a.cur then { a1 with next := some want } else a1
      exec (.adcSettingsWrite e value) s = .next (if man = true ∧ a.manual = false then
          s1.modEng e fun x => { x with calLane := x.calLane.map fun c => (c.1, c.2.1, true) }
        else if man = false ∧ a.manual = true then s1.calNext e else s1)

/-- R355 to R358, R362: SWITCH_SLOT_WRITE, MAP_APPLY, PLAN_ENTRY_WRITE and CIRCUIT_IDENT_RECEIVE. -/
def Obligations.SwitchMapsPlansAndCircuits : Prop :=
  (∀ (s : State) (i value : Nat), i ≤ 15 →
    let used := (s.opt.entries (i / 8)).any fun x => fld x.2.1 30 28 == i % 8 && s.released (fld x.2.2 9 0)
    exec (.switchSlotWrite i value) s = .next (if mapOk value = true ∧ used = false then
      { s with opt := { s.opt with slots := s.opt.slots.set i (value % 2 ^ 32) } } else s.mapRefuse (i / 8))) ∧
  (∀ (s : State) (e slot : Nat), e ≤ 1 →
    let s1 := s.modEng e fun x => { x with slot := slot % 8 }
    let t := (s1.eng e).applyAt.nat
    exec (.mapApply e slot) s = .next (if mapOk (s.opt.slot e (slot % 8)) = true ∧ s.tickNo < t then
        s1.modEng e fun x => { x with applyPending := true, applySlot := slot % 8, applyTick := t }
      else (s1.modEng e fun x => { x with applyPending := false }).mapRefuse e)) ∧
  (∀ (s : State) (i word value : Nat), i ≤ 63 →
    let old := Tab.get s.opt.plan i (0, 0)
    let new := if word = 0 then (value % 2 ^ 32, old.2) else (old.1, fld value 9 0)
    let open_ (x : Nat × Nat) : Prop := bitOf x.1 31 = true → (s.load (fld x.2 9 0)).state = 4 ∧ s.released (fld x.2 9 0) = false
    ((open_ old ∧ open_ new ∧ (bitOf new.1 31 = true → s.planBad i new.1 new.2 = false)) →
      exec (.planEntryWrite i word value) s = .next { s with opt := { s.opt with plan := Tab.put s.opt.plan i (0, 0) new } }) ∧
    (¬ (open_ old ∧ open_ new ∧ (bitOf new.1 31 = true → s.planBad i new.1 new.2 = false)) →
      exec (.planEntryWrite i word value) s = .next (s.mapRefuse (i / 32)))) ∧
  ∀ (s : State) (p serial gen at_ : Nat) (last : List Nat), 7 ≤ p → p ≤ 22 → (s.port p).state = 1 →
    mapCode (s.eng ((p - 7) / 8)).swNow ((p - 7) % 8) = 8 →
    exec (.circuitIdentReceive p serial gen last at_) s =
      .next (match s.opt.circs.find? fun y => y.1 == p && y.2.serial == serial && y.2.gen == gen with
        | some y => (s.atClk at_).reopen p y.2 last
        | none => ((s.atClk at_).modEng ((p - 7) / 8) fun x => { x with
            coldOpens := satAdd 0xFFFF x.coldOpens 1 }).optStatus ((p - 7) / 8) stCircuitCold p)

/-- R218, R368, R371, R372, R374, R375, R384: HANG_DETECTED, PART_FENCE, UNIT_FAULT, FENCE_DRAIN_COMPLETE, DRAIN_LIMIT_EXPIRE,
PART_RESET and RESET_PHASE_COMPLETE. The event statuses of a hang and a fence are free (notes/assumptions/22.md), and a hang is
told once a quiet spell (notes/assumptions/14.md). -/
def Obligations.PartitionsAreFencedDrainedAndReset : Prop :=
  ∀ (s : State) (g at_ : Nat),
    let s1 := s.atClk at_
    let m := (s.part g).mon
    let p := (s.part g).ctl
    (m.hangTicks ≠ 0 → m.hangTicks ≤ m.quiet → m.hangTold = false → s.cutOff g = false →
      let t := (s1.modMon g fun m => { m with hangs := satAdd 0xFFFF m.hangs 1, hangTold := true }).report 2 0
        (openStatus 0) g ((s.residentOf g).getD noCtx) (s1.hangDetail g).1 (s1.hangDetail g).2
      (m.hangAction = 0 → exec (.hangDetected g at_) s = .next t) ∧
      (m.hangAction = 1 → exec (.hangDetected g at_) s = .next (t.fence g 1)) ∧
      (m.hangAction = 2 → ∀ c, s.residentOf g = some c → exec (.hangDetected g at_) s = .next (t.stopCtx c))) ∧
    (exec (.partFence g at_) s = .next ({ s1 with partRegs := { s.partRegs with gpart := g, lastStatus := stOk } }.fence g 0)) ∧
    (exec (.unitFault g at_) s = .next (s1.fence g 4)) ∧
    (∀ cause, s.cutOff g = true → s.fence g cause = s) ∧
    (∀ cause, s.cutOff g = false →
      let t1 := s.modCtl g fun p => { p with state := 1, cause := cause, fences := satAdd 0xFFFF p.fences 1, fenceClk := s.clk }
      let cut (t : State) : State :=
        let t2 := ((t.abandon g).fenceCobblers g).modMon g fun m => { m with quiet := 0, hangTold := false }
        { t2 with gov := { t2.gov with ballastCtx := none } }
      (∀ c, s.residentOf g = some c → s.fence g cause = (cut (t1.stopCtx c)).endFenced g) ∧
      (s.residentOf g = none → s.fence g cause = (cut t1).endFenced g)) ∧
    (p.state = 1 → (s.part g).sync.out.nat = 0 → s.openTags g = [] →
      let st := match s.residentOf g with
        | some c => s1.settle c
        | none => (true, s1)
      let t1 := st.2.modCtl g fun p => { p with state := 2, settleFailed := !st.1 }
      let t := t1.report t1.cutSeverity 0 (fenceStatus p.cause st.1) g ((s.residentOf g).getD noCtx) 0 (at' p.cause 28)
      exec (.fenceDrainComplete g at_) s = .next (match p.resetAfter with
        | some full => (t.resetPhase2 g).modCtl g fun q => { q with
            resetAfter := none, fullSearch := full, resets := satAdd 0xFFFF q.resets 1, resetResult := if st.1 then 0 else 3 }
        | none => t)) ∧
    (p.state = 1 → exec (.drainLimitExpire g at_) s = .next
      (if s1.clk < p.fenceClk + s.partRegs.drainLimit * 1100 then s1
       else { s1 with tags := s.tags.map fun (t : PortTag) =>
          if t.g == g && !t.quarantined then { t with quarantined := true, held := true } else t }.modCtl g
        fun p => { p with quarantined := satAdd 0xFFFF p.quarantined (s.openTags g).length })) ∧
    (∀ full,
      let t := { s1 with partRegs := { s.partRegs with gpart := g, fullSearch := full, lastStatus := stOk } }
      (p.state = 0 → exec (.partReset g full at_) s = .next ((t.fence g 5).modCtl g fun p => { p with
        resetAfter := some full, resetClk := s1.clk, phase := 1 })) ∧
      (p.state = 1 → exec (.partReset g full at_) s = .next (t.modCtl g fun p => { p with
        resetAfter := some full, resetClk := s1.clk, phase := 1 })) ∧
      (p.state = 3 → exec (.partReset g full at_) s = .next { t with partRegs := { t.partRegs with
        cmdRefused := true, refuseReason := 5 } }) ∧
      (p.state = 2 ∨ p.state = 4 → exec (.partReset g full at_) s = .next ((t.resetPhase2 g).modCtl g fun p => { p with
        fullSearch := full, resetClk := s1.clk, resets := satAdd 0xFFFF p.resets 1,
        resetResult := if p.settleFailed then 3 else 0 }))) ∧
    (p.state = 3 → ∀ ok,
      let ms := (s1.clk - p.resetClk) / 1100000
      let failed (r : Nat) : State := (s1.modCtl g fun p => { p with
        state := 4, resetResult := r, phase := 0, lastResetMs := min 0xFFFF ms }).tellReset g r
      (p.phase = 2 → exec (.resetPhaseComplete g ok at_) s = .next (s1.modCtl g fun p => { p with phase := 3 })) ∧
      (p.phase = 3 → exec (.resetPhaseComplete g ok at_) s = .next (if ok = true then
        s1.modCtl g fun p => { p with phase := 4, searched := p.searched + b2n p.fullSearch } else failed 1)) ∧
      (p.phase = 4 → exec (.resetPhaseComplete g ok at_) s = .next (if ok = true then
        s1.modCtl g fun p => { p with phase := 5 } else failed 2)) ∧
      (p.phase = 5 →
        let t := (s1.clearCm g).modCtl g fun p => { p with state := 0, phase := 0, settleFailed := false, lastResetMs := min 0xFFFF ms }
        exec (.resetPhaseComplete g ok at_) s = .next (t.tellReset g (t.part g).ctl.resetResult)))

/-- R364, R365, R376, R377, R381 to R384: PART_ASSIGN_WRITE, NEXT_CONTEXT_WRITE, CTX_STOP, CTX_ABORT, LEASE_GRANT, LEASE_LAPSE,
SHEEPDOG_ACK and SHEEPDOG_POP. -/
def Obligations.ContextsLeasesAndTheEventQueueObeyTheirCommands : Prop :=
  ∀ (s : State),
    (∀ c mask, s.assignRefusal c mask = none →
      exec (.partAssignWrite c mask) s = .next { s with ctxRuns := Tab.set s.ctxRuns c { s.run c with assign := pairOf 64 mask } }) ∧
    (∀ c mask r, s.assignRefusal c mask = some r → exec (.partAssignWrite c mask) s = .next (s.partRefuse r)) ∧
    (∀ g value,
      let x := fld value 9 0
      (bitOf value 31 = true → exec (.nextContextWrite g value) s = .next
        (if bitOf (s.run x).assign.v.toNat g = true then s.modCtl g fun p => { p with nextValid := true, next := x, parkedFor := p.parkedFor.map fun _ => x } else s.partRefuse 4)) ∧
      (bitOf value 31 = false → exec (.nextContextWrite g value) s = .next
        (s.modCtl g fun p => { p with nextValid := false, next := x, parkedFor := none }))) ∧
    (∀ c, exec (.ctxStop c) s = .next ({ s with partRegs := { s.partRegs with ctx := c, lastStatus := stOk } }.stopCtx c)) ∧
    (∀ c at_,
      let s1 := s.atClk at_
      let s2 := { s1 with partRegs := { s.partRegs with ctx := c } }.stopCtx c
      (s.noRecords c = true → exec (.ctxAbort c at_) s = .next { s2 with partRegs := { s2.partRegs with lastStatus := stAlreadyDone } }) ∧
      (s.noRecords c = false →
        let s3 : State := (((s.partsOf c).filter fun g => s.residentOf g == some c).foldl (fun (t : State) g => t.abandon g) s2).dropCobblers c
        let st := s3.settle c
        let s4 := if st.1 = true then st.2 else st.2.report 2 4 stCensus noPart c
        exec (.ctxAbort c at_) s = .next { s4 with partRegs := { s4.partRegs with lastStatus := stAborted } })) ∧
    (∀ value at_,
      let s1 := s.atClk at_
      let term := fld value 31 16
      let dur := fld value 11 0
      let cur := fld s.dog.lease.v.toNat 31 16
      let refused := { s1 with dog := { s.dog with grantsRefused := satAdd 255 s.dog.grantsRefused 1 } }
      (term < cur → exec (.leaseGrant value at_) s = .next refused) ∧
      (cur ≤ term → dur ≠ 0 → exec (.leaseGrant value at_) s = .next { s1 with dog := { s.dog with
        lease := pairOf 32 (at' term 16 + dur), leaseState := 1, leaseEnd := s1.clk + dur * 1100000 } }) ∧
      (cur ≤ term → dur = 0 → exec (.leaseGrant value at_) s = .next
        (if (s.starts.any fun e => e.2.state == 3) = true then refused
         else { s1 with dog := { s.dog with lease := pairOf 32 (at' term 16), leaseState := 0, leaseEnd := 0 } }))) ∧
    (∀ at_,
      let s1 := s.atClk at_
      (s.dog.leaseState ≠ 1 ∨ s1.clk < s.dog.leaseEnd → exec (.leaseLapse at_) s = .next s1) ∧
      (s.dog.leaseState = 1 → s.dog.leaseEnd ≤ s1.clk →
        let s2 := { s1 with dog := { s1.dog with leaseState := 2, lapses := satAdd 255 s1.dog.lapses 1 } }.report 3 13 stLeaseLost
        let s3 := (((s1.loads.filter fun e => e.2.state == 4).map (·.1)).foldl State.stopCtx s2).endPhases stLeaseLost
        let s4 := (s3.leds.map (·.1)).foldl (fun (t : State) c =>
          if (t.led c).sends.isEmpty then t else t.modLed c fun l => { l with sends := [], lastStatus := stLeaseLost }) s3
        let s5 := { s4 with fab := { s4.fab with waiting := [] } }
        exec (.leaseLapse at_) s = .next ((s5.ckpts.map (·.1)).foldl (fun (t : State) c =>
          if (t.ckpt c).state == 2 then t.ckptEnd c stLeaseLost 0 else t) s5))) ∧
    (exec .sheepdogAck s = .next { s with dog := { s.dog with
      queue := s.dog.queue.map fun (e : Event) => if e.severity = 3 then { e with acked := true } else e } }) ∧
    exec .sheepdogPop s = .next { s with dog := { s.dog with queue := popUnsent s.dog.queue } }

/-- R372, R375: nothing issues in a partition that is cut off. -/
def Obligations.ACutOffPartitionIssuesNothing : Prop :=
  ∀ (s : State) (g n u idx m st at_ : Nat), s.cutOff g = true →
    (∀ i ∈ [Instr.recordDispatch g n at_, .recordWaitMet g n u at_, .passIssue g n u at_, .awlTileIssue g n at_, .bankDrain g n u at_,
        .retrieverCopy g n at_, .retrieverFillZeros g n at_, .retrieverDefineZero g n at_, .retrieverInvalidate g n at_,
        .unitAccept g n at_],
      exec i s = .next { s with clk := max s.clk at_ }) ∧
    exec (.reduceStage g n idx m st) s = .next s ∧ exec (.stepEndMark g n) s = .next s

/-- R385, R386, R388, R389, R392, R398, R468, R476: V_AON_VALID, VBUS_ABOVE, BROWN_OUT, PLL_LOCK, PLL_LOCK_TIMEOUT,
BOOT_SLOT_READ, LEAVE_ROM_WAIT and V_AON_LOSS. -/
def Obligations.PowerComesAndGoesAndTheRomBoots : Prop :=
  ∀ (s : State),
    let kept (u : State) (b : Boot) : State := { State.reset with
      clk := u.clk, freeCtr := u.freeCtr, pending := u.pending, tx := u.tx, glb := { maps := u.glb.maps }, fuses := u.fuses,
      flash := u.flash, meter := u.meter, boot := b }
    (s.boot.vaon = false → exec .vAonValid s = .next (kept s { vaon := true })) ∧
    (exec .vAonLoss s = .next (kept s { vaon := false })) ∧
    ∀ at_,
      let s1 := s.atClk at_
      let b := s.boot
      let waits := b.vaon = true ∧ b.above = true ∧ b.tripHold = false ∧ b.locked = false ∧ b.state = 0
      (b.vaon = true → b.above = false → exec (.vbusAbove at_) s =
        .next { s1 with boot := { b with above := true, releaseClk := s1.clk } }) ∧
      (exec (.brownOut at_) s = .next (if b.vaon = true ∧ b.above = true then
          (kept s1 { vaon := b.vaon, trialBoots := b.trialBoots, tripSeen := b.tripSeen }).rails railOrder.reverse false
        else s1)) ∧
      (∀ sel, waits → s1.clk ≤ b.releaseClk + 2200000 →
        let s2 := { s1 with boot := { b with locked := true, bootSel := sel % 4 } }
        (s.fusesOk = false → exec (.pllLock sel at_) s =
          .next (({ s2 with boot := { s2.boot with state := 8, haltReason := 1 } } : State).report 3 15 stPairBroken)) ∧
        (s.fusesOk = true → exec (.pllLock sel at_) s = .next (if sel % 4 = 3 ∧ b.selZero = false then
            { s2 with boot := { s2.boot with state := 7 }, mgmt := { s.mgmt with up := true } }
          else { s2 with boot := { s2.boot with state := 1 } }))) ∧
      (waits → exec (.pllLockTimeout at_) s = .next (if s1.clk < b.releaseClk + 2200000 then s1
        else { s1 with boot := { b with state := 8, haltReason := 4 } })) ∧
      ∀ (bad : List (Nat × List Nat)) (cfg : FlashConfig),
        (b.state = 1 →
          let x := s1.chooseSlot (if b.selZero then 0 else b.bootSel) bad cfg
          exec (.bootSlotRead bad cfg at_) s = .next (match x.1 with
            | some t => t
            | none => { x.2 with boot := { x.2.boot with state := 7 }, mgmt := { x.2.mgmt with up := true } })) ∧
        (b.state = 7 →
          let x := s1.chooseSlot 0 bad cfg
          exec (.leaveRomWait bad cfg at_) s = .next (match x.1 with
            | some t => t
            | none => { x.2 with boot := { x.2.boot with state := 8, haltReason := 2 } }))

/-- R394, R395, R396, R398: RAIL_SEQUENCE, BRINGUP_TRAINING, SELF_TEST_START and SELF_TEST_COMPLETE (notes/assumptions/44.md). -/
def Obligations.BringUpRaisesTrainsAndTests : Prop :=
  ∀ (s : State) (at_ : Nat),
    let s1 := s.atClk at_
    let b := s.boot
    (∀ fail, b.state = 2 → s1.clk < b.acceptClk + Config.serial % 16 * b.stagger * 1100000 →
      exec (.railSequence fail at_) s = .next s1) ∧
    (b.state = 2 → b.acceptClk + Config.serial % 16 * b.stagger * 1100000 ≤ s1.clk → s.sb.pmbusStuck = false →
      (exec (.railSequence none at_) s =
        .next { s1.rails railOrder true with boot := { b with state := 3 }, mgmt := { s.mgmt with up := true } }) ∧
      ∀ r,
        let up := (railGroups.takeWhile fun g => !g.contains r).flatten ++ ((railGroups.find? fun g => g.contains r).getD [])
        let s2 := (s1.rails up true).rails up.reverse false
        exec (.railSequence (some r) at_) s = .next { s2 with boot := { s2.boot with state := 8, haltReason := 3 } }) ∧
    (∀ (saved : Bool) (welt chans : List Nat), b.state = 3 →
      let s2 := { s1 with
        gran := [], ecc := [], chans := s.chans.map fun (e : Nat × Chan) => (e.1, { e.2 with poisoned := 0 }),
        weltNext := welt.foldl (fun l i => Tab.set l i false) s.weltNext,
        boot := { b with state := 4, fullSearch := !saved } }
      let s3 := fabPorts.foldl (fun t p =>
        if (t.port p).state == 0 then t.modPort p fun x => { x with state := 1, search := !saved } else t)
        ((s2.startSearch 0 saved).startSearch 1 saved)
      let s4 := (chans.map (· / 4)).eraseDups.foldl (fun t g => t.partFailed g 1) s3
      exec (.bringupTraining saved welt chans at_) s = .next (if s4.toTest = [] then s4.standby else s4)) ∧
    (∀ g, b.state = 4 → s.toTest.head? = some g →
      exec (.selfTestStart g at_) s = .next
        (if s.gov.pEst + (b.wakeUsed + 120) ≤ b.wakeCap * 10 ∧ (b.wakeUsed + 120) * 100 ≤ s.gov.slew * s.tick.period then
          { s1 with boot := { b with testing := b.testing ++ [g], wakeUsed := b.wakeUsed + 120 } }
        else s1)) ∧
    (∀ g ok, g ≠ 64 → b.state = 4 → g ∈ b.testing →
      let s2 := { s1 with boot := { b with testing := b.testing.filter fun (x : Nat) => x != g, tested := b.tested ++ [g] } }
      let s3 := if ok then s2 else s2.partFailed g 2
      exec (.selfTestComplete g ok at_) s = .next (if s3.toTest = [] ∧ s3.boot.testing = [] then s3.standby else s3)) ∧
    (b.state = 4 → exec (.selfTestComplete 64 false at_) s = .next { s1 with boot := { b with state := 8, haltReason := 5 } })

/-- R400, R402 to R405, R416, R417, R419: the commands of the host port (notes/assumptions/31.md). -/
def Obligations.TheHostPortServesReadsWritesAndResets : Prop :=
  ∀ (s : State) (at_ : Nat),
    let s1 := s.atClk at_
    (∀ (f off len : Nat) (write : Bool) (bytes : List Byte),
      let h := s.fn f
      let c := h.aperCtx
      let a := h.aperBase * 2 ^ 28 + off
      let n := if write then bytes.length else len
      (h.flr = true → exec (.hostInboundRequest f write off len bytes at_) s =
        .next (if write = true then s1 else s1.send (.completion f 1 []))) ∧
      (h.flr = false → h.aperValid = false → exec (.hostInboundRequest f write off len bytes at_) s =
        .next ((s1.refuseInbound f 1 write).tellOut f noCtx)) ∧
      (h.flr = false → h.aperValid = true → s.bulkEnd c < a + n → exec (.hostInboundRequest f write off len bytes at_) s =
        .next ((s1.refuseInbound f 1 write).memFault (portAgent c) stOutOfWindow 0 (max a (s.bulkEnd c)))) ∧
      (h.flr = false → h.aperValid = true → a + n ≤ s.bulkEnd c → s1.rangeCut c a n = true →
        exec (.hostInboundRequest f write off len bytes at_) s =
          .next ((s1.refuseInbound f 2 write).tellFenced f c ((s1.rangeCut? c a n).getD noPart))) ∧
      (h.flr = false → h.aperValid = true → a + n ≤ s.bulkEnd c → s1.rangeCut c a n = false →
        (write = true → exec (.hostInboundRequest f write off len bytes at_) s =
          .next (if s1.rangeWaits c a n = true then s1.urgeAll c a n else (s1.writeRange (portAgent c) 0 a bytes).2)) ∧
        (write = false →
          let r := s1.readRange (portAgent c) 0 a n
          MemOnly s1 r.2.2 ∧ exec (.hostInboundRequest f write off len bytes at_) s =
            .next (if r.1 = stOk then r.2.2.send (.completion f 0 r.2.1)
              else r.2.2.send (.completion f 3 (List.replicate n 0xFF)))))) ∧
    (∀ (tag : Nat) (t : PortTag), s.tagOf tag = some t → t.space = 2 →
      let s2 := s1.freeTagId tag
      let ended := match (s2.clu (18 * t.g + t.n)).runs.find? fun r => r.idx == t.idx with
        | none => s2
        | some r => s2.endPort (18 * t.g + t.n) r stHostCompletion
      (∀ (status : Nat) (bs : List Byte),
        (t.quarantined = true → exec (.hostCompletionReceive tag status at_ bs) s = .next s2.pumpPorts) ∧
        (t.quarantined = false → t.op = 1 → exec (.hostCompletionReceive tag status at_ bs) s =
          .next (s1.loadAnswer t (if status = 0 then 0 else stHostCompletion) bs)) ∧
        (t.quarantined = false → t.op ≠ 1 → exec (.hostCompletionReceive tag status at_ bs) s =
          .next (if status = 0 then (s2.feedCopy t bs).pumpPorts else ended))) ∧
      (s1.clk < t.clk + s.host.cplTimeout * 1100000 → exec (.hostCompletionTimeout tag at_) s = .next s1) ∧
      (t.clk + s.host.cplTimeout * 1100000 ≤ s1.clk →
        (t.quarantined = true → exec (.hostCompletionTimeout tag at_) s = .next s2.pumpPorts) ∧
        (t.quarantined = false → t.op = 1 → exec (.hostCompletionTimeout tag at_) s = .next (s1.loadAnswer t stHostCompletion [])) ∧
        (t.quarantined = false → t.op ≠ 1 → exec (.hostCompletionTimeout tag at_) s = .next ended))) ∧
    (∀ f,
      (exec (.busMasterDisable f at_) s = .next (s1.masterOff f)) ∧
      ((s.fn f).flr = false →
        let s2 := s1.modFn f fun h => { h with bme := true, msixHeld := false }
        exec (.busMasterEnable f at_) s = .next (if (s.fn f).msixHeld = true then s2.send (.msix f) else s2).pumpPorts) ∧
      (exec (.functionLevelReset f at_) s = .next (s1.flr f)) ∧
      (exec (.flrComplete f at_) s = .next (if (s.fn f).flr = true ∧ (s.fn f).flrClk + 1100000 ≤ s1.clk then
        s1.modFn f fun h => { h with flr := false } else s1))) ∧
    (let s2 := (s1.flr 0).report 0 11 stLinkDown
     exec (.hostLinkDown at_) s = .next { s2 with host := { s2.host with up := false, gen := 0, width := 0, flit := false } }) ∧
    ∀ (gen width vfs : Nat) (flit : Bool),
      let ok := 1 ≤ gen ∧ gen ≤ 6 ∧ width ∈ [1, 2, 4, 8, 16] ∧ vfs ≤ 63
      let s2 := { s with host := { s.host with
        up := true, gen := gen, width := width, flit := flit || gen == 6, vfEnable := vfs != 0, numVfs := vfs } }
      (ok → exec (.hostLinkUp gen width flit vfs) s = .next (if s.dog.queue = [] then s2 else s2.signal)) ∧
      (¬ ok → exec (.hostLinkUp gen width flit vfs) s = .next s)

/-- R406 to R409, R418: STOR_PACKET_RECEIVE, CNP_RECEIVE, RATE_RECOVERY, ACK_TIMEOUT, QP_MODIFY and QP_RESET. -/
def Obligations.QueuePairsServePacketsAndRecover : Prop :=
  (∀ (s : State) (q at_ : Nat),
    let s1 := s.atClk at_
    let x := s.qp q
    (∀ (p : Nat) (ce : Bool),
      (exec (.storPacketReceive p q .other ce at_) s =
        .next (s1.modSport p fun x => { x with rxDiscard := satAdd 0xFFFFFFFF x.rxDiscard 1 })) ∧
      (x.state = 1 → x.port = p →
        let s2 := if ce then s1.sendCnp p q else s1
        (∀ addr rkey bytes, exec (.storPacketReceive p q (.write addr rkey bytes) ce at_) s = .next (s2.rdmaWrite q addr rkey bytes)) ∧
        (∀ addr rkey len, exec (.storPacketReceive p q (.read addr rkey len) ce at_) s = .next (s2.rdmaRead q addr rkey len)) ∧
        (exec (.storPacketReceive p q .unsupported ce at_) s = .next ((s2.send (.roce q 2 [])).qpFail q stStorQp)) ∧
        (∀ tag bs, exec (.storPacketReceive p q (.response tag bs) ce at_) s = .next (s2.roceData q tag bs)) ∧
        (exec (.storPacketReceive p q .ack ce at_) s = .next (s2.qpHeard q)) ∧
        (exec (.storPacketReceive p q .nak ce at_) s = .next (s2.qpFail q stStorQp)))) ∧
    (exec (.cnpReceive q at_) s = .next ((s1.modSport x.port fun p => { p with cnpRx := satAdd 0xFFFF p.cnpRx 1 }).modQp q fun x =>
      if since x.lastCut s1.clk clk50 then
        { x with rate := max 100 (x.rate * 7 / 8), lastCnp := some s1.clk, lastCut := some s1.clk }
      else { x with lastCnp := some s1.clk })) ∧
    (exec (.rateRecovery q at_) s = .next (if since x.lastCnp s1.clk clk100 = true ∧ x.lastRise + clk100 ≤ s1.clk then
        s1.modQp q fun x => { x with rate := min 800000 (x.rate + 4000), lastRise := s1.clk } else s1)) ∧
    (∀ t, x.timer = some t → x.state = 1 → (s.sport x.port).up = true →
      exec (.ackTimeout q at_) s = .next (if s1.clk * 10 < t * 10 + 45056 * 2 ^ x.ackTo then s1
        else if x.retryCnt ≤ x.tried then s1.qpFail q stStorQp
        else ((s.tags.filter fun t => t.space == 3 && t.qp == q).foldl (fun u t => u.send (.portRead 3 q t.id t.addr t.len))
          (s1.modQp q fun x => { x with
            tried := x.tried + 1, retries := satAdd 0xFFFF x.retries 1, timer := some s1.clk })).resendUnits q))) ∧
  ∀ (s : State),
    let q := s.stor.qpSel
    ((s.qp q).state = 0 → (s.qp q).mtu ≠ 3 → exec .qpModify s = .next (s.modQp q fun x => { x with
      state := 1, lastStatus := 0, rate := 800000, lastCnp := none, lastCut := none, cnpSent := none, lastRise := s.clk,
      tried := 0, timer := none })) ∧
    exec .qpReset s = .next ((s.endQpOps q).modQp q fun x => { x with state := 0, lastStatus := 0, timer := none, tried := 0 })

/-- R242, R320, R408, R409: PFC_PAUSE_RECEIVE, PFC_STUCK, STORAGE_PORT_DOWN, STORAGE_PORT_UP and STOR_PORT_DOWN_TIMEOUT. -/
def Obligations.StoragePortsPauseAndComeAndGo : Prop :=
  ∀ (s : State) (p at_ : Nat), p ≤ 1 →
    let s1 := s.atClk at_
    let x := s.sport p
    (∀ (prio : Nat) (pause : Bool), prio ≤ 7 →
      let mask := if pause then x.pausedMask ||| 2 ^ prio else x.pausedMask - (x.pausedMask &&& 2 ^ prio)
      let now := bitOf mask x.prio
      let s2 := s1.modSport p fun x => { x with
        pauseRx := satAdd 0xFFFFFFFF x.pauseRx 1, pausedMask := mask, paused := now,
        pausedSince := if now && !x.paused then s1.clk else x.pausedSince, stuckTold := x.stuckTold && now }
      exec (.pfcPauseReceive p prio pause at_) s = .next (if now = true then s2 else s2.pumpStor p)) ∧
    (x.paused = true → x.stuckTold = false → exec (.pfcStuck p at_) s = .next
      (if s1.clk < x.pausedSince + x.stuckMs * 1100000 then s1
       else (s1.modSport p fun x => { x with stuckTold := true }).report 0 12 stPfcStuck noPart noCtx p)) ∧
    (∀ t, x.downSince = some t → exec (.storPortDownTimeout p at_) s = .next
      (if s1.clk < t + 10 * 1100000000 then s1
       else ((s.stor.qps.filter fun e => e.2.port == p && e.2.state == 1).map (·.1)).foldl (fun u q => u.qpFail q stLinkDown)
        (s1.modSport p fun x => { x with downSince := none }))) ∧
    (x.up = true →
      let s2 := s1.modSport p fun x => { x with up := false, downSince := some s1.clk }
      let s3 := { s2 with stor := { s2.stor with qps := s2.stor.qps.map fun (e : Nat × Qp) =>
        (e.1, if e.2.port == p then { e.2 with timer := none } else e.2) } }
      let s4 := match s3.loader.busy with
        | some c => if s3.loader.curSrc == 3 && (s3.qp s3.loader.curQp).port == p && (s3.load c).state == 1 then
            s3.rejectLoad c 0x2E 0 noIndex stLinkDown else s3
        | none => s3
      exec (.storagePortDown p at_) s =
        .next (((s4.drainsOn p).foldl (fun t c => t.modCkpt c fun k => { k with paused := true }) s4).report
          0 12 stLinkDown noPart noCtx p)) ∧
    (x.up = false →
      let s2 := s1.modSport p fun x => { x with up := true, downSince := none }
      let s3 := { s2 with stor := { s2.stor with qps := s2.stor.qps.map fun (e : Nat × Qp) =>
        (e.1, if e.2.port == p && s2.tags.any (fun t => t.space == 3 && t.qp == e.1) then { e.2 with timer := some s1.clk } else e.2) } }
      exec (.storagePortUp p at_) s =
        .next (((s3.drainsOn p).foldl (fun t c => t.modCkpt c fun k => { k with paused := false, out := [] }) s3).pumpStor p))

/-- R24, R238, R411 to R414, R432, R434: the commands of USB, the sideband buses and the Welt links
(notes/assumptions/22.md). -/
def Obligations.UsbSidebandAndWeltCommandsAct : Prop :=
  ∀ (s : State) (at_ : Nat),
    let s1 := s.atClk at_
    (∀ addr n words,
      (usbLenOk n = false → exec (.usbRead addr n at_) s = .next (s1.send (.usb true [])) ∧
        exec (.usbWrite addr n words at_) s = .next (s1.send (.usb true []))) ∧
      (usbLenOk n = true →
        exec (.usbRead addr n at_) s =
          .next ((s1.readWords .usb addr (n / 4)).2.send (.usb false (s1.readWords .usb addr (n / 4)).1)) ∧
        exec (.usbWrite addr n words at_) s = .next (if words.length < n / 4 then s1
          else (s1.writeWords .usb addr (words.take (n / 4))).send (.usb false [])))) ∧
    (∀ cut fast,
      let s2 := { s.endSeq .usb with usb := { s.usb with
        attached := true, highSpeed := fast, configured := false, suspended := false, address := 0,
        busResets := satAdd 0xFFFF s.usb.busResets 1,
        cutTransfers := if cut then satAdd 0xFFFF s.usb.cutTransfers 1 else s.usb.cutTransfers } }
      exec (.usbBusReset cut fast) s = .next (if cut = true then s2.report 0 11 stUsbReset else s2)) ∧
    (∀ off len data ok, exec (.usbEp1Chunk off len data ok) s =
      .next (if data.length < len then s else (s.chunk .usb off (data.take len) ok).2)) ∧
    (∀ bus freed, bus ≤ 1 →
      let x := s.sb
      let n := (x.attempts[bus]?).getD 0
      let y := { x with
        recoveries := if n == 0 then satAdd 255 x.recoveries 1 else x.recoveries, lastTry := x.lastTry.set bus s1.clk,
        attempts := x.attempts.set bus (if freed || n == 2 then 0 else n + 1) }
      let z := { x with recoveries := satAdd 255 x.recoveries 1, lastTry := x.lastTry.set bus s1.clk }
      (x.stuck bus = false → n = 0 ∨ (x.lastTry[bus]?).getD 0 + 11000000 ≤ s1.clk →
        exec (.sidebandRecovery bus freed at_) s = .next (if freed = false ∧ n = 2 then
          ({ s1 with sb := y.setStuck bus true } : State).report 3 2 stSideband else { s1 with sb := y })) ∧
      (x.stuck bus = true → exec (.sidebandRetry bus freed at_) s =
        .next (if s1.clk < (x.lastTry[bus]?).getD 0 + 1100000000 then s1
          else if freed = true then ({ s1 with sb := z.setStuck bus false } : State).report 0 2 (openStatus 7)
          else { s1 with sb := z }))) ∧
    (exec .i3cIbi s = .next (s.report 0 2 (openStatus 8))) ∧
    ∀ l, l ≤ 11 →
      let s2 (up : Bool) : State := { s with weltNext := s.weltNext.filter (fun (e : Nat × Bool) => e.1 != l) ++ [(l, up)] }
      exec (.weltLinkDown l) s = .next (((s2 false).report 0 9 stLinkDown).refit (s2 false).weltSoon) ∧
      exec (.weltLinkRestored l) s = .next ((s2 true).refit (s2 true).weltSoon)

/-- R421 to R425, R434, R444: MGMT_READ, MGMT_WRITE, MGMT_DOWNLOAD_CHUNK, REPORT_DATAGRAM_SEND, HEARTBEAT_SEND,
REPORT_ACK_RECEIVE and REPORT_RESEND. -/
def Obligations.ManagementRequestsAreAnsweredOnceAndReportsLeave : Prop :=
  ∀ (s : State) (at_ : Nat),
    let s1 := s.atClk at_
    let m := s.mgmt
    (∀ (peer seq : Nat),
      let answered (x : List Byte × State) : State := { x.2 with mgmt := { x.2.mgmt with
        kept := Tab.set x.2.mgmt.kept peer (seq, x.1),
        peers := x.2.mgmt.peers.map fun (p : Peer) =>
          if p.valid && p.number == peer then { p with count := wrapAdd 32 p.count 1 } else p } }.send (.mgmt peer x.1)
      (∀ addr count, m.up = true → m.accepts peer = true → 1 ≤ count → count ≤ 256 →
        let i := Instr.mgmtRead peer seq addr count at_
        (∀ k, Tab.find m.kept peer = some k → k.1 = seq → exec i s = .next (s1.send (.mgmt peer k.2))) ∧
        ((∀ k, Tab.find m.kept peer = some k → k.1 ≠ seq) →
          let x := s1.readWords .mgmt addr count
          exec i s = .next (answered (mgmtAnswer seq 1 stOk count addr x.1, x.2)))) ∧
      (∀ addr words, m.up = true → m.accepts peer = true → 1 ≤ words.length → words.length ≤ 256 →
        let i := Instr.mgmtWrite peer seq addr words at_
        (∀ k, Tab.find m.kept peer = some k → k.1 = seq → exec i s = .next (s1.send (.mgmt peer k.2))) ∧
        ((∀ k, Tab.find m.kept peer = some k → k.1 ≠ seq) →
          exec i s = .next (answered (mgmtAnswer seq 2 stOk words.length addr [], s1.writeWords .mgmt addr words)))) ∧
      (∀ off data ok, m.up = true → m.accepts peer = true → data.length % 256 = 0 → 256 ≤ data.length → data.length ≤ 1024 →
        let i := Instr.mgmtDownloadChunk peer seq off data ok
        (∀ k, Tab.find m.kept peer = some k → k.1 = seq → exec i s = .next (s.send (.mgmt peer k.2))) ∧
        ((∀ k, Tab.find m.kept peer = some k → k.1 ≠ seq) →
          let x := s.chunk .mgmt off data ok
          exec i s = .next (answered (mgmtAnswer seq 3 x.1 (data.length / 256) off [], x.2)))) ∧
      (∀ addr count, m.up = true → m.accepts peer = false ∨ count = 0 ∨ 256 < count →
        exec (.mgmtRead peer seq addr count at_) s = .next s1.dropRequest) ∧
      (m.up = false → ∀ i ∈ [Instr.mgmtRead peer seq 0 1 at_, .mgmtWrite peer seq 0 [0] at_], exec i s = .next s1)) ∧
    (s1.reportDue = true →
      let es := (s.dog.queue.filter fun e => !e.sent).take 64
      let bs := s1.reportHead es.length 0 ++ es.flatMap fun e => leBytes 16 e.bits
      exec (.reportDatagramSend at_) s = .next (({ s1 with
        dog := { s.dog with queue := markSent m.seq 64 s.dog.queue },
        mgmt := { m with
          seq := wrapAdd 32 m.seq 1, sent := wrapAdd 16 m.sent 1, lastReport := some s1.clk,
          unacked := m.unacked ++ [({ seq := m.seq, clk := s1.clk, bytes := bs } : Datagram)] } } : State).toSinks bs)) ∧
    (s1.reportDue = false → exec (.reportDatagramSend at_) s = .next s1) ∧
    (m.up = true → m.sinksOn ≠ [] →
      let bs := s1.reportHead 0 1 ++ leBytes 8 s.tickNo ++ leBytes 4 s1.bootReady ++ leBytes 4 s1.leaseStatus ++
        leBytes 2 s.dog.lost ++ zeros 14
      exec (.heartbeatSend at_) s = .next (if s1.clk < m.lastBeat + m.hbS * 1100000000 then s1
        else ({ s1 with mgmt := { m with seq := wrapAdd 32 m.seq 1, lastBeat := s1.clk } } : State).toSinks bs)) ∧
    (∀ (sink seq : Nat),
      let x := (m.sinks[sink]?).getD {}
      exec (.reportAckReceive sink seq) s = .next (if x.valid = true ∧ seqLe m.seq seq = false then
        { s with
          dog := { s.dog with queue := s.dog.queue.filter fun (e : Event) => !(e.sent && seqLe e.dgram seq) },
          mgmt := { m with
            unacked := m.unacked.filter fun (d : Datagram) => !seqLe d.seq seq,
            sinks := m.sinks.set sink { x with count := seq % 2 ^ 32 } } }
        else s)) ∧
    ∀ (d : Datagram) (ds : List Datagram), m.unacked = d :: ds → m.up = true →
      exec (.reportResend at_) s = .next (if s1.clk < d.clk + 4 * m.intervalMs * 1100000 then s1
        else ({ s1 with mgmt := { m with
          unacked := { d with clk := s1.clk } :: ds, resends := satAdd 0xFFFF m.resends 1 } } : State).toSinks d.bytes)

/-- R432 to R437, R439, R443, R444: the commands of an update. -/
def Obligations.AnUpdateGoesThroughItsStates : Prop :=
  ∀ (s : State) (p : Path) (at_ : Nat),
    let u := s.upd
    let t := u.target
    (s.notOwner p = true →
      (∀ ok bad, exec (.updBegin p ok) s = .next (s.updEnd stUpdState) ∧ exec (.updVerify p bad ok) s = .next (s.updEnd stUpdState) ∧
        exec (.updConfirm p ok) s = .next (s.updEnd stUpdState) ∧ exec (.updAbort p) s = .next (s.updEnd stUpdState) ∧
        exec (.updRevert p ok at_) s = .next ((s.atClk at_).updEnd stUpdState))) ∧
    (s.notOwner p = false →
      (u.state ∈ [0, 1, 2, 4] →
        let target := if s.boot.state = 7 then (if s.recordGood 0 then 1 else 0) else 1 - s.boot.slot
        exec (.updBegin p false) s = .next (s.updEnd stUpdFlash) ∧
        exec (.updBegin p true) s = .next ((s.flashPut target 0 (List.replicate 4096 0xFF)).modUpd fun u => { u with
          state := 1, target := target, owner := pathOwner p, lastStatus := stOk, progress := pairOf 32 (2 ^ 30), head := [] })) ∧
      (u.state = 2 → ∀ bad,
        let s1 := s.modUpd fun u => { u with
          state := 2, owner := pathOwner p, progress := pairOf 32 (2 ^ 31 + ceilDiv (recordEnd (s.slotRecord t)) 256) }
        let old := match s.genFloor with | some g => decide (recGen (s.slotRecord t) ≤ g) | none => false
        (s.checkSlot t bad = 5 → exec (.updVerify p bad true) s = .next (s1.updEnd stUpdFlash)) ∧
        (s.checkSlot t bad ≠ 5 → s.checkSlot t bad ≠ 1 ∨ s.headersOk t = false →
          exec (.updVerify p bad true) s = .next (s1.updEnd stUpdVerify)) ∧
        (s.checkSlot t bad = 1 → s.headersOk t = true → old = true → exec (.updVerify p bad true) s = .next (s1.updEnd stUpdGen)) ∧
        (s.checkSlot t bad = 1 → s.headersOk t = true → old = false →
          exec (.updVerify p bad true) s = .next (((s1.setStage t 2).updEnd stOk).modUpd fun u => { u with state := 4 }))) ∧
      (u.state = 4 → ∀ live,
        let s1 := (s.atClk at_).modUpd fun u => { u with live := live }
        let s2 := s1.setStage t 3
        let s3 := { s2 with boot := { s2.boot with trialBoots := 0 } }
        s1.anyLoaded = false →
        (live = true → s.boot.state ≠ 7 → exec (.updActivate p live true at_) s = .next (s3.modUpd fun u => { u with
          state := 5, lastStatus := stOk, parts := [0, 0, 0, 0, 0, 0, 0], micro := [], began := s1.clk, oldSem := some s.glb.sem })) ∧
        (live = false → exec (.updActivate p live true at_) s = .next (s3.powerCycle (s.boot.state == 7)))) ∧
      (u.state = 6 →
        (exec (.updConfirm p true) s =
          let s1 := (s.setStage t 4).updEnd stOk
          .next { s1 with boot := { s1.boot with trial := false }, upd := s1.upd.idle (1 - t) }) ∧
        (exec (.updConfirm p false) s = .next (s.updEnd stUpdFlash)) ∧
        exec (.updRevert p true at_) s = .next ((s.atClk at_).updEnd stOk).revert) ∧
      (u.state = 1 → exec (.updAbort p) s =
        .next (((s.flashPut t 0 (List.replicate 4096 0xFF)).updEnd stAborted).modUpd fun u => u.idle u.target)) ∧
      (2 ≤ u.state → exec (.updAbort p) s = .next (s.updEnd stAlreadyDone))) ∧
    ∀ e, u.trialEnd = some e → u.state = 6 → exec (.trialTimerExpire at_) s =
      .next (if (s.atClk at_).clk < e then s.atClk at_ else (((s.atClk at_).updEnd stUpdExpired).report 0 14 stUpdExpired).revert)

/-- R414, R475, R476, R478, R483: THERMAL_THROTTLE, THERMAL_TRIP, TRIP_RECOVERY and RAIL_POLL (notes/assumptions/22.md). -/
def Obligations.TemperaturesAndRailsAreWatched : Prop :=
  ∀ (s : State) (at_ : Nat) (temps : List Int),
    let s1 := s.atClk at_
    let read (k : Nat) : Int := (temps[k]?).getD 0
    (exec (.thermalThrottle temps) s = .next { s with therm := { s.therm with
      temps := (List.range 15).map fun k => clampI (-32768) 32767 ((temps[k]?).getD ((s.therm.temps[k]?).getD 0)) } }.throttle) ∧
    (s.boot.vaon = true → (∃ k, k < 15 ∧ tripPoint k ≤ read k) → exec (.thermalTrip temps at_) s =
      .next { s1.brownOut with boot := { s1.brownOut.boot with above := s.boot.above, tripHold := true, tripSeen := true } }) ∧
    ((∀ k, k < 15 → read k < tripPoint k) → exec (.thermalTrip temps at_) s = .next s1) ∧
    (s.boot.tripHold = true → (∀ k, k < 15 → read k ≤ tripPoint k - 120) → exec (.tripRecovery temps at_) s =
      .next { s1 with boot := { s.boot with tripHold := false, releaseClk := s1.clk } }) ∧
    (s.boot.tripHold = true → (∃ k, k < 15 ∧ tripPoint k - 120 < read k) → exec (.tripRecovery temps at_) s = .next s1) ∧
    ∀ reads : List (Nat × Nat × Nat),
      let old (i : Nat) : Rail := (s.therm.rails[i]?).getD {}
      let poll (i : Nat) : Rail := match reads[i]? with
        | some (v, a, w) =>
          if s.sb.pmbusStuck && i < 12 then { old i with stale := decide ((old i).readClk + 11000000 ≤ s1.clk) }
          else { vout := min 0xFFFF v, iout := if i < 12 then min 0xFFFF a else 0, inBand := inBand i v, stale := false,
                 word := if i < 12 then w % 65536 else 0, readClk := s1.clk }
        | none => { old i with stale := decide ((old i).readClk + 11000000 ≤ s1.clk) }
      let rails := (List.range 14).map poll
      let left := (List.range 14).filter fun i => (old i).inBand && !((rails[i]?).getD {}).inBand
      let s2 := { s1 with therm := { s.therm with rails := rails } }
      exec (.railPoll reads at_) s = .next (if left = [] ∨ s.boot.state < 5 ∨ 6 < s.boot.state then s2
        else s2.report 3 2 (openStatus 6))

/-- R447, R448, R450 to R452, R454, R460, R461, R463, R464: METER_HEARTBEAT_SEND, METER_HEARTBEAT_TIMEOUT, ATTRIBUTION_FRAME,
METER_TICK_CLOSE, METER_SELF_PERIOD, METER_SNAPSHOT, RECORD_INTERVAL_END, V_MTR_FAIL and V_MTR_RETURN. -/
def Obligations.TheMeterChargesEveryTickOnce : Prop :=
  ∀ (s : State) (at_ ms : Nat),
    let s1 := s.atClk at_
    let m := s.meter
    let u := s.atMs ms
    (m.powered = true → exec (.meterHeartbeatSend at_) s =
      .next { s1 with meterHub := { s.meterHub with present := true, lastBeat := s1.clk, absentTold := false } }) ∧
    (exec (.meterHeartbeatTimeout at_) s =
      .next (if s.meterHub.absentTold = true ∨ s1.clk < s.meterHub.lastBeat + 11000000 then s1
        else ({ s1 with meterHub := { s.meterHub with present := false, absentTold := true } } : State).report 3 16 stMeterAbsent)) ∧
    (∀ (fr : AttrFrame) (tick tickN : Nat) (f : List Nat), s.meterHub.frame = some fr →
      exec (.attributionFrame tick tickN f) s =
        .next (if m.powered = true ∧ tickN = not64 tick ∧ (∀ p, m.prev = some p → tick = wrapAdd 64 p 1) ∧
            (∀ n, m.closed = some n → n < tick) then
          { s with meter := { m with frame := some { fr with tick := tick, tickN := tickN, f := f }, prev := some tick } }
        else s)) ∧
    (∀ (es : List Nat) (ein own : Nat), m.powered = true →
      let n := (s.tickNo + 2 ^ 64 - 1) % 2 ^ 64
      let sh := sharedEnergy es ein
      let sum := (es.take 64).foldl (fun (a e : Nat) => a + e) 0
      let s2 := (u.tellBalance sh.2).modMeter fun (m : Meter) =>
        { m with closed := some n, dev := { m.dev with own := addP m.dev.own own } }
      (m.closed = some n → exec (.meterTickClose es ein own ms) s = .next u) ∧
      (m.closed ≠ some n → ∀ fr, m.frame = some fr → fr.tick = n →
        exec (.meterTickClose es ein own ms) s = .next (s2.closeBy es sh.1 fr)) ∧
      (m.closed ≠ some n → (∀ fr, m.frame = some fr → fr.tick ≠ n) →
        exec (.meterTickClose es ein own ms) s = .next (s2.closeLost es sh.1)) ∧
      exec (.meterSelfPeriod es ein own ms) s = .next (((u.tellBalance sh.2).chargeDev 0 (sum + sh.1)).modMeter fun (m : Meter) =>
        { m with dev := { m.dev with own := addP m.dev.own own } })) ∧
    (∀ es esh fr, s.closeBy es esh fr = fr.finals.foldl (fun (t : State) (e : Nat × Nat) =>
        (t.ctxRecord e.1 e.2).modMeter fun (m : Meter) => { m with changed := m.changed.filter (· != e.1) })
        (({ s with meter := { m with
          frame := none,
          jobs := fr.jobs.foldl (fun (l : List (Nat × Nat)) (e : Nat × Nat) => Tab.set l e.1 e.2) m.jobs } } : State).chargeTick es esh fr)) ∧
    (∀ (es : List Nat) (esh : Nat),
      let s3 := ({ s with meter := { m with
        prev := none, frame := none, framesLost := satAdd 0xFFFF m.framesLost 1 } } : State).chargeDev 0
          ((es.take 64).foldl (fun (a e : Nat) => a + e) 0 + esh)
      let x := s3.oncePerS m.frameTold stMeterFrame
      s.closeLost es esh = if x.1 = true then x.2.modMeter fun (m : Meter) => { m with frameTold := some m.ms } else x.2) ∧
    (s.endInterval = ((((List.range 1024).filter fun (c : Nat) => m.changed.contains c).foldl
      (fun (t : State) (c : Nat) => t.ctxRecord c (Tab.get m.jobs c 0)) s).devRecord).modMeter fun (x : Meter) => { x with
        changed := [], intervalMs := m.ms, firstTick := m.nextTick }) ∧
    (m.powered = true →
      exec (.meterSnapshot true ms) s = .next u.takeSnap.loadCal ∧
      exec (.meterSnapshot false ms) s = .next (u.loadCal.meterRaise 0 stMeterStore) ∧
      exec (.recordIntervalEnd ms) s = .next (if u.meter.ms < m.intervalMs + 1000 * m.recordS then u
        else u.endInterval) ∧
      exec (.vMtrFail ms) s = .next (u.takeSnap.eventRecord.modMeter fun (m : Meter) => { m with
        powered := false, failAt := (m.closed.getD 0, m.ms), frame := none, prev := none })) ∧
    (m.powered = false →
      let s2 := (u.modMeter fun (m : Meter) => { m with
        powered := true, accts := m.snap.accts, dev := m.snap.dev, changed := [], frameTold := none, balanceTold := none,
        firstTick := m.failAt.1, closed := some s.tickNo, intervalMs := m.ms }).loadCal
      exec (.vMtrReturn ms) s =
        .next (((s2.record 5 0xFFFF 0 0 (leBytes 8 m.failAt.2) 0 stMeterGap).meterRaise 0 stMeterGap).modMeter
          fun (m : Meter) => { m with firstTick := s.tickNo, closed := none })) ∧
    ∀ es ein own ok, m.powered = false →
      (∀ i ∈ [Instr.meterTickClose es ein own ms, .meterSelfPeriod es ein own ms, .meterSnapshot ok ms, .recordIntervalEnd ms,
        .vMtrFail ms], exec i s = .next u) ∧ exec (.meterHeartbeatSend at_) s = .next s1

/-- R422, R454, R456 to R460, R462: METER_FETCH, METER_NONCE, METER_INTERVAL, METER_TIME_MARK, METER_BREAK, METER_RESTORE,
METER_CALIBRATION and METER_FW_CHUNK (notes/assumptions/22.md). -/
def Obligations.MeterRequestsActUnderTheSeal : Prop :=
  ∀ (s : State) (peer seq : Nat),
    let m := s.meter
    let sp := s.spendNonce
    (s.mgmt.up = true → s.mgmt.accepts peer = true → m.powered = true →
      (∀ k, Tab.find s.mgmt.kept peer = some k → k.1 ≠ seq) →
      let answered (op : Nat) (x : Nat × Nat × List Byte × State) : State :=
        ({ x.2.2.2 with mgmt := { x.2.2.2.mgmt with
          kept := Tab.set x.2.2.2.mgmt.kept peer (seq, meterAnswer seq op x.1 x.2.1 x.2.2.1),
          peers := x.2.2.2.mgmt.peers.map fun (p : Peer) =>
            if p.valid && p.number == peer then { p with count := wrapAdd 32 p.count 1 } else p } } : State).send
          (.mgmt peer (meterAnswer seq op x.1 x.2.1 x.2.2.1))
      (∀ first count,
        (m.recs = [] → exec (.meterFetch peer seq first count) s = .next (answered 1 (stOk, 0, [], s))) ∧
        (∀ o os, m.recs = o :: os →
          (first < o.seq → exec (.meterFetch peer seq first count) s =
            .next (answered 1 (stMeterOverwrite, o.seq % 2 ^ 32, [], s))) ∧
          (o.seq ≤ first →
            let hit (r : MRec) : Bool := decide (first ≤ r.seq ∧ r.seq < first + max 1 (min 4 count))
            exec (.meterFetch peer seq first count) s = .next (answered 1 (stOk, 0,
              (m.recs.filter hit).flatMap (fun (r : MRec) => r.bytes),
              { s with meter := { m with recs := m.recs.map fun (r : MRec) => if hit r then { r with fetched := true } else r } }))))) ∧
      exec (.meterNonce peer seq) s = .next (answered 2 (stOk, 0, leBytes 8 m.nonce, s)) ∧
      (∀ arg, exec (.meterInterval peer seq arg) s = .next (answered 3 (
        if 1 ≤ arg ∧ arg ≤ 3600 then (stOk, 0, [], ({ s with meter := { m with recordS := arg } } : State).eventRecord)
        else (s.freeStatus.1, 0, [], s.freeStatus.2)))) ∧
      (∀ utc, exec (.meterTimeMark peer seq utc) s =
        .next (answered 4 (stOk, 0, [], s.record 4 0xFFFF 0 0 (leBytes 8 utc) 0 0))) ∧
      (∀ tok, exec (.meterBreak peer seq tok) s = .next (answered 5 (
        if m.sealed_ = false then (stSeal, 0, [], sp)
        else if m.tokenOk 1 tok = false then (stMeterToken, 0, [], sp.meterRaise 0 stMeterToken)
        else (stOk, 0, [], (sp.modMeter fun (m : Meter) =>
          { m with sealed_ := false, sealBreaks := satAdd 0xFFFFFFFF m.sealBreaks 1 }).eventRecord)))) ∧
      (∀ tok,
        let img := (List.range ((m.inactive.map fun (e : Nat × Byte) => e.1 + 1).foldl max 0)).map fun (i : Nat) => Tab.get m.inactive i 0xFF
        exec (.meterRestore peer seq tok) s = .next (answered 6 (
          if m.sealed_ = true then (stSeal, 0, [], sp)
          else if m.tokenOk 2 tok = false then (stMeterToken, 0, [], sp.meterRaise 0 stMeterToken)
          else if img ≠ [] ∧ Config.meterImageOk img = false then (stMeterFw, 0, [], sp.meterRaise 0 stMeterFw)
          else (stOk, 0, [], (sp.modMeter fun (m : Meter) =>
            { m with sealed_ := true, inactive := [], fwNext := if img.isEmpty then none else some img }).eventRecord)))) ∧
      (∀ ch constants, exec (.meterCalibration peer seq ch constants) s = .next (answered 7 (
        if m.sealed_ = true then (stSeal, 0, [], s)
        else
          let cals := Tab.set m.cals ch { a := pairOf 96 constants, b := pairOf 96 constants }
          (stOk, 0, [], ({ s with meter := { m with
            cals := cals, calUse := Tab.set m.calUse ch (constants % 2 ^ 96), calibGen := satAdd 0xFFFFFFFF m.calibGen 1,
            calibFault := cals.any fun (e : Nat × Cal) => !e.2.a.ok && !e.2.b.ok } } : State).eventRecord)))) ∧
      ∀ off data, exec (.meterFwChunk peer seq off data) s = .next (answered 8 (
        if m.sealed_ = true then (stSeal, 0, [], s)
        else if data.length ≤ 1024 then (stOk, 0, [], ({ s with meter := { m with
          inactive := (List.range data.length).foldl (fun (l : List (Nat × Byte)) (i : Nat) => Tab.set l (off + i) ((data[i]?).getD 0)) m.inactive } } : State))
        else (s.freeStatus.1, 0, [], s.freeStatus.2)))) ∧
    (m.powered = false → ∀ first count arg utc tok ch constants off data,
      ∀ i ∈ [Instr.meterFetch peer seq first count, .meterNonce peer seq, .meterInterval peer seq arg,
        .meterTimeMark peer seq utc, .meterBreak peer seq tok, .meterRestore peer seq tok,
        .meterCalibration peer seq ch constants, .meterFwChunk peer seq off data], exec i s = .next s)

/-- R183: locate, and that it is a bijection between the context's addresses and the bytes of its window. -/
def Obligations.BulkAddressesMapOneToOne : Prop :=
  (∀ row C : Nat,
    let x0 := row ^^^ (row >>> 7)
    let x1 := x0 * 0x2C1B3C6D % 2 ^ 32
    let x2 := x1 ^^^ (x1 >>> 16)
    rotOf row C = x2 * C / 2 ^ 32 ∧ (C ≠ 0 → rotOf row C < C)) ∧
  ∀ (s : State) (c : Nat),
    let w := (s.memCtx c).win.v.toNat
    let chs := s.chList c
    let C := chs.length
    let base := fld w 17 9
    let count := fld w 8 0
    bitOf w 31 = true → C ≠ 0 → base + count ≤ 384 →
    (∀ a, a < C * count * 262144 → ∃ ch,
      chs[(a / 256 % C + rotOf (a / 256 / C) C) % C]? = some ch ∧
      s.bulkLoc c a = some (bulkKey ch ((base * 1024 + a / 256 / C) * 256 + a % 256))) ∧
    (∀ a b k, s.bulkLoc c a = some k → s.bulkLoc c b = some k → a = b) ∧
    (∀ ch ∈ chs, ∀ off, base * 262144 ≤ off → off < (base + count) * 262144 →
      ∃ a, a < C * count * 262144 ∧ s.bulkLoc c a = some (bulkKey ch off)) ∧
    ∀ row, row < count * 1024 → ∀ ch ∈ chs, ∃ col, col < C ∧
      s.bulkLoc c ((row * C + col) * 256) = some (bulkKey ch ((base * 1024 + row) * 256))

/-- R71, R72, R74, R91 to R93: decode and encode agree in the four floating-point formats. -/
def Obligations.FormatsRoundTrip : Prop :=
  (ff32.width, ffBF.width, ffE4.width, ffE5.width) = (32, 16, 8, 8) ∧
  ∀ f ∈ [ff32, ffBF, ffE4, ffE5], ∀ (sat : Bool) (x : Nat),
    x < 2 ^ f.width → f.decode x ≠ .nan → f.encode sat (f.decode x) = (x, {})

/-- R73: NaN in and out of the four floating-point formats. -/
def Obligations.NaNsAreAlikeAndCanonical : Prop :=
  (ff32.canonNan, ffBF.canonNan, ffE4.canonNan, ffE5.canonNan) = (0x7FC00000, 0x7FC0, 0x7F, 0x7E) ∧
  (∀ f ∈ [ff32, ffBF, ffE5], ∀ x, fld x (f.ebits + f.fbits - 1) f.fbits = 2 ^ f.ebits - 1 → fld x (f.fbits - 1) 0 ≠ 0 →
    f.decode x = .nan) ∧
  (∀ x, fld x 6 0 = 0x7F → ffE4.decode x = .nan) ∧
  ∀ f ∈ [ff32, ffBF, ffE4, ffE5], ∀ (sat : Bool) (v : Val),
    bitOf f.canonNan (f.width - 1) = false ∧ (v = .nan → (f.encode sat v).1 = f.canonNan) ∧
    (f.decode (f.encode sat v).1 = .nan → (f.encode sat v).1 = f.canonNan)

/-- R85, and of to_gx16 the range of what it writes. -/
def Obligations.BlocksOfGX16DecodeAndKeepTheirRange : Prop :=
  (∀ (m : List Int) (k : Nat), (⟨0x00, m⟩ : Gx).elem k = posZero ∧ (⟨0xFF, m⟩ : Gx).elem k = .nan) ∧
  (∀ (e : Nat) (m : List Int) (k : Nat), 0x01 ≤ e → e ≤ 0xFE → ∃ q : Q, (⟨e, m⟩ : Gx).elem k = .fin q ∧ q.den ≠ 0 ∧
    q.neg = decide ((m[k]?).getD 0 < 0) ∧ q.num * 2 ^ 141 = ((m[k]?).getD 0).natAbs * 2 ^ e * q.den) ∧
  ∀ xs : List Val,
    let g := (toGx xs).1
    g.m.length = 64 ∧ (∀ m ∈ g.m, -32767 ≤ m ∧ m ≤ 32767) ∧ g.e ≤ 0xFF ∧
    (g.e = 0xFF → ∃ x ∈ xs, x = .nan ∨ x.isInf = true)

/-- R369: the queue of the package Sheepdog aggregator. -/
def Obligations.EventsFoldQueueReplaceOrAreLost : Prop :=
  ∀ (d : Dog) (e : Event),
    (∀ (a b : List Event) (x : Event), d.queue = a ++ x :: b → x.sent = false →
      (x.status = e.status ∧ x.source = e.source ∧ x.gpart = e.gpart ∧ x.ctx = e.ctx ∧ x.loc = e.loc) →
      (∀ y ∈ a, y.sent = true ∨ ¬ (y.status = e.status ∧ y.source = e.source ∧ y.gpart = e.gpart ∧ y.ctx = e.ctx ∧ y.loc = e.loc)) →
      d.enter e = { d with queue := a ++ { x with repeat_ := min 0xFFFF (x.repeat_ + 1) } :: b }) ∧
    ((∀ y ∈ d.queue, y.sent = true ∨
        ¬ (y.status = e.status ∧ y.source = e.source ∧ y.gpart = e.gpart ∧ y.ctx = e.ctx ∧ y.loc = e.loc)) →
      (d.queue.length < 256 → d.enter e = { d with queue := d.queue ++ [e] }) ∧
      (256 ≤ d.queue.length →
        (∀ (a b : List Event) (x : Event), e.severity = 3 → d.queue = a ++ x :: b → x.severity = 0 → (∀ y ∈ a, y.severity ≠ 0) →
          d.enter e = { d with queue := a ++ b ++ [e] }) ∧
        (e.severity ≠ 3 ∨ (∀ y ∈ d.queue, y.severity ≠ 0) → d.enter e = { d with lost := min 0xFFFF (d.lost + 1) }))) ∧
    (d.queue.length ≤ 256 → (d.enter e).queue.length ≤ 256)

/-- What the work of units never changes (spec/05 to 09, 11): whatever an image does there, it reaches no control state. -/
def Obligations.UnitWorkLeavesControlAlone : Prop :=
  ∀ (i : Instr) (s t : State), unitWork i = true → exec i s = .next t → ControlKept s t

/-- R13: GLB_ID at 0x0000_0000. -/
def Obligations.TheDeviceIdentifiesItself : Prop :=
  (∀ (s : State) (p : Path) (at_ : Nat),
    exec (.pairedReadLatch p 0 at_) s = .next ((s.atClk at_).send (.data stOk (leBytes 4 0x0C020021)))) ∧
  fld 0x0C020021 31 16 = 0x0C02 ∧ fld 0x0C020021 15 8 = 0x00 ∧ fld 0x0C020021 7 4 = 0x2 ∧ fld 0x0C020021 3 0 = 0x1

/-- R106: jobs that differ in the unit alone fold and drain alike, however the passes cut the reduction. -/
def Obligations.AwlAndMatrixUnitsGiveTheSameBits : Prop :=
  ∀ (s : State) (j k : Job) (p t o : Nat), j.t.r / 1024 = k.t.r / 1024 → j.t.unit ≤ 2 → k.t.unit ≤ 2 →
    k = { j with t := k.t, ag := { j.ag with unit := k.ag.unit } } →
    (∀ lo hi f, s.foldRange j p t o lo hi f = s.foldRange k p t o lo hi f) ∧
    (∀ lo mid hi f, lo ≤ mid → mid ≤ hi →
      s.foldRange k p t o mid hi (s.foldRange j p t o lo mid f) = s.foldRange j p t o lo hi f) ∧
    ∀ f, s.drainElem j p t o f = s.drainElem k p t o f

/-- R191: the states of granules and lines. -/
def Obligations.BrokenGranuleStatesReadAsPoisoned : Prop :=
  (∀ (s : State) (gk : Nat), s.granState gk ≤ 3 ∧
    s.granState gk = if (s.granPair gk).n = ~~~(s.granPair gk).v then (s.granPair gk).v.toNat else 3) ∧
  (∀ (s : State) (gk st : Nat), 1 ≤ st → st ≤ 3 →
    ((s.setGran gk st).granPair gk).v.toNat = st ∧ ((s.setGran gk st).granPair gk).n = ~~~((s.setGran gk st).granPair gk).v) ∧
  ∀ (s : State) (c g n unit space addr key : Nat), s.locOf (reqAgent c g n unit) space addr = some key →
    s.walled (reqAgent c g n unit) key = false → (s.granPair (granOf key)).n ≠ ~~~(s.granPair (granOf key)).v →
    exec (.granuleRead c g n unit space addr []) s =
      .next (((s.report 0 3 stPairBroken).memFault (reqAgent c g n unit) stEcc space addr).send (.data stEcc []))
end

