-- ==== Sys2Proof/Laws/Memory.lean ====
section
/-! SUPPORT. Memory keeps its canonical form under every write, and a read gives what was last written. -/

namespace Sys2Proof.Machine

theorem Memory.wf_cons {c : Host.Cell} {m : List Host.Cell} :
    Memory.wf (c :: m) = true ↔ c.2 ≠ 0 ∧ (∀ d ∈ m.head?, c.1 < d.1) ∧ Memory.wf m = true := by
  cases m with
  | nil => simp [Memory.wf]
  | cons d t => simp [Memory.wf, and_assoc]

/-- A memory in its canonical form is sorted. -/
theorem Memory.wf_sorted {m : List Host.Cell} (h : Memory.wf m = true) : Tab.Sorted m := by
  induction m with
  | nil => trivial
  | cons c m ih =>
    have h' := Memory.wf_cons.1 h
    cases m with
    | nil => trivial
    | cons d t => exact ⟨h'.2.1 d rfl, ih h'.2.2⟩

theorem Memory.wf_set {m : List Host.Cell} (h : Memory.wf m = true) (k : Nat) (b : Byte) (hb : b ≠ 0) :
    Memory.wf (Tab.set m k b) = true ∧ ∀ d ∈ (Tab.set m k b).head?, d.1 = k ∨ ∃ e ∈ m.head?, d.1 = e.1 := by
  induction m with
  | nil => simpa [Tab.set, Memory.wf] using hb
  | cons c m ih =>
    obtain ⟨k', v⟩ := c
    have h' := Memory.wf_cons.1 h
    simp only [Tab.set]
    split
    · refine ⟨Memory.wf_cons.2 ⟨hb, ?_, h⟩, ?_⟩
      · intro d hd
        have : d = (k', v) := by simpa using hd.symm
        subst this
        assumption
      · intro d hd
        have : d = (k, b) := by simpa using hd.symm
        subst this
        exact .inl rfl
    · split
      · rename_i h2
        have : k = k' := by simpa using h2
        subst this
        refine ⟨Memory.wf_cons.2 ⟨hb, h'.2.1, h'.2.2⟩, ?_⟩
        intro d hd
        have : d = (k, b) := by simpa using hd.symm
        subst this
        exact .inl rfl
      · rename_i h1 h2
        have hne : k ≠ k' := by simpa using h2
        refine ⟨Memory.wf_cons.2 ⟨h'.1, ?_, (ih h'.2.2).1⟩, ?_⟩
        · intro d hd
          rcases (ih h'.2.2).2 d hd with e | ⟨e, he, hde⟩
          · rw [e]; simp only; omega
          · rw [hde]; exact h'.2.1 e he
        · intro d hd
          have : d = (k', v) := by simpa using hd.symm
          subst this
          exact .inr ⟨(k', v), rfl, rfl⟩

theorem Memory.wf_erase {m : List Host.Cell} (h : Memory.wf m = true) (k : Nat) :
    Memory.wf (Tab.erase m k) = true ∧ ∀ d ∈ (Tab.erase m k).head?, ∃ e ∈ m.head?, e.1 ≤ d.1 := by
  induction m with
  | nil => simp [Tab.erase, Memory.wf]
  | cons c m ih =>
    obtain ⟨k', v⟩ := c
    have h' := Memory.wf_cons.1 h
    simp only [Tab.erase]
    split
    · refine ⟨h'.2.2, fun d hd => ⟨(k', v), rfl, Nat.le_of_lt (h'.2.1 d hd)⟩⟩
    · refine ⟨Memory.wf_cons.2 ⟨h'.1, ?_, (ih h'.2.2).1⟩, ?_⟩
      · intro d hd
        obtain ⟨e, he, hle⟩ := (ih h'.2.2).2 d hd
        exact Nat.lt_of_lt_of_le (h'.2.1 e he) hle
      · intro d hd
        have : d = (k', v) := by simpa using hd.symm
        subst this
        exact ⟨(k', v), rfl, Nat.le_refl _⟩

/-- A write keeps the canonical form. -/
theorem Memory.wf_put {m : List Host.Cell} (h : Memory.wf m = true) (k : Nat) (b : Byte) :
    Memory.wf (Memory.put m k b) = true := by
  unfold Memory.put Tab.put
  split
  · exact (Memory.wf_erase h k).1
  · exact (Memory.wf_set h k b ‹_›).1

/-- Writing a run of bytes keeps the canonical form. -/
theorem Memory.wf_putAll {m : List Host.Cell} (h : Memory.wf m = true) (k : Nat) (bs : List Byte) :
    Memory.wf (Memory.putAll m k bs) = true := by
  induction bs generalizing m k with
  | nil => exact h
  | cons b bs ih => exact ih (Memory.wf_put h k b) (k + 1)

/-- What is written under a key is read there. -/
theorem Memory.get_put_same {m : List Host.Cell} (h : Memory.wf m = true) (k : Nat) (b : Byte) :
    Memory.get (Memory.put m k b) k = b :=
  Tab.get_put_same m k 0 b (Memory.wf_sorted h)

/-- A write under one key leaves every other. -/
theorem Memory.get_put_other (m : List Host.Cell) (k j : Nat) (b : Byte) (h : j ≠ k) :
    Memory.get (Memory.put m k b) j = Memory.get m j :=
  Tab.get_put_other m k j 0 b h

/-- A run of bytes leaves every key outside it. -/
theorem Memory.get_putAll_other (m : List Host.Cell) (k j : Nat) (bs : List Byte) (h : j < k ∨ k + bs.length ≤ j) :
    Memory.get (Memory.putAll m k bs) j = Memory.get m j := by
  induction bs generalizing m k with
  | nil => rfl
  | cons b bs ih =>
    simp only [List.length_cons] at h
    rw [Memory.putAll, ih _ _ (by omega), Memory.get_put_other _ _ _ _ (by omega)]

/-- Inside a run of bytes the byte written is read. -/
theorem Memory.get_putAll_inside {m : List Host.Cell} (h : Memory.wf m = true) (k i : Nat) (bs : List Byte) (hi : i < bs.length) :
    Memory.get (Memory.putAll m k bs) (k + i) = bs[i] := by
  induction bs generalizing m k i with
  | nil => cases hi
  | cons b bs ih =>
    rw [Memory.putAll]
    cases i with
    | zero => rw [Memory.get_putAll_other _ _ _ _ (by omega)]; exact Memory.get_put_same h k b
    | succ i =>
      have := ih (Memory.wf_put h k b) (k + 1) i (by simpa using hi)
      rw [show k + (i + 1) = k + 1 + i by omega, this]
      rfl

end Sys2Proof.Machine
end

