-- ==== Sys2Proof/Laws/Follows.lean ====
section
/-! SUPPORT. What holds of every state that the block's operations make of a sound one (Safety.lean): it is sound, its queue of
commands is untouched, its clock and its count of free values never go back, what has left the block stays sent, the fuses
stay as they are. The lemmas of this file take a conditional, a fold or a record update apart. -/

namespace Sys2Proof.Machine

/-- State `s` was made of the sound state `origin` by operations of the block. -/
structure Follows (origin s : State) : Prop where
  sound : Sound s
  pending : s.pending = origin.pending
  clk : origin.clk ≤ s.clk
  freeCtr : origin.freeCtr ≤ s.freeCtr
  tx : origin.tx <+: s.tx
  fuses : s.fuses = origin.fuses

theorem Follows.refl {s : State} (h : Sound s) : Follows s s :=
  ⟨h, rfl, Nat.le_refl _, Nat.le_refl _, List.prefix_refl _, rfl⟩

variable {origin : State}

/-- What `Follows` does not speak of may change. -/
theorem Follows.upd {s : State} {clk : Nat} {freeCtr : Nat} {pending : List Instr} {tx : List Msg} {pairSeqs : List (Nat × PairSeq)}
    {latches : List PairLatch} {glb : Glb} {weltUp : List Bool} {weltNext : List (Nat × Bool)} {tick : Tick} {gov : Gov}
    {starts : List (Nat × Start)} {ariths : List (Nat × Arith)} {driftSel : Nat} {drifts : List (Nat × Drift)}
    {memCtxs : List (Nat × MemCtx)} {census : List (Nat × Census)} {loads : List (Nat × LoadCtx)}
    {ctxRuns : List (Nat × CtxRun)} {parts : List (Nat × Part)} {clus : List (Nat × Clu)} {chans : List (Nat × Chan)}
    {memc : MemCtl} {gran : List (Nat × Paired 2)} {ecc : List (Nat × Nat)} {sync : SyncCtl} {loader : LoadCtl}
    {partRegs : PartRegs} {dog : Dog} {tags : List PortTag} {ctxJobs : List (Nat × Nat)} {fab : Fab}
    {packs : List (Nat × PackEntry)} {packCtx : List (Nat × PackCtx)} {host : Host_} {usb : Usb} {sb : Sideband}
    {stor : Stor} {leds : List (Nat × Led)} {ledRegs : LedRegs} {ckpts : List (Nat × Ckpt)} {ckptRegs : CkptRegs}
    {opt : Opt} {fuses : Fuses} {flash : List (List Byte)} {boot : Boot} {upd : Upd} {mgmt : Mgmt} {therm : Therm}
    {meter : Meter} {meterHub : MeterHub}
    (h : Follows origin s) (e : (clk, freeCtr, pending, tx, fuses, dog.queue, tick.number) =
      (s.clk, s.freeCtr, s.pending, s.tx, s.fuses, s.dog.queue, s.tick.number)) :
    Follows origin (State.mk clk freeCtr pending tx pairSeqs latches glb weltUp weltNext tick gov starts ariths driftSel drifts memCtxs
      census loads ctxRuns parts clus chans memc s.mem gran ecc sync loader partRegs dog tags ctxJobs fab packs
      packCtx host usb sb stor leds ledRegs ckpts ckptRegs opt fuses flash boot upd mgmt therm meter meterHub) := by
  simp only [Prod.mk.injEq] at e
  obtain ⟨e1, e2, e3, e4, e5, e6, e7⟩ := e
  exact ⟨⟨h.sound.mem, by rw [e6]; exact h.sound.queue, by rw [e7]; exact h.sound.tick⟩, by rw [e3]; exact h.pending,
    by rw [e1]; exact h.clk, by rw [e2]; exact h.freeCtr, by rw [e4]; exact h.tx, by rw [e5]; exact h.fuses⟩

theorem Follows.ite {c : Prop} [Decidable c] {s t : State} (h : c → Follows origin s) (k : ¬c → Follows origin t) :
    Follows origin (if c then s else t) := by
  split
  · exact h ‹_›
  · exact k ‹_›

theorem Follows.mk_snd {α : Type} {x : α} {t : State} (h : Follows origin t) : Follows origin (x, t).2 := h

theorem Follows.ite_snd {α : Type} {c : Prop} [Decidable c] {x y : α × State} (h : c → Follows origin x.2) (k : ¬c → Follows origin y.2) :
    Follows origin (if c then x else y).2 := by
  split
  · exact h ‹_›
  · exact k ‹_›

theorem Follows.foldl {α : Type} {f : State → α → State} {l : List α} {s : State} (h : Follows origin s)
    (k : ∀ s a, Follows origin s → Follows origin (f s a)) : Follows origin (l.foldl f s) := by
  induction l generalizing s with
  | nil => exact h
  | cons a l ih => exact ih (k s a h)

/-- A fold that carries the state beside other things. -/
theorem foldl_keeps {α β : Type} (p : β → Prop) {f : β → α → β} {l : List α} {b : β} (h : p b)
    (k : ∀ b a, p b → p (f b a)) : p (l.foldl f b) := by
  induction l generalizing b with
  | nil => exact h
  | cons a l ih => exact ih (k b a h)

theorem Follows.foldl_fst {α β : Type} {f : State × β → α → State × β} {l : List α} {b : State × β} (h : Follows origin b.1)
    (k : ∀ b a, Follows origin b.1 → Follows origin (f b a).1) : Follows origin (l.foldl f b).1 :=
  foldl_keeps (fun b : State × β => Follows origin b.1) h k

theorem Follows.foldl_snd {α β : Type} {f : β × State → α → β × State} {l : List α} {b : β × State} (h : Follows origin b.2)
    (k : ∀ b a, Follows origin b.2 → Follows origin (f b a).2) : Follows origin (l.foldl f b).2 :=
  foldl_keeps (fun b : β × State => Follows origin b.2) h k

theorem Follows.foldl_trd {α β γ : Type} {f : β × γ × State → α → β × γ × State} {l : List α} {b : β × γ × State}
    (h : Follows origin b.2.2) (k : ∀ b a, Follows origin b.2.2 → Follows origin (f b a).2.2) : Follows origin (l.foldl f b).2.2 :=
  foldl_keeps (fun b : β × γ × State => Follows origin b.2.2) h k

theorem Follows.foldl_mid {α β γ : Type} {f : β × State × γ → α → β × State × γ} {l : List α} {b : β × State × γ}
    (h : Follows origin b.2.1) (k : ∀ b a, Follows origin b.2.1 → Follows origin (f b a).2.1) : Follows origin (l.foldl f b).2.1 :=
  foldl_keeps (fun b : β × State × γ => Follows origin b.2.1) h k

/-- Bytes written to memory. -/
theorem Follows.putAll {s : State} (h : Follows origin s) (k : Nat) (bs : List Byte) :
    Follows origin { s with mem := Memory.putAll s.mem k bs } :=
  { h with sound := ⟨Memory.wf_putAll h.sound.mem k bs, h.sound.queue, h.sound.tick⟩ }

/-- A pair that was written whole is intact (R14). -/
@[simp] theorem pairOf_ok (w x : Nat) : (pairOf w x).ok = true := by simp [pairOf, Paired.of, Paired.ok]

/-- A tick record whose number is an intact pair. -/
theorem Follows.ticked {s : State} (h : Follows origin s) {t : Tick} (n : t.number.ok = true) : Follows origin { s with tick := t } :=
  { h with sound := ⟨h.sound.mem, h.sound.queue, n⟩ }

/-- An event queue that does not grow. -/
theorem Follows.shorter {s : State} (h : Follows origin s) {d : Dog} (q : d.queue.length ≤ s.dog.queue.length) :
    Follows origin { s with dog := d } :=
  { h with sound := ⟨h.sound.mem, Nat.le_trans q h.sound.queue, h.sound.tick⟩ }

theorem foldEvent_length {e : Event} {q r : List Event} (h : foldEvent e q = some r) : r.length = q.length := by
  induction q generalizing r with
  | nil => cases h
  | cons x q ih =>
    simp only [foldEvent] at h
    split at h
    · cases h; rfl
    · obtain ⟨r', h', rfl⟩ := Option.map_eq_some_iff.1 h
      simp [ih h']

theorem dropNote_length {q r : List Event} (h : dropNote q = some r) : r.length + 1 = q.length := by
  induction q generalizing r with
  | nil => cases h
  | cons x q ih =>
    simp only [dropNote] at h
    split at h
    · cases h; rfl
    · obtain ⟨r', h', rfl⟩ := Option.map_eq_some_iff.1 h
      simp [ih h']

/-- The event queue never grows beyond 256 (R369). -/
theorem Dog.enter_length (d : Dog) (e : Event) (h : d.queue.length ≤ 256) : (d.enter e).queue.length ≤ 256 := by
  unfold Dog.enter
  split
  · rename_i hq; rw [foldEvent_length hq]; exact h
  · split
    · simp; omega
    · split
      · split
        · rename_i hq
          have := dropNote_length hq
          simp only [List.length_append, List.length_cons, List.length_nil]
          omega
        · exact h
      · exact h

/-- Where the command is answered with a next state, that state follows `origin`. -/
def Keeps (origin : State) (o : Host.Outcome State Fault Refusal) : Prop := ∀ t, o = .next t → Follows origin t

theorem Keeps.next {t : State} (h : Follows origin t) : Keeps origin (.next t) := fun u e => by cases e; exact h

theorem Keeps.ite {c : Prop} [Decidable c] {o p : Host.Outcome State Fault Refusal} (h : c → Keeps origin o) (k : ¬c → Keeps origin p) :
    Keeps origin (if c then o else p) := by
  split
  · exact h ‹_›
  · exact k ‹_›

end Sys2Proof.Machine
end

