-- ==== Sys2Proof/Laws/FollowsOps.lean ====
section
/-! SUPPORT. Every operation of Machine/Ops.lean takes a state that follows a sound one to one that does (Laws/Follows.lean). -/

namespace Sys2Proof.Machine

variable {origin : State}

theorem State.atClk_follows {s : State} {at_ : Nat} (hs : Follows origin s) : Follows origin (State.atClk s at_) :=
  { hs with sound := ⟨hs.sound.mem, hs.sound.queue, hs.sound.tick⟩, clk := Nat.le_trans hs.clk (Nat.le_max_left _ _) }

theorem State.free_follows {s : State} {bound : Nat} (hs : Follows origin s) : Follows origin (State.free s bound).2 :=
  { hs with sound := ⟨hs.sound.mem, hs.sound.queue, hs.sound.tick⟩, freeCtr := Nat.le_succ_of_le hs.freeCtr }

theorem State.free_follows_eq {s : State} {bound : Nat} {y0 : Nat} {t_ : State} (hs : Follows origin s) (he : State.free s bound = (y0, t_)) :
    Follows origin t_ := by
  have k : Follows origin (State.free s bound).2 := State.free_follows hs
  rw [he] at k
  exact k

theorem State.freeStatus_follows {s : State} (hs : Follows origin s) : Follows origin (State.freeStatus s).2 :=
  { hs with sound := ⟨hs.sound.mem, hs.sound.queue, hs.sound.tick⟩, freeCtr := Nat.le_succ_of_le hs.freeCtr }

theorem State.send_follows {s : State} {m : Msg} (hs : Follows origin s) : Follows origin (State.send s m) :=
  { hs with sound := ⟨hs.sound.mem, hs.sound.queue, hs.sound.tick⟩, tx := hs.tx.trans (List.prefix_append _ _) }

theorem State.setPart_follows {s : State} {g : Nat} {p : Part} (hs : Follows origin s) :
    Follows origin (State.setPart s g p) := by
  unfold State.setPart
  repeat' with_reducible first | assumption | exact Follows.upd (by assumption) rfl

theorem State.modCtl_follows {s : State} {g : Nat} {f : PartCtl → PartCtl} (hs : Follows origin s) :
    Follows origin (State.modCtl s g f) := by
  unfold State.modCtl
  repeat' with_reducible first | assumption | apply State.setPart_follows

theorem State.modMon_follows {s : State} {g : Nat} {f : PartMon → PartMon} (hs : Follows origin s) :
    Follows origin (State.modMon s g f) := by
  unfold State.modMon
  repeat' with_reducible first | assumption | apply State.setPart_follows

theorem State.modSync_follows {s : State} {g : Nat} {f : PartSync → PartSync} (hs : Follows origin s) :
    Follows origin (State.modSync s g f) := by
  unfold State.modSync
  repeat' with_reducible first | assumption | apply State.setPart_follows

theorem State.setClu_follows {s : State} {k : Nat} {c : Clu} (hs : Follows origin s) :
    Follows origin (State.setClu s k c) := by
  unfold State.setClu
  repeat' with_reducible first | assumption | exact Follows.upd (by assumption) rfl

theorem State.modClu_follows {s : State} {k : Nat} {f : Clu → Clu} (hs : Follows origin s) :
    Follows origin (State.modClu s k f) := by
  unfold State.modClu
  repeat' with_reducible first | assumption | apply State.setClu_follows

theorem State.modChan_follows {s : State} {ch : Nat} {f : Chan → Chan} (hs : Follows origin s) :
    Follows origin (State.modChan s ch f) := by
  unfold State.modChan
  repeat' with_reducible first | assumption | exact Follows.upd (by assumption) rfl

theorem State.modRun_follows {s : State} {c : Nat} {f : CtxRun → CtxRun} (hs : Follows origin s) :
    Follows origin (State.modRun s c f) := by
  unfold State.modRun
  repeat' with_reducible first | assumption | exact Follows.upd (by assumption) rfl

theorem State.modStart_follows {s : State} {c : Nat} {f : Start → Start} (hs : Follows origin s) :
    Follows origin (State.modStart s c f) := by
  unfold State.modStart
  repeat' with_reducible first | assumption | exact Follows.upd (by assumption) rfl

theorem State.modArith_follows {s : State} {c : Nat} {f : Arith → Arith} (hs : Follows origin s) :
    Follows origin (State.modArith s c f) := by
  unfold State.modArith
  repeat' with_reducible first | assumption | exact Follows.upd (by assumption) rfl

theorem State.modLoad_follows {s : State} {c : Nat} {f : LoadCtx → LoadCtx} (hs : Follows origin s) :
    Follows origin (State.modLoad s c f) := by
  unfold State.modLoad
  repeat' with_reducible first | assumption | exact Follows.upd (by assumption) rfl

theorem State.modMemCtx_follows {s : State} {c : Nat} {f : MemCtx → MemCtx} (hs : Follows origin s) :
    Follows origin (State.modMemCtx s c f) := by
  unfold State.modMemCtx
  repeat' with_reducible first | assumption | exact Follows.upd (by assumption) rfl

theorem State.modCens_follows {s : State} {c : Nat} {f : Census → Census} (hs : Follows origin s) :
    Follows origin (State.modCens s c f) := by
  unfold State.modCens
  repeat' with_reducible first | assumption | exact Follows.upd (by assumption) rfl

theorem State.modDrift_follows {s : State} {c : Nat} {slot : Nat} {f : Drift → Drift} (hs : Follows origin s) :
    Follows origin (State.modDrift s c slot f) := by
  unfold State.modDrift
  repeat' with_reducible first | assumption | exact Follows.upd (by assumption) rfl

theorem State.modFn_follows {s : State} {f : Nat} {h : HostFn → HostFn} (hs : Follows origin s) :
    Follows origin (State.modFn s f h) := by
  unfold State.modFn
  repeat' with_reducible first | assumption | exact Follows.upd (by assumption) rfl

theorem State.interrupt_follows {s : State} {f : Nat} (hs : Follows origin s) :
    Follows origin (State.interrupt s f) := by
  unfold State.interrupt
  repeat' with_reducible first
    | assumption | intro _ | apply State.send_follows | apply State.modFn_follows | apply Follows.ite

theorem State.signal_follows {s : State} (hs : Follows origin s) :
    Follows origin (State.signal s) := by
  unfold State.signal
  repeat' with_reducible first
    | assumption | intro _ | apply State.interrupt_follows | apply Follows.ite | apply Follows.foldl

theorem State.report_follows {s : State} {severity source status gpart ctx loc detail : Nat} (hs : Follows origin s) :
    Follows origin (State.report s severity source status gpart ctx loc detail) := by
  unfold State.report
  extract_lets s1
  have h1 : Follows origin s1 := { hs with sound := ⟨hs.sound.mem, Dog.enter_length _ _ hs.sound.queue, hs.sound.tick⟩ }
  split
  · exact State.signal_follows h1
  · exact h1

theorem State.pairNote_follows {s : State} {source : Nat} {gpart : Nat} {ctx : Nat} {loc : Nat} (hs : Follows origin s) :
    Follows origin (State.pairNote s source gpart ctx loc) := by
  unfold State.pairNote
  repeat' with_reducible first | assumption | apply State.report_follows

theorem State.stopCtx_follows {s : State} {c : Nat} (hs : Follows origin s) :
    Follows origin (State.stopCtx s c) := by
  unfold State.stopCtx
  repeat' with_reducible first | assumption | apply State.modRun_follows

theorem State.countOps_follows {s : State} {c : Nat} {cls : Nat} {n : Nat} (hs : Follows origin s) :
    Follows origin (State.countOps s c cls n) := by
  unfold State.countOps
  repeat' with_reducible first | assumption | intro _ | exact Follows.upd (by assumption) rfl | apply Follows.ite

theorem State.finalFlag_follows {s : State} {c : Nat} (hs : Follows origin s) :
    Follows origin (State.finalFlag s c) := by
  unfold State.finalFlag
  repeat' with_reducible first | assumption | intro _ | exact Follows.upd (by assumption) rfl | apply Follows.ite

theorem State.digestEdge_follows {s : State} (hs : Follows origin s) :
    Follows origin (State.digestEdge s) := by
  unfold State.digestEdge
  repeat' with_reducible first
    | assumption | intro _ | apply Follows.ite | refine Follows.upd (Follows.upd (by assumption) rfl) rfl

theorem State.setGran_follows {s : State} {gk : Nat} {st : Nat} (hs : Follows origin s) :
    Follows origin (State.setGran s gk st) := by
  unfold State.setGran
  repeat' with_reducible first
    | assumption | intro _ | exact Follows.upd (by assumption) rfl | apply State.modChan_follows | apply Follows.ite

theorem State.setGrans_follows {s : State} {gks : List Nat} {st : Nat} (hs : Follows origin s) :
    Follows origin (State.setGrans s gks st) := by
  unfold State.setGrans
  repeat' with_reducible first | assumption | intro _ | apply State.setGran_follows | apply Follows.foldl

theorem State.clearGrans_follows {s : State} {lo : Nat} {hi : Nat} (hs : Follows origin s) :
    Follows origin (State.clearGrans s lo hi) := by
  unfold State.clearGrans
  repeat' with_reducible first
    | assumption | intro _ | exact Follows.upd (by assumption) rfl | apply State.modChan_follows | apply Follows.ite
    | apply Follows.foldl

theorem State.clearEcc_follows {s : State} {lo : Nat} {hi : Nat} (hs : Follows origin s) :
    Follows origin (State.clearEcc s lo hi) := by
  unfold State.clearEcc
  repeat' with_reducible first | assumption | exact Follows.upd (by assumption) rfl

theorem State.countCe_follows {s : State} {gk : Nat} {n : Nat} (hs : Follows origin s) :
    Follows origin (State.countCe s gk n) := by
  unfold State.countCe
  repeat' with_reducible first
    | assumption | intro _ | apply State.modClu_follows | apply State.modChan_follows | apply Follows.ite

theorem State.poison_follows {s : State} {gk : Nat} (hs : Follows origin s) :
    Follows origin (State.poison s gk) := by
  unfold State.poison
  repeat' with_reducible first
    | assumption | intro _ | apply State.modClu_follows | apply State.modChan_follows | apply State.setGran_follows
    | apply Follows.ite

theorem State.readGran_follows {s : State} {gk : Nat} (hs : Follows origin s) :
    Follows origin (State.readGran s gk).2 := by
  unfold State.readGran
  repeat' with_reducible first
    | assumption | apply State.pairNote_follows | refine Follows.upd (State.countCe_follows ?_) rfl
    | apply State.poison_follows | split | (extract_lets)

theorem State.readGran_follows_eq {s : State} {gk : Nat} {y0 : Nat} {t_ : State} (hs : Follows origin s) (he : State.readGran s gk = (y0, t_)) :
    Follows origin t_ := by
  have k : Follows origin (State.readGran s gk).2 := State.readGran_follows hs
  rw [he] at k
  exact k

theorem State.modLed_follows {s : State} {c : Nat} {f : Led → Led} (hs : Follows origin s) :
    Follows origin (State.modLed s c f) := by
  unfold State.modLed
  repeat' with_reducible first | assumption | exact Follows.upd (by assumption) rfl

theorem State.modCkpt_follows {s : State} {c : Nat} {f : Ckpt → Ckpt} (hs : Follows origin s) :
    Follows origin (State.modCkpt s c f) := by
  unfold State.modCkpt
  repeat' with_reducible first | assumption | exact Follows.upd (by assumption) rfl

theorem State.markBad_follows {s : State} {c : Nat} (hs : Follows origin s) :
    Follows origin (State.markBad s c) := by
  unfold State.markBad
  repeat' with_reducible first | assumption | intro _ | apply State.modLed_follows | apply Follows.ite

theorem State.ckptEnd_follows {s : State} {c : Nat} {status : Nat} {port : Nat} (hs : Follows origin s) :
    Follows origin (State.ckptEnd s c status port) := by
  unfold State.ckptEnd
  repeat' with_reducible first | assumption | apply State.report_follows | apply State.modCkpt_follows

theorem State.cow_follows {s : State} {gk : Nat} (hs : Follows origin s) : Follows origin (State.cow s gk) := by
  unfold State.cow
  split
  · exact hs
  · dsimp only
    split
    · exact State.setGran_follows (Follows.putAll (State.modCkpt_follows hs) _ _)
    · exact State.modCkpt_follows hs

theorem State.urge_follows {s : State} {gk : Nat} (hs : Follows origin s) :
    Follows origin (State.urge s gk) := by
  unfold State.urge
  repeat' with_reducible first | assumption | apply State.modCkpt_follows | split

theorem State.writeGran_follows {s : State} {key : Nat} {bs : List Byte} (hs : Follows origin s) :
    Follows origin (State.writeGran s key bs) := by
  unfold State.writeGran
  extract_lets s' gk base size st m s1 s2 s3
  have h1 : Follows origin s1 := Follows.upd (State.cow_follows hs) rfl
  have h2 : Follows origin s2 := Follows.ite (fun _ => State.clearEcc_follows (h1.putAll _ _)) fun _ => State.clearEcc_follows h1
  have h3 : Follows origin s3 := h2.putAll _ _
  split
  · exact State.setGran_follows (State.clearEcc_follows (h1.putAll _ _))
  · split
    · exact Follows.ite (fun _ => h3) fun _ => State.pairNote_follows h3
    · exact State.setGran_follows h3

theorem State.memFault_follows {s : State} {ag : Agent} {status : Nat} {space : Nat} {addr : Nat} (hs : Follows origin s) :
    Follows origin (State.memFault s ag status space addr) := by
  unfold State.memFault
  repeat' with_reducible first
    | assumption | intro _ | apply State.modMemCtx_follows | apply State.report_follows | apply State.markBad_follows
    | apply Follows.ite

theorem State.wallFault_follows {s : State} {ag : Agent} (hs : Follows origin s) : Follows origin (State.wallFault s ag) :=
  State.report_follows hs

theorem State.touch_follows {s : State} {ag : Agent} {space : Nat} {addr : Nat} {n : Nat} (hs : Follows origin s) :
    Follows origin (State.touch s ag space addr n).2 := by
  unfold State.touch
  repeat' with_reducible first
    | assumption | intro _ | apply State.readGran_follows | apply State.memFault_follows | apply State.wallFault_follows | apply Follows.foldl_snd
    | split | (extract_lets)

theorem State.touch_follows_eq {s : State} {ag : Agent} {space : Nat} {addr : Nat} {n : Nat} {y0 : Nat} {t_ : State} (hs : Follows origin s) (he : State.touch s ag space addr n = (y0, t_)) :
    Follows origin t_ := by
  have k : Follows origin (State.touch s ag space addr n).2 := State.touch_follows hs
  rw [he] at k
  exact k

theorem State.readRange_follows {s : State} {ag : Agent} {space : Nat} {addr : Nat} {n : Nat} (hs : Follows origin s) :
    Follows origin (State.readRange s ag space addr n).2.2 := by
  unfold State.readRange
  repeat' with_reducible first | assumption | apply State.touch_follows | split | (extract_lets)

theorem State.readRange_follows_eq {s : State} {ag : Agent} {space : Nat} {addr : Nat} {n : Nat} {y0 : Nat} {y1 : List Byte} {t_ : State} (hs : Follows origin s) (he : State.readRange s ag space addr n = (y0, y1, t_)) :
    Follows origin t_ := by
  have k : Follows origin (State.readRange s ag space addr n).2.2 := State.readRange_follows hs
  rw [he] at k
  exact k

theorem State.writeRange_follows {s : State} {ag : Agent} {space : Nat} {addr : Nat} {bs : List Byte} (hs : Follows origin s) :
    Follows origin (State.writeRange s ag space addr bs).2 := by
  unfold State.writeRange
  repeat' with_reducible first
    | assumption | intro _ | apply State.writeGran_follows | apply State.memFault_follows | apply State.wallFault_follows | apply Follows.foldl_snd
    | split

theorem State.writeRange_follows_eq {s : State} {ag : Agent} {space : Nat} {addr : Nat} {bs : List Byte} {y0 : Nat} {t_ : State} (hs : Follows origin s) (he : State.writeRange s ag space addr bs = (y0, t_)) :
    Follows origin t_ := by
  have k : Follows origin (State.writeRange s ag space addr bs).2 := State.writeRange_follows hs
  rw [he] at k
  exact k

theorem State.rangeState_follows {s : State} {ag : Agent} {space : Nat} {addr : Nat} {n : Nat} {st : Nat} (hs : Follows origin s) :
    Follows origin (State.rangeState s ag space addr n st).2 := by
  unfold State.rangeState
  repeat' with_reducible first
    | assumption | intro _ | apply State.setGran_follows | refine Follows.upd (State.clearEcc_follows ?_) rfl
    | apply State.cow_follows | apply State.memFault_follows | apply State.wallFault_follows | apply Follows.foldl_snd | split

theorem State.rangeState_follows_eq {s : State} {ag : Agent} {space : Nat} {addr : Nat} {n : Nat} {st : Nat} {y0 : Nat} {t_ : State} (hs : Follows origin s) (he : State.rangeState s ag space addr n st = (y0, t_)) :
    Follows origin t_ := by
  have k : Follows origin (State.rangeState s ag space addr n st).2 := State.rangeState_follows hs
  rw [he] at k
  exact k

theorem State.writeProg_follows {s : State} {ag : Agent} {progCm : Nat} {v : Nat} (hs : Follows origin s) :
    Follows origin (State.writeProg s ag progCm v) := by
  unfold State.writeProg
  repeat' with_reducible first | assumption | apply State.writeRange_follows

theorem State.progress_follows {s : State} {g : Nat} (hs : Follows origin s) :
    Follows origin (State.progress s g) := by
  unfold State.progress
  repeat' with_reducible first | assumption | apply State.modMon_follows

end Sys2Proof.Machine
end

