-- ==== Sys2Proof/Laws/FollowsLink.lean ====
section
/-! SUPPORT. Every operation of Machine/Link.lean takes a state that follows a sound one to one that does (Laws/Follows.lean). -/

namespace Sys2Proof.Machine

variable {origin : State}

theorem State.modPort_follows {s : State} {p : Nat} {f : FabPort → FabPort} (hs : Follows origin s) :
    Follows origin (State.modPort s p f) := by
  unfold State.modPort
  repeat' with_reducible first | assumption | exact Follows.upd (by assumption) rfl

theorem State.portStatus_follows {s : State} {p : Nat} {status : Nat} (hs : Follows origin s) :
    Follows origin (State.portStatus s p status) := by
  unfold State.portStatus
  repeat' with_reducible first | assumption | apply State.report_follows | apply State.modPort_follows

theorem State.pumpVc_follows {s : State} {p : Nat} {v : Nat} (hs : Follows origin s) :
    Follows origin (State.pumpVc s p v) := by
  unfold State.pumpVc
  repeat' with_reducible first
    | assumption | intro _ | apply State.send_follows | apply State.modPort_follows | apply Follows.ite
    | apply Follows.foldl

theorem State.giveCell_follows {s : State} {p : Nat} {v : Nat} {c : Cell} (hs : Follows origin s) :
    Follows origin (State.giveCell s p v c) := by
  unfold State.giveCell
  repeat' with_reducible first | assumption | apply State.modPort_follows | apply State.pumpVc_follows

theorem State.givePacket_follows {s : State} {p : Nat} {v : Nat} {k : Packet} (hs : Follows origin s) :
    Follows origin (State.givePacket s p v k) := by
  unfold State.givePacket
  repeat' with_reducible first | assumption | intro _ | apply State.giveCell_follows | apply Follows.foldl

theorem State.sendHello_follows {s : State} {p : Nat} {serial : Nat} {digest : Nat} (hs : Follows origin s) :
    Follows origin (State.sendHello s p serial digest) := by
  unfold State.sendHello
  repeat' with_reducible first | assumption | apply State.send_follows

theorem State.dropKept_follows {s : State} {p : Nat} (hs : Follows origin s) :
    Follows origin (State.dropKept s p) := by
  unfold State.dropKept
  repeat' with_reducible first
    | assumption | intro _ | apply State.modPort_follows | apply State.portStatus_follows | apply Follows.ite

theorem State.portDown_follows {s : State} {p : Nat} (hs : Follows origin s) :
    Follows origin (State.portDown s p) := by
  unfold State.portDown
  repeat' with_reducible first | assumption | apply State.modPort_follows

theorem State.portFailed_follows {s : State} {p : Nat} (hs : Follows origin s) :
    Follows origin (State.portFailed s p) := by
  unfold State.portFailed
  repeat' with_reducible first
    | assumption | apply State.modPort_follows | apply State.portStatus_follows | apply State.dropKept_follows

theorem State.trained_follows {s : State} {p : Nat} {width : Nat} {serial : Nat} {digest : Nat} {ok : Bool} (hs : Follows origin s) :
    Follows origin (State.trained s p width serial digest ok) := by
  unfold State.trained
  repeat' with_reducible first
    | assumption | intro _ | apply State.modPort_follows | apply State.portStatus_follows
    | apply State.sendHello_follows | apply State.portFailed_follows | apply Follows.ite

theorem State.takeReturns_follows {s : State} {f : Frame} (hs : Follows origin s) :
    Follows origin (State.takeReturns s f) := by
  unfold State.takeReturns
  repeat' with_reducible first | assumption | apply State.modPort_follows | apply State.pumpVc_follows

theorem State.replay_follows {s : State} {p : Nat} {v : Nat} (hs : Follows origin s) :
    Follows origin (State.replay s p v) := by
  unfold State.replay
  repeat' with_reducible first
    | assumption | intro _ | apply State.send_follows | apply State.modPort_follows | apply State.portStatus_follows
    | apply State.portDown_follows | apply Follows.ite | apply Follows.foldl

theorem execFrameReceive_follows {f : Frame} {at_ : Nat} {s0 : State} (hs : Follows origin s0) :
    Keeps origin (execFrameReceive f at_ s0) := by
  unfold execFrameReceive
  repeat' with_reducible first
    | assumption | intro _ | apply State.atClk_follows | apply State.send_follows | apply State.modPort_follows
    | apply State.takeReturns_follows | apply State.replay_follows | apply Keeps.next | apply Keeps.ite
    | apply Follows.ite

theorem State.freeBufs_follows {s : State} {p : Nat} {v : Nat} {gen : Nat} {n : Nat} (hs : Follows origin s) :
    Follows origin (State.freeBufs s p v gen n) := by
  unfold State.freeBufs
  repeat' with_reducible first
    | assumption | intro _ | exact Follows.upd (by assumption) rfl | apply State.send_follows
    | apply State.modPort_follows | apply Follows.ite

theorem State.takeVc0_follows {s : State} {p : Nat} {n : Nat} (hs : Follows origin s) :
    Follows origin (State.takeVc0 s p n) := by
  unfold State.takeVc0
  repeat' with_reducible first | assumption | intro _ | apply State.freeBufs_follows | apply Follows.ite

theorem execLinkIdleTimeout_follows {p : Nat} {at_ : Nat} {s0 : State} (hs : Follows origin s0) :
    Keeps origin (execLinkIdleTimeout p at_ s0) := by
  unfold execLinkIdleTimeout
  repeat' with_reducible first
    | assumption | intro _ | apply State.atClk_follows | apply State.portDown_follows | apply Keeps.next
    | apply Keeps.ite

theorem execPortDown_follows {p : Nat} {at_ : Nat} {s0 : State} (hs : Follows origin s0) :
    Keeps origin (execPortDown p at_ s0) := by
  unfold execPortDown
  repeat' with_reducible first
    | assumption | intro _ | apply State.atClk_follows | apply State.portDown_follows | apply Keeps.next
    | apply Keeps.ite

theorem State.sendMarker_follows {s : State} {p : Nat} {v : Nat} (hs : Follows origin s) :
    Follows origin (State.sendMarker s p v) := by
  unfold State.sendMarker
  repeat' with_reducible first | assumption | apply State.giveCell_follows

theorem execCensusMarkerReceive_follows {p : Nat} {v : Nat} {h : Nat} {rs : Nat} {sent : Nat} {at_ : Nat} {s0 : State} (hs : Follows origin s0) :
    Keeps origin (execCensusMarkerReceive p v h rs sent at_ s0) := by
  unfold execCensusMarkerReceive
  repeat' with_reducible first
    | assumption | intro _ | apply State.atClk_follows | apply State.modPort_follows | apply State.portStatus_follows
    | apply State.portDown_follows | apply State.freeBufs_follows | apply Keeps.next | apply Keeps.ite

theorem State.resend_follows {s : State} {p : Nat} (hs : Follows origin s) :
    Follows origin (State.resend s p) := by
  unfold State.resend
  repeat' with_reducible first
    | assumption | intro _ | apply State.send_follows | apply State.pumpVc_follows | apply Follows.foldl

theorem execHelloReceive_follows {p : Nat} {h : Hello} {at_ : Nat} {s0 : State} (hs : Follows origin s0) :
    Keeps origin (execHelloReceive p h at_ s0) := by
  unfold execHelloReceive
  repeat' with_reducible first
    | assumption | intro _ | apply State.atClk_follows | apply State.modPort_follows | apply State.portStatus_follows
    | apply State.dropKept_follows | apply State.resend_follows | apply Keeps.next | apply Keeps.ite | apply Follows.ite

theorem State.fabRefuse_follows {s : State} (hs : Follows origin s) :
    Follows origin (State.fabRefuse s) := by
  unfold State.fabRefuse
  repeat' with_reducible first | assumption | exact Follows.upd (by assumption) rfl

theorem State.fabCmd_follows {s : State} {p : Nat} {act : State → State} (hs : Follows origin s)
    (ha : ∀ t, Follows origin t → Follows origin (act t)) : Follows origin (State.fabCmd s p act) := by
  unfold State.fabCmd
  exact Follows.ite (fun _ => State.fabRefuse_follows (Follows.upd hs rfl)) fun _ => ha _ (Follows.upd hs rfl)

theorem execFullSearchRetry_follows {p : Nat} {at_ : Nat} {s0 : State} (hs : Follows origin s0) :
    Keeps origin (execFullSearchRetry p at_ s0) := by
  unfold execFullSearchRetry
  repeat' with_reducible first
    | assumption | intro _ | apply State.atClk_follows | apply State.modPort_follows | apply Keeps.next
    | apply Keeps.ite

theorem execFabRetrain_follows {p : Nat} {s : State} (hs : Follows origin s) :
    Keeps origin (execFabRetrain p s) := by
  unfold execFabRetrain
  repeat' with_reducible first
    | assumption | intro _ | apply State.portDown_follows | apply State.fabCmd_follows | apply Keeps.next
    | apply Follows.ite

theorem execFabFullSearch_follows {p : Nat} {s : State} (hs : Follows origin s) :
    Keeps origin (execFabFullSearch p s) := by
  unfold execFabFullSearch
  repeat' with_reducible first
    | assumption | intro _ | apply State.modPort_follows | apply State.portDown_follows | apply State.fabCmd_follows
    | apply Keeps.next | apply Follows.ite

theorem execFabPortOff_follows {p : Nat} {s : State} (hs : Follows origin s) :
    Keeps origin (execFabPortOff p s) := by
  unfold execFabPortOff
  repeat' with_reducible first
    | assumption | intro _ | refine Follows.upd (State.modPort_follows ?_) rfl | apply State.fabCmd_follows
    | apply Keeps.next

theorem execFabPortOn_follows {p : Nat} {s : State} (hs : Follows origin s) :
    Keeps origin (execFabPortOn p s) := by
  unfold execFabPortOn
  repeat' with_reducible first
    | assumption | intro _ | apply State.modPort_follows | apply State.portDown_follows | apply State.fabCmd_follows
    | apply Keeps.next | apply Follows.ite

theorem execFabCommit_follows {s : State} (hs : Follows origin s) :
    Keeps origin (execFabCommit s) := by
  unfold execFabCommit
  repeat' with_reducible first
    | assumption | intro _ | exact Follows.upd (by assumption) rfl | apply State.fabRefuse_follows | apply Keeps.next
    | apply Keeps.ite

theorem execFabDevWrite_follows {value : Nat} {s : State} (hs : Follows origin s) :
    Keeps origin (execFabDevWrite value s) := by
  unfold execFabDevWrite
  repeat' with_reducible first
    | assumption | intro _ | exact Follows.upd (by assumption) rfl | apply State.fabRefuse_follows | apply Keeps.next
    | apply Keeps.ite

theorem State.devEdge_follows {s : State} {serial : Nat} {digest : Nat} (hs : Follows origin s) :
    Follows origin (State.devEdge s serial digest) := by
  unfold State.devEdge
  repeat' with_reducible first
    | assumption | intro _ | exact Follows.upd (by assumption) rfl | apply State.sendHello_follows | apply Follows.foldl
    | split

theorem State.modJob_follows {s : State} {slot : Nat} {f : FabJob → FabJob} (hs : Follows origin s) :
    Follows origin (State.modJob s slot f) := by
  unfold State.modJob
  repeat' with_reducible first | assumption | exact Follows.upd (by assumption) rfl

theorem execFabCtxJobWrite_follows {c : Nat} {value : Nat} {s : State} (hs : Follows origin s) :
    Keeps origin (execFabCtxJobWrite c value s) := by
  unfold execFabCtxJobWrite
  repeat' with_reducible first
    | assumption | intro _ | refine Follows.upd (State.finalFlag_follows ?_) rfl | apply State.fabRefuse_follows
    | apply Keeps.next | apply Keeps.ite

theorem State.emit_follows {s : State} {k : Packet} (hs : Follows origin s) :
    Follows origin (State.emit s k) := by
  unfold State.emit
  repeat' with_reducible first | assumption | exact Follows.upd (by assumption) rfl

end Sys2Proof.Machine
end

