-- ==== Sys2Proof/Laws/FollowsOptics.lean ====
section
/-! SUPPORT. Every operation of Machine/Optics.lean takes a state that follows a sound one to one that does (Laws/Follows.lean). -/

namespace Sys2Proof.Machine

variable {origin : State}

theorem State.modEng_follows {s : State} {e : Nat} {f : Eng → Eng} (hs : Follows origin s) :
    Follows origin (State.modEng s e f) := by
  unfold State.modEng
  repeat' with_reducible first | assumption | exact Follows.upd (by assumption) rfl

theorem State.modBus_follows {s : State} {b : Nat} {f : Bus → Bus} (hs : Follows origin s) :
    Follows origin (State.modBus s b f) := by
  unfold State.modBus
  repeat' with_reducible first | assumption | exact Follows.upd (by assumption) rfl

theorem State.modRing_follows {s : State} {i : Nat} {f : Ring → Ring} (hs : Follows origin s) :
    Follows origin (State.modRing s i f) := by
  unfold State.modRing
  repeat' with_reducible first | assumption | exact Follows.upd (by assumption) rfl

theorem State.modAdc_follows {s : State} {e : Nat} {f : Adc → Adc} (hs : Follows origin s) :
    Follows origin (State.modAdc s e f) := by
  unfold State.modAdc
  repeat' with_reducible first | assumption | exact Follows.upd (by assumption) rfl

theorem State.optStatus_follows {s : State} {e : Nat} {status : Nat} {loc : Nat} (hs : Follows origin s) :
    Follows origin (State.optStatus s e status loc) := by
  unfold State.optStatus
  repeat' with_reducible first | assumption | apply State.report_follows | apply State.modEng_follows

theorem State.optRefuse_follows {s : State} {e : Nat} (hs : Follows origin s) :
    Follows origin (State.optRefuse s e) := by
  unfold State.optRefuse
  repeat' with_reducible first | assumption | apply State.modEng_follows

theorem State.mapRefuse_follows {s : State} {e : Nat} (hs : Follows origin s) :
    Follows origin (State.mapRefuse s e) := by
  unfold State.mapRefuse
  repeat' with_reducible first | assumption | apply State.optStatus_follows | apply State.optRefuse_follows

theorem State.setBus_follows {s : State} {b : Nat} {start : Nat} {bad : Nat} {c : Cand} (hs : Follows origin s) :
    Follows origin (State.setBus s b start bad c) := by
  unfold State.setBus
  repeat' with_reducible first
    | assumption | intro _ | apply State.modBus_follows | apply State.modRing_follows | apply Follows.foldl

theorem State.startSearch_follows {s : State} {e : Nat} {cached : Bool} (hs : Follows origin s) :
    Follows origin (State.startSearch s e cached) := by
  unfold State.startSearch
  repeat' with_reducible first
    | assumption | intro _ | refine Follows.upd (State.modEng_follows ?_) rfl | apply Follows.ite

theorem execEngineSearch_follows {e : Nat} {s : State} (hs : Follows origin s) :
    Keeps origin (execEngineSearch e s) := by
  unfold execEngineSearch
  repeat' with_reducible first | assumption | apply State.startSearch_follows | apply Keeps.next

theorem execEngineSearchCached_follows {e : Nat} {s : State} (hs : Follows origin s) :
    Keeps origin (execEngineSearchCached e s) := by
  unfold execEngineSearchCached
  repeat' with_reducible first | assumption | apply State.startSearch_follows | apply Keeps.next

theorem State.searchBus_follows {s : State} {b : Nat} {meas : List Nat} {bad temp : Nat} (hs : Follows origin s) :
    Follows origin (State.searchBus s b meas bad temp) := by
  unfold State.searchBus
  exact State.modBus_follows (State.setBus_follows hs)

theorem State.elemSearch_follows {s : State} {full : Bool} (hs : Follows origin s) : Follows origin (State.elemSearch s full) :=
  Follows.upd hs rfl

theorem execSearchComplete_follows {e : Nat} {buses : List (List Nat × Nat)} {found : Bool} {temp : Nat} {s : State} (hs : Follows origin s) :
    Keeps origin (execSearchComplete e buses found temp s) := by
  unfold execSearchComplete
  repeat' with_reducible first
    | assumption | intro _ | apply State.modPort_follows | apply State.modEng_follows | apply State.modBus_follows
    | apply State.optStatus_follows | apply State.setBus_follows | apply State.searchBus_follows
    | apply State.elemSearch_follows | apply Keeps.next | apply Follows.foldl | split
    | (extract_lets)

theorem State.setLane_follows {s : State} {e : Nat} {key : Nat} {role : Nat} {on : Bool} (hs : Follows origin s) :
    Follows origin (State.setLane s e key role on) := by
  unfold State.setLane
  repeat' with_reducible first
    | assumption | intro _ | apply State.modBus_follows | apply State.modRing_follows | apply Follows.foldl | split

theorem State.askLane_follows {s : State} {e : Nat} {key : Nat} {fault : Bool} (hs : Follows origin s) :
    Follows origin (State.askLane s e key fault) := by
  unfold State.askLane
  repeat' with_reducible first
    | assumption | intro _ | apply State.giveCell_follows | apply State.modEng_follows | apply Follows.ite

theorem State.laneFault_follows {s : State} {e : Nat} {key : Nat} (hs : Follows origin s) :
    Follows origin (State.laneFault s e key) := by
  unfold State.laneFault
  repeat' with_reducible first
    | assumption | intro _ | apply State.modEng_follows | apply State.askLane_follows | apply Follows.ite

theorem State.laneBack_follows {s : State} {e : Nat} {key : Nat} (hs : Follows origin s) :
    Follows origin (State.laneBack s e key) := by
  unfold State.laneBack
  repeat' with_reducible first
    | assumption | apply State.modPort_follows | apply State.modEng_follows | apply State.setLane_follows | split

theorem State.laneLeaves_follows {s : State} {e : Nat} {o : LaneOut} (hs : Follows origin s) :
    Follows origin (State.laneLeaves s e o) := by
  unfold State.laneLeaves
  repeat' with_reducible first
    | assumption | intro _ | apply State.modPort_follows | apply State.portStatus_follows | apply State.portDown_follows
    | apply State.modEng_follows | apply State.setLane_follows | apply Follows.ite

theorem execLaneOutRequest_follows {p : Nat} {w : Nat} {fault : Bool} {s0 : State} (hs : Follows origin s0) :
    Keeps origin (execLaneOutRequest p w fault s0) := by
  unfold execLaneOutRequest
  repeat' with_reducible first
    | assumption | intro _ | apply State.giveCell_follows | apply State.takeVc0_follows | apply State.modEng_follows
    | apply Keeps.next | apply Keeps.ite | apply Follows.ite

theorem State.tryLane_follows {s : State} {e : Nat} {key : Nat} (hs : Follows origin s) :
    Follows origin (State.tryLane s e key).2 := by
  unfold State.tryLane
  repeat' with_reducible first
    | assumption | apply State.modEng_follows | apply State.askLane_follows | split | (extract_lets)

theorem State.tryLane_follows_eq {s : State} {e : Nat} {key : Nat} {y0 : Bool} {t_ : State} (hs : Follows origin s) (he : State.tryLane s e key = (y0, t_)) :
    Follows origin t_ := by
  have k : Follows origin (State.tryLane s e key).2 := State.tryLane_follows hs
  rw [he] at k
  exact k

theorem State.calNext_follows {s : State} {e : Nat} (hs : Follows origin s) :
    Follows origin (State.calNext s e) := by
  unfold State.calNext
  repeat' with_reducible first
    | assumption | intro _ | apply State.modEng_follows | apply State.tryLane_follows | apply Follows.ite
    | apply Follows.foldl_snd | split

theorem execCalCycleStart_follows {e : Nat} {at_ : Nat} {s0 : State} (hs : Follows origin s0) :
    Keeps origin (execCalCycleStart e at_ s0) := by
  unfold execCalCycleStart
  repeat' with_reducible first
    | assumption | intro _ | apply State.atClk_follows | apply State.modEng_follows | apply State.calNext_follows
    | apply Keeps.next | apply Keeps.ite

theorem execLaneOutReply_follows {p : Nat} {w : Nat} {accept : Bool} {s0 : State} (hs : Follows origin s0) :
    Keeps origin (execLaneOutReply p w accept s0) := by
  unfold execLaneOutReply
  repeat' with_reducible first
    | assumption | apply State.takeVc0_follows | apply State.modEng_follows | apply State.calNext_follows
    | apply Keeps.next | split | (extract_lets)

theorem State.relock_follows {s : State} {e : Nat} {i : Nat} {d : Int} (hs : Follows origin s) :
    Follows origin (State.relock s e i d) := by
  unfold State.relock
  repeat' with_reducible first
    | assumption | intro _ | exact Follows.upd (by assumption) rfl | apply State.modRing_follows | apply Follows.ite
    | apply Follows.foldl

theorem execCalSlotEnd_follows {e : Nat} {dTx : Int} {dRx : Int} {s : State} (hs : Follows origin s) :
    Keeps origin (execCalSlotEnd e dTx dRx s) := by
  unfold execCalSlotEnd
  repeat' with_reducible first
    | assumption | intro _ | apply State.modPort_follows | apply State.modEng_follows | apply State.modBus_follows
    | apply State.optStatus_follows | apply State.laneBack_follows | apply State.calNext_follows
    | apply State.relock_follows | apply Keeps.next | apply Follows.foldl | split | dsimp only

theorem execLockVisit_follows {b : Nat} {r : Nat} {err : Int} {s : State} (hs : Follows origin s) :
    Keeps origin (execLockVisit b r err s) := by
  unfold execLockVisit
  repeat' with_reducible first
    | assumption | intro _ | apply State.modEng_follows | apply State.modBus_follows | apply State.modRing_follows
    | apply State.optStatus_follows | apply State.laneFault_follows | apply Keeps.next | apply Keeps.ite

theorem execCombLineLow_follows {p : Nat} {w : Nat} {s : State} (hs : Follows origin s) :
    Keeps origin (execCombLineLow p w s) := by
  unfold execCombLineLow
  repeat' with_reducible first
    | assumption | intro _ | apply State.laneFault_follows | apply Keeps.next | apply Keeps.ite

theorem State.abandonCal_follows {s : State} {e : Nat} {ts : List Nat} (hs : Follows origin s) :
    Follows origin (State.abandonCal s e ts) := by
  unfold State.abandonCal
  repeat' with_reducible first | assumption | apply State.modEng_follows

theorem execLaserLoss_follows {e : Nat} {L : Nat} {s : State} (hs : Follows origin s) :
    Keeps origin (execLaserLoss e L s) := by
  unfold execLaserLoss
  repeat' with_reducible first
    | assumption | intro _ | apply State.portDown_follows | apply State.modEng_follows | apply State.optStatus_follows
    | apply State.abandonCal_follows | apply Keeps.next | apply Keeps.ite | apply Follows.ite | apply Follows.foldl

theorem execLaserRestored_follows {e : Nat} {L : Nat} {s : State} (hs : Follows origin s) :
    Keeps origin (execLaserRestored e L s) := by
  unfold execLaserRestored
  repeat' with_reducible first | assumption | intro _ | apply State.modEng_follows | apply Keeps.next | apply Keeps.ite

theorem execTableModeUpdate_follows {e : Nat} {t4 : Int} {s : State} (hs : Follows origin s) :
    Keeps origin (execTableModeUpdate e t4 s) := by
  unfold execTableModeUpdate
  repeat' with_reducible first
    | assumption | intro _ | apply State.report_follows | apply State.modEng_follows | apply State.modRing_follows
    | apply State.optStatus_follows | apply Keeps.next | apply Keeps.ite | apply Follows.ite | apply Follows.foldl

theorem execTableModeWrite_follows {e : Nat} {value : Nat} {s : State} (hs : Follows origin s) :
    Keeps origin (execTableModeWrite e value s) := by
  unfold execTableModeWrite
  repeat' with_reducible first
    | assumption | intro _ | apply State.modEng_follows | apply State.optRefuse_follows | apply Keeps.next
    | apply Keeps.ite

theorem execSwitchSlotWrite_follows {i : Nat} {value : Nat} {s : State} (hs : Follows origin s) :
    Keeps origin (execSwitchSlotWrite i value s) := by
  unfold execSwitchSlotWrite
  repeat' with_reducible first
    | assumption | intro _ | exact Follows.upd (by assumption) rfl | apply State.mapRefuse_follows | apply Keeps.next
    | apply Keeps.ite

theorem execMapApply_follows {e : Nat} {slot : Nat} {s0 : State} (hs : Follows origin s0) :
    Keeps origin (execMapApply e slot s0) := by
  unfold execMapApply
  repeat' with_reducible first
    | assumption | intro _ | apply State.modEng_follows | apply State.mapRefuse_follows | apply Keeps.next
    | apply Keeps.ite

theorem execPlanEntryWrite_follows {i : Nat} {word : Nat} {value : Nat} {s : State} (hs : Follows origin s) :
    Keeps origin (execPlanEntryWrite i word value s) := by
  unfold execPlanEntryWrite
  repeat' with_reducible first
    | assumption | intro _ | exact Follows.upd (by assumption) rfl | apply State.mapRefuse_follows | apply Keeps.next
    | apply Keeps.ite

theorem State.planHear_follows {s : State} {c : Nat} {g : Nat} {ph : Nat} (hs : Follows origin s) :
    Follows origin (State.planHear s c g ph) := by
  unfold State.planHear
  repeat' with_reducible first
    | assumption | intro _ | apply State.modEng_follows | apply Follows.ite | apply Follows.foldl

theorem State.planBarrier_follows {s : State} {c : Nat} {barrier : Bool} (hs : Follows origin s) :
    Follows origin (State.planBarrier s c barrier) := by
  unfold State.planBarrier
  repeat' with_reducible first
    | assumption | intro _ | apply State.modEng_follows | apply Follows.ite | apply Follows.foldl

theorem State.freeze_follows {s : State} {p : Nat} (hs : Follows origin s) :
    Follows origin (State.freeze s p) := by
  unfold State.freeze
  repeat' with_reducible first
    | assumption | intro _ | exact Follows.upd (by assumption) rfl | apply State.modPort_follows | apply Follows.ite

theorem State.switchPort_follows {s : State} {e : Nat} {t : Nat} {code : Nat} (hs : Follows origin s) :
    Follows origin (State.switchPort s e t code) := by
  unfold State.switchPort
  repeat' with_reducible first
    | assumption | apply State.send_follows | apply State.modPort_follows | apply State.abandonCal_follows
    | apply State.freeze_follows | split | (extract_lets)

theorem State.setMaps_follows {s : State} {e : Nat} {base : Nat} {overlay : Nat} (hs : Follows origin s) :
    Follows origin (State.setMaps s e base overlay) := by
  unfold State.setMaps
  repeat' with_reducible first
    | assumption | intro _ | apply State.modEng_follows | apply State.switchPort_follows | apply Follows.ite
    | apply Follows.foldl

theorem State.mapEdge_follows {s : State} {e : Nat} (hs : Follows origin s) :
    Follows origin (State.mapEdge s e) := by
  unfold State.mapEdge
  repeat' with_reducible first
    | assumption | intro _ | apply State.modEng_follows | apply State.setMaps_follows | apply Follows.ite

theorem State.reopen_follows {s : State} {p : Nat} {c : Circ} {last : List Nat} (hs : Follows origin s) :
    Follows origin (State.reopen s p c last) := by
  unfold State.reopen
  repeat' with_reducible first
    | assumption | intro _ | exact Follows.upd (by assumption) rfl | apply State.send_follows
    | apply State.modPort_follows | apply State.resend_follows | apply Follows.ite | apply Follows.foldl

theorem execCircuitIdentReceive_follows {p : Nat} {serial : Nat} {gen : Nat} {last : List Nat} {at_ : Nat} {s0 : State} (hs : Follows origin s0) :
    Keeps origin (execCircuitIdentReceive p serial gen last at_ s0) := by
  unfold execCircuitIdentReceive
  repeat' with_reducible first
    | assumption | intro _ | apply State.atClk_follows | apply State.modEng_follows | apply State.optStatus_follows
    | apply State.reopen_follows | apply Keeps.next | apply Keeps.ite | split

theorem execPortTrainingDone_follows {p : Nat} {width : Nat} {ok : Bool} {at_ : Nat} {s0 : State} (hs : Follows origin s0) :
    Keeps origin (execPortTrainingDone p width ok at_ s0) := by
  unfold execPortTrainingDone
  repeat' with_reducible first
    | assumption | intro _ | apply State.atClk_follows | apply State.trained_follows | apply State.modEng_follows
    | apply State.laneBack_follows | apply State.elemSearch_follows | apply Keeps.next | apply Keeps.ite | apply Follows.ite
    | apply Follows.foldl | (extract_lets)

theorem State.engEdge_follows {s : State} {e : Nat} (hs : Follows origin s) :
    Follows origin (State.engEdge s e) := by
  unfold State.engEdge
  repeat' with_reducible first
    | assumption | intro _ | apply State.modEng_follows | apply State.laneLeaves_follows | apply State.mapEdge_follows
    | apply Follows.foldl

theorem State.optEdge_follows {s : State} (hs : Follows origin s) :
    Follows origin (State.optEdge s) := by
  unfold State.optEdge
  repeat' with_reducible first | assumption | apply State.engEdge_follows

theorem State.feedForward_follows {s : State} {e : Nat} (hs : Follows origin s) :
    Follows origin (State.feedForward s e) := by
  unfold State.feedForward
  extract_lets x tm s1
  have h1 : Follows origin s1 := State.modEng_follows hs
  repeat' with_reducible first
    | assumption | intro _ | apply State.modRing_follows | apply Follows.ite | apply Follows.foldl | (extract_lets)

theorem State.feedForwardEdge_follows {s : State} (hs : Follows origin s) :
    Follows origin (State.feedForwardEdge s) :=
  State.feedForward_follows (State.feedForward_follows hs)

theorem execAdcSampleDone_follows {e : Nat} {code : Nat} {s : State} (hs : Follows origin s) :
    Keeps origin (execAdcSampleDone e code s) := by
  unfold execAdcSampleDone
  repeat' with_reducible first | assumption | intro _ | apply State.modAdc_follows | apply Keeps.next | apply Keeps.ite

theorem execAdcSettingsWrite_follows {e : Nat} {value : Nat} {s : State} (hs : Follows origin s) :
    Keeps origin (execAdcSettingsWrite e value s) := by
  unfold execAdcSettingsWrite
  repeat' with_reducible first
    | assumption | intro _ | apply State.modEng_follows | apply State.modAdc_follows | apply State.calNext_follows
    | apply Keeps.next | apply Keeps.ite | apply Follows.ite

end Sys2Proof.Machine
end

