-- ==== Sys2Proof/Laws/FollowsBoot.lean ====
section
/-! SUPPORT. Every operation of Machine/Boot.lean takes a state that follows a sound one to one that does (Laws/Follows.lean). -/

namespace Sys2Proof.Machine

variable {origin : State}

theorem State.lost_follows {s : State} (hs : Follows origin s) : Follows origin (State.lost s) :=
  { hs with sound := ⟨rfl, Nat.zero_le _, show (pairOf 64 0).ok = true by decide⟩ }

theorem State.rails_follows {s : State} {rs : List Nat} {on : Bool} (hs : Follows origin s) :
    Follows origin (State.rails s rs on) := by
  unfold State.rails
  repeat' with_reducible first | assumption | intro _ | apply State.send_follows | apply Follows.foldl

theorem State.brownOut_follows {s : State} (hs : Follows origin s) :
    Follows origin (State.brownOut s) := by
  unfold State.brownOut
  repeat' with_reducible first | assumption | apply State.lost_follows | apply State.rails_follows

theorem State.release_follows {s : State} (hs : Follows origin s) :
    Follows origin (State.release s) := by
  unfold State.release
  repeat' with_reducible first | assumption | exact Follows.upd (by assumption) rfl

theorem State.powerCycle_follows {s : State} {selZero : Bool} (hs : Follows origin s) :
    Follows origin (State.powerCycle s selZero) := by
  unfold State.powerCycle
  exact State.release_follows (Follows.upd (State.brownOut_follows hs) rfl)

theorem execVAonValid_follows {s : State} (hs : Follows origin s) :
    Keeps origin (execVAonValid s) := by
  unfold execVAonValid
  repeat' with_reducible first
    | assumption | intro _ | refine Follows.upd (State.lost_follows ?_) rfl | apply Keeps.next | apply Keeps.ite

theorem execVAonLoss_follows {s : State} (hs : Follows origin s) :
    Keeps origin (execVAonLoss s) := by
  unfold execVAonLoss
  repeat' with_reducible first | assumption | refine Follows.upd (State.lost_follows ?_) rfl | apply Keeps.next

theorem execVbusAbove_follows {at_ : Nat} {s0 : State} (hs : Follows origin s0) :
    Keeps origin (execVbusAbove at_ s0) := by
  unfold execVbusAbove
  repeat' with_reducible first
    | assumption | intro _ | refine Follows.upd (State.atClk_follows ?_) rfl | apply State.release_follows
    | apply Keeps.next | apply Keeps.ite

theorem execBrownOut_follows {at_ : Nat} {s0 : State} (hs : Follows origin s0) :
    Keeps origin (execBrownOut at_ s0) := by
  unfold execBrownOut
  repeat' with_reducible first
    | assumption | intro _ | apply State.atClk_follows | apply State.brownOut_follows | apply Keeps.next
    | apply Follows.ite

theorem State.bootHalt_follows {s : State} {reason : Nat} (hs : Follows origin s) :
    Follows origin (State.bootHalt s reason) := by
  unfold State.bootHalt
  repeat' with_reducible first | assumption | exact Follows.upd (by assumption) rfl

theorem State.romWait_follows {s : State} (hs : Follows origin s) :
    Follows origin (State.romWait s) := by
  unfold State.romWait
  repeat' with_reducible first | assumption | exact Follows.upd (by assumption) rfl

theorem execPllLock_follows {bootSel : Nat} {at_ : Nat} {s0 : State} (hs : Follows origin s0) :
    Keeps origin (execPllLock bootSel at_ s0) := by
  unfold execPllLock
  repeat' with_reducible first
    | assumption | intro _ | refine Follows.upd (State.atClk_follows ?_) rfl | apply State.report_follows
    | apply State.bootHalt_follows | apply State.romWait_follows | apply Keeps.next | apply Keeps.ite | dsimp only

theorem execPllLockTimeout_follows {at_ : Nat} {s0 : State} (hs : Follows origin s0) :
    Keeps origin (execPllLockTimeout at_ s0) := by
  unfold execPllLockTimeout
  repeat' with_reducible first
    | assumption | intro _ | apply State.atClk_follows | apply State.bootHalt_follows | apply Keeps.next
    | apply Keeps.ite

theorem State.showSlot_follows {s : State} {slot : Nat} {check : Nat} (hs : Follows origin s) :
    Follows origin (State.showSlot s slot check) := by
  unfold State.showSlot
  repeat' with_reducible first | assumption | exact Follows.upd (by assumption) rfl

theorem State.applyConfig_follows {s : State} {c : FlashConfig} (hs : Follows origin s) :
    Follows origin (State.applyConfig s c) := by
  unfold State.applyConfig
  repeat' with_reducible first | assumption | exact Follows.upd (by assumption) rfl

theorem State.bootSlot_follows {s : State} {slot : Nat} {fellBack : Bool} {c : FlashConfig} (hs : Follows origin s) :
    Follows origin (State.bootSlot s slot fellBack c) := by
  unfold State.bootSlot
  repeat' with_reducible first | assumption | refine Follows.upd (State.applyConfig_follows ?_) rfl

theorem State.chooseSlot_follows {s : State} {sel : Nat} {bad : List (Nat × List Nat)} {c : FlashConfig} (hs : Follows origin s) :
    Follows origin (State.chooseSlot s sel bad c).2 := by
  unfold State.chooseSlot
  repeat' with_reducible first
    | assumption | intro _ | apply State.showSlot_follows | apply Follows.foldl | apply Follows.foldl_trd | split
    | (extract_lets)

theorem State.chooseSlot_follows_eq {s : State} {sel : Nat} {bad : List (Nat × List Nat)} {c : FlashConfig} {y0 : Option State} {t_ : State} (hs : Follows origin s) (he : State.chooseSlot s sel bad c = (y0, t_)) :
    Follows origin t_ := by
  have k : Follows origin (State.chooseSlot s sel bad c).2 := State.chooseSlot_follows hs
  rw [he] at k
  exact k

/-- The state in which a slot is booted. -/
theorem State.chooseSlot_some {s : State} {sel : Nat} {bad : List (Nat × List Nat)} {c : FlashConfig} {t : State}
    (hs : Follows origin s) (e : (State.chooseSlot s sel bad c).1 = some t) : Follows origin t := by
  have h : Follows origin (State.chooseSlot s sel bad c).2 := State.chooseSlot_follows hs
  unfold State.chooseSlot at e h
  dsimp only at e h
  split at e
  · cases e
    simp only [*] at h
    exact State.bootSlot_follows h
  · cases e

theorem execBootSlotRead_follows {bad : List (Nat × List Nat)} {c : FlashConfig} {at_ : Nat} {s0 : State} (hs : Follows origin s0) :
    Keeps origin (execBootSlotRead bad c at_ s0) := by
  unfold execBootSlotRead
  refine Keeps.ite (fun _ => Keeps.next (State.atClk_follows hs)) fun _ => Keeps.next ?_
  split
  · exact State.chooseSlot_some (State.atClk_follows hs) ‹_›
  · exact State.romWait_follows (State.chooseSlot_follows (State.atClk_follows hs))

theorem execLeaveRomWait_follows {bad : List (Nat × List Nat)} {c : FlashConfig} {at_ : Nat} {s0 : State} (hs : Follows origin s0) :
    Keeps origin (execLeaveRomWait bad c at_ s0) := by
  unfold execLeaveRomWait
  refine Keeps.ite (fun _ => Keeps.next (State.atClk_follows hs)) fun _ => Keeps.next ?_
  split
  · exact State.chooseSlot_some (State.atClk_follows hs) ‹_›
  · exact State.bootHalt_follows (State.chooseSlot_follows (State.atClk_follows hs))

theorem execRailSequence_follows {fail : Option Nat} {at_ : Nat} {s0 : State} (hs : Follows origin s0) :
    Keeps origin (execRailSequence fail at_ s0) := by
  unfold execRailSequence
  repeat' with_reducible first
    | assumption | intro _ | apply State.atClk_follows | refine Follows.upd (State.rails_follows ?_) rfl
    | apply State.bootHalt_follows | apply Keeps.next | apply Keeps.ite | split

theorem State.partFailed_follows {s : State} {g : Nat} {result : Nat} (hs : Follows origin s) :
    Follows origin (State.partFailed s g result) := by
  unfold State.partFailed
  repeat' with_reducible first | assumption | apply State.modCtl_follows | apply State.report_follows

theorem State.standby_follows {s : State} (hs : Follows origin s) :
    Follows origin (State.standby s) := by
  unfold State.standby
  repeat' with_reducible first | assumption | exact Follows.upd (by assumption) rfl

theorem execBringupTraining_follows {saved : Bool} {welt chans : List Nat} {at_ : Nat} {s0 : State} (hs : Follows origin s0) :
    Keeps origin (execBringupTraining saved welt chans at_ s0) := by
  unfold execBringupTraining
  extract_lets s bt s1 s2 s3 s4
  have h : Follows origin s := State.atClk_follows hs
  have h1 : Follows origin s1 := Follows.upd h rfl
  have h2 : Follows origin s2 := State.startSearch_follows (State.startSearch_follows h1)
  have h3 : Follows origin s3 := Follows.foldl h2 fun _ _ k => Follows.ite (fun _ => State.modPort_follows k) fun _ => k
  have h4 : Follows origin s4 := Follows.foldl h3 fun _ _ k => State.partFailed_follows k
  exact Keeps.ite (fun _ => Keeps.next h) fun _ => Keeps.next (Follows.ite (fun _ => State.standby_follows h4) fun _ => h4)

theorem execSelfTestStart_follows {g : Nat} {at_ : Nat} {s0 : State} (hs : Follows origin s0) :
    Keeps origin (execSelfTestStart g at_ s0) := by
  unfold execSelfTestStart
  repeat' with_reducible first
    | assumption | intro _ | refine Follows.upd (State.atClk_follows ?_) rfl | apply Keeps.next | apply Keeps.ite

theorem execSelfTestComplete_follows {g : Nat} {ok : Bool} {at_ : Nat} {s0 : State} (hs : Follows origin s0) :
    Keeps origin (execSelfTestComplete g ok at_ s0) := by
  unfold execSelfTestComplete
  repeat' with_reducible first
    | assumption | intro _ | refine Follows.upd (State.atClk_follows ?_) rfl | apply State.bootHalt_follows
    | apply State.partFailed_follows | apply State.standby_follows | apply Keeps.next | apply Keeps.ite
    | apply Follows.ite

theorem State.readiness_follows {s : State} (hs : Follows origin s) :
    Follows origin (State.readiness s) := by
  unfold State.readiness
  repeat' with_reducible first | assumption | intro _ | exact Follows.upd (by assumption) rfl | apply Follows.ite

end Sys2Proof.Machine
end

