-- ==== Sys2Proof/Laws/FollowsFlags.lean ====
section
/-! SUPPORT. Every operation of Machine/Flags.lean takes a state that follows a sound one to one that does (Laws/Follows.lean). -/

namespace Sys2Proof.Machine

variable {origin : State}

theorem State.raise_follows {s : State} {ag : Agent} {mask : Nat} {row : Nat} {col : Nat} {e : Evs} {st3 : Nat} (hs : Follows origin s) :
    Follows origin (State.raise s ag mask row col e st3).2 := by
  unfold State.raise
  repeat' with_reducible first
    | assumption | apply State.modArith_follows | apply State.report_follows | apply State.stopCtx_follows
    | apply State.markBad_follows | split

theorem State.raise_follows_eq {s : State} {ag : Agent} {mask : Nat} {row : Nat} {col : Nat} {e : Evs} {st3 : Nat} {y0 : Option Nat} {t_ : State} (hs : Follows origin s) (he : State.raise s ag mask row col e st3 = (y0, t_)) :
    Follows origin t_ := by
  have k : Follows origin (State.raise s ag mask row col e st3).2 := State.raise_follows hs
  rw [he] at k
  exact k

end Sys2Proof.Machine
end

