-- ==== Sys2Proof/Laws/FollowsOperands.lean ====
section
/-! SUPPORT. Every operation of Machine/Operands.lean takes a state that follows a sound one to one that does (Laws/Follows.lean). -/

namespace Sys2Proof.Machine

variable {origin : State}

theorem State.playList_follows {s : State} {ag : Agent} {j : Nat} {n : Nat} (hs : Follows origin s) :
    Follows origin (State.playList s ag j n).2.2 := by
  unfold State.playList
  repeat' with_reducible first | assumption | apply State.readRange_follows | split | (extract_lets)

theorem State.playList_follows_eq {s : State} {ag : Agent} {j : Nat} {n : Nat} {y0 : Nat} {y1 : List Play} {t_ : State} (hs : Follows origin s) (he : State.playList s ag j n = (y0, y1, t_)) :
    Follows origin t_ := by
  have k : Follows origin (State.playList s ag j n).2.2 := State.playList_follows hs
  rw [he] at k
  exact k

theorem State.fetchRec_follows {s : State} {ag : Agent} {j : Nat} {n : Nat} {pos : Nat} (hs : Follows origin s) :
    Follows origin (State.fetchRec s ag j n pos).2.2 := by
  unfold State.fetchRec
  repeat' with_reducible first
    | assumption | apply State.readRange_follows | apply State.playList_follows | split | (extract_lets)

theorem State.fetchRec_follows_eq {s : State} {ag : Agent} {j : Nat} {n : Nat} {pos : Nat} {y0 : Nat} {y1 : Option (Where × Nat)} {t_ : State} (hs : Follows origin s) (he : State.fetchRec s ag j n pos = (y0, y1, t_)) :
    Follows origin t_ := by
  have k : Follows origin (State.fetchRec s ag j n pos).2.2 := State.fetchRec_follows hs
  rw [he] at k
  exact k

end Sys2Proof.Machine
end

