-- ==== Sys2Proof/Laws/FollowsSync.lean ====
section
/-! SUPPORT. Every operation of Machine/Sync.lean takes a state that follows a sound one to one that does (Laws/Follows.lean). -/

namespace Sys2Proof.Machine

variable {origin : State}

theorem State.censusFail_follows {s : State} {c : Nat} {f : CensusFail} (hs : Follows origin s) :
    Follows origin (State.censusFail s c f) := by
  unfold State.censusFail
  repeat' with_reducible first
    | assumption | apply State.modRun_follows | apply State.modCens_follows | apply State.report_follows
    | apply State.markBad_follows

theorem State.breakObj_follows {s : State} {c : Nat} {g : Nat} {o : Nat} (hs : Follows origin s) :
    Follows origin (State.breakObj s c g o) := by
  unfold State.breakObj
  repeat' with_reducible first
    | assumption | apply State.modSync_follows | apply State.pairNote_follows | apply State.censusFail_follows

theorem State.limitFault_follows {s : State} {g : Nat} {k : Nat} {n : Nat} (hs : Follows origin s) :
    Follows origin (State.limitFault s g k n) := by
  unfold State.limitFault
  split
  · exact hs
  · split
    · exact State.censusFail_follows hs
    · exact hs

theorem State.strand_follows {s : State} {g : Nat} {n : Nat} (hs : Follows origin s) :
    Follows origin (State.strand s g n) := by
  unfold State.strand
  repeat' with_reducible first
    | assumption | intro _ | apply State.limitFault_follows | apply State.modSync_follows | apply Follows.ite

theorem State.handUp_follows {s : State} {g : Nat} {n : Nat} (hs : Follows origin s) :
    Follows origin (State.handUp s g n) := by
  unfold State.handUp
  repeat' with_reducible first
    | assumption | intro _ | apply State.limitFault_follows | apply State.modSync_follows | apply Follows.ite

theorem State.outUp_follows {s : State} {g : Nat} {n : Nat} (hs : Follows origin s) :
    Follows origin (State.outUp s g n) := by
  unfold State.outUp
  exact State.limitFault_follows (State.modSync_follows hs)

theorem State.handDown_follows {s : State} {g : Nat} {n : Nat} (hs : Follows origin s) :
    Follows origin (State.handDown s g n) := by
  unfold State.handDown
  repeat' with_reducible first | assumption | intro _ | apply State.modSync_follows | apply Follows.ite

theorem State.give_follows {s : State} {c : Nat} {g : Nat} {o : Nat} {n : Nat} (hs : Follows origin s) :
    Follows origin (State.give s c g o n) := by
  unfold State.give
  repeat' with_reducible first
    | assumption | intro _ | apply State.modSync_follows | apply State.censusFail_follows | apply State.breakObj_follows
    | apply State.strand_follows | apply Follows.ite

theorem State.takeTokens_follows {s : State} {g : Nat} {needs : List (Nat × Nat)} (hs : Follows origin s) :
    Follows origin (State.takeTokens s g needs) := by
  unfold State.takeTokens
  repeat' with_reducible first
    | assumption | intro _ | apply State.modSync_follows | apply State.handUp_follows | apply Follows.foldl

theorem State.reseed_follows {s : State} {c : Nat} {g : Nat} (hs : Follows origin s) :
    Follows origin (State.reseed s c g) := by
  unfold State.reseed
  repeat' with_reducible first | assumption | apply State.modSync_follows

theorem State.emptySync_follows {s : State} {g : Nat} (hs : Follows origin s) :
    Follows origin (State.emptySync s g) := by
  unfold State.emptySync
  repeat' with_reducible first | assumption | apply State.modSync_follows

theorem State.readPairs_follows {s : State} {c : Nat} {g : Nat} (hs : Follows origin s) :
    Follows origin (State.readPairs s c g) := by
  unfold State.readPairs
  repeat' with_reducible first
    | assumption | intro _ | apply State.modSync_follows | apply State.pairNote_follows | apply Follows.ite

theorem State.takeCensus_follows {s : State} {c : Nat} {boundary : Bool} (hs : Follows origin s) :
    Follows origin (State.takeCensus s c boundary).2 := by
  unfold State.takeCensus
  repeat' with_reducible first
    | assumption | intro _ | apply State.modCens_follows | apply State.censusFail_follows
    | apply State.readPairs_follows | apply Follows.foldl | split | dsimp only

theorem State.takeCensus_follows_eq {s : State} {c : Nat} {boundary : Bool} {y0 : Bool} {t_ : State} (hs : Follows origin s) (he : State.takeCensus s c boundary = (y0, t_)) :
    Follows origin t_ := by
  have k : Follows origin (State.takeCensus s c boundary).2 := State.takeCensus_follows hs
  rw [he] at k
  exact k

theorem State.settle_follows {s : State} {c : Nat} (hs : Follows origin s) :
    Follows origin (State.settle s c).2 := by
  unfold State.settle
  repeat' with_reducible first | assumption | apply State.modCens_follows | split

theorem State.settle_follows_eq {s : State} {c : Nat} {y0 : Bool} {t_ : State} (hs : Follows origin s) (he : State.settle s c = (y0, t_)) :
    Follows origin t_ := by
  have k : Follows origin (State.settle s c).2 := State.settle_follows hs
  rw [he] at k
  exact k

theorem State.startSends_follows {s : State} {c : Nat} {g : Nat} {n : Nat} {idx : Nat} {r : Nat} (hs : Follows origin s) :
    Follows origin (State.startSends s c g n idx r) := by
  unfold State.startSends
  repeat' with_reducible first
    | assumption | intro _ | apply State.outUp_follows | apply State.handDown_follows | apply Follows.foldl
    | refine Follows.upd (Follows.ite ?_ ?_) rfl

theorem State.dropSend_follows {s : State} {id : Nat} (hs : Follows origin s) :
    Follows origin (State.dropSend s id) := by
  unfold State.dropSend
  repeat' with_reducible first | assumption | exact Follows.upd (by assumption) rfl

theorem State.sendsDone_follows {s : State} {e : Send} (hs : Follows origin s) :
    Follows origin (State.sendsDone s e) := by
  unfold State.sendsDone
  repeat' with_reducible first | assumption | intro _ | apply State.modClu_follows | apply Follows.ite

theorem execLocalSendApply_follows {id : Nat} {at_ : Nat} {s0 : State} (hs : Follows origin s0) :
    Keeps origin (execLocalSendApply id at_ s0) := by
  unfold execLocalSendApply
  repeat' with_reducible first
    | assumption | apply State.atClk_follows | apply State.handDown_follows | apply State.give_follows
    | apply State.dropSend_follows | apply State.sendsDone_follows | apply Keeps.next | split | (extract_lets)

theorem execRemoteSendApply_follows {id : Nat} {at_ : Nat} {s0 : State} (hs : Follows origin s0) :
    Keeps origin (execRemoteSendApply id at_ s0) := by
  unfold execRemoteSendApply
  repeat' with_reducible first
    | assumption | apply State.atClk_follows | refine Follows.upd (State.strand_follows ?_) rfl
    | refine Follows.upd (State.give_follows ?_) rfl | apply Keeps.next | split | (extract_lets)

theorem execSendAckReceive_follows {id : Nat} {at_ : Nat} {s0 : State} (hs : Follows origin s0) :
    Keeps origin (execSendAckReceive id at_ s0) := by
  unfold execSendAckReceive
  repeat' with_reducible first
    | assumption | apply State.atClk_follows | apply State.modSync_follows | apply State.dropSend_follows
    | apply State.sendsDone_follows | apply Keeps.next | split | (extract_lets)

theorem execSyncCensus_follows {c : Nat} {s0 : State} (hs : Follows origin s0) :
    Keeps origin (execSyncCensus c s0) := by
  unfold execSyncCensus
  repeat' with_reducible first
    | assumption | intro _ | refine Follows.upd (State.takeCensus_follows ?_) rfl | apply Keeps.next | apply Keeps.ite
    | refine Follows.upd (Follows.upd (by assumption) rfl) rfl

theorem State.reseedAll_follows {s : State} {c : Nat} (hs : Follows origin s) :
    Follows origin (State.reseedAll s c) := by
  unfold State.reseedAll
  repeat' with_reducible first
    | assumption | intro _ | apply State.reseed_follows | apply Follows.ite | apply Follows.foldl

theorem execSyncReseed_follows {c : Nat} {s0 : State} (hs : Follows origin s0) :
    Keeps origin (execSyncReseed c s0) := by
  unfold execSyncReseed
  repeat' with_reducible first
    | assumption | intro _ | apply State.takeCensus_follows | refine Follows.upd (State.reseedAll_follows ?_) rfl
    | apply Keeps.next | apply Keeps.ite | refine Follows.upd (Follows.upd (by assumption) rfl) rfl

end Sys2Proof.Machine
end

