-- ==== Sys2Proof/Laws/FollowsMem.lean ====
section
/-! SUPPORT. Every operation of Machine/Mem.lean takes a state that follows a sound one to one that does (Laws/Follows.lean). -/

namespace Sys2Proof.Machine

variable {origin : State}

theorem State.clearRows_follows {s : State} {chs : List Nat} {base : Nat} {count : Nat} (hs : Follows origin s) :
    Follows origin (State.clearRows s chs base count) := by
  unfold State.clearRows
  repeat' with_reducible first | assumption | intro _ | apply State.clearGrans_follows | apply Follows.foldl

theorem execWindowWrite_follows {c : Nat} {value : Nat} {s : State} (hs : Follows origin s) :
    Keeps origin (execWindowWrite c value s) := by
  unfold execWindowWrite
  repeat' with_reducible first
    | assumption | exact Follows.upd (by assumption) rfl | apply State.modMemCtx_follows | apply State.clearRows_follows
    | apply Keeps.next | split | (extract_lets)

theorem execMemArbWrite_follows {value : Nat} {s : State} (hs : Follows origin s) :
    Keeps origin (execMemArbWrite value s) := by
  unfold execMemArbWrite
  repeat' with_reducible first
    | assumption | intro _ | exact Follows.upd (by assumption) rfl | apply Keeps.next | apply Keeps.ite

theorem State.upset_follows {s : State} {gk : Nat} {ups : List (Nat × Nat)} (hs : Follows origin s) :
    Follows origin (State.upset s gk ups) := by
  unfold State.upset
  repeat' with_reducible first
    | assumption | intro _ | exact Follows.upd (by assumption) rfl | apply Follows.ite | apply Follows.foldl

theorem execGranuleRead_follows {c : Nat} {g : Nat} {n : Nat} {unit : Nat} {space : Nat} {addr : Nat} {ups : List (Nat × Nat)} {s : State} (hs : Follows origin s) :
    Keeps origin (execGranuleRead c g n unit space addr ups s) := by
  unfold execGranuleRead
  repeat' with_reducible first
    | assumption | apply State.send_follows | apply State.readGran_follows | apply State.memFault_follows
    | apply State.wallFault_follows
    | apply State.upset_follows | apply Keeps.next | split | (extract_lets)

theorem State.granuleWrite_follows {s : State} {c : Nat} {g : Nat} {n : Nat} {unit : Nat} {space : Nat} {addr : Nat} {bytes : List Byte} (hs : Follows origin s) :
    Follows origin (State.granuleWrite s c g n unit space addr bytes) := by
  unfold State.granuleWrite
  repeat' with_reducible first | assumption | apply State.writeRange_follows

theorem execEccWriteback_follows {cm : Bool} {idx : Nat} {s : State} (hs : Follows origin s) :
    Keeps origin (execEccWriteback cm idx s) := by
  unfold execEccWriteback
  repeat' with_reducible first
    | assumption | apply State.poison_follows | apply Keeps.next
    | refine Follows.upd (Follows.upd (by assumption) rfl) rfl | split | (extract_lets)

theorem State.scanWords_follows {s : State} {gk : Nat} {lo : Nat} {hi : Nat} (hs : Follows origin s) :
    Follows origin (State.scanWords s gk lo hi) := by
  unfold State.scanWords
  repeat' with_reducible first
    | assumption | intro _ | apply State.report_follows | refine Follows.upd (State.countCe_follows ?_) rfl
    | apply State.poison_follows | apply Follows.ite

theorem State.scrubBulk_follows {s : State} {ch : Nat} {ups : List (Nat × Nat)} (hs : Follows origin s) :
    Follows origin (State.scrubBulk s ch ups) := by
  unfold State.scrubBulk
  repeat' with_reducible first
    | assumption | intro _ | apply State.modChan_follows | apply State.upset_follows | apply State.scanWords_follows
    | apply Follows.ite | split

theorem State.scrubLine_follows {s : State} {k : Nat} {bank : Nat} {ups : List (Nat × Nat)} (hs : Follows origin s) :
    Follows origin (State.scrubLine s k bank ups) := by
  unfold State.scrubLine
  repeat' with_reducible first
    | assumption | apply State.modClu_follows | apply State.upset_follows | apply State.scanWords_follows | split

theorem execScrubAccess_follows {cm : Bool} {idx : Nat} {bank : Nat} {at_ : Nat} {ups : List (Nat × Nat)} {s0 : State} (hs : Follows origin s0) :
    Keeps origin (execScrubAccess cm idx bank at_ ups s0) := by
  unfold execScrubAccess
  repeat' with_reducible first
    | assumption | intro _ | apply State.atClk_follows | apply State.scrubBulk_follows | apply State.scrubLine_follows
    | apply Keeps.next | apply Keeps.ite

end Sys2Proof.Machine
end

