-- ==== Sys2Proof/Laws/FollowsTile.lean ====
section
/-! SUPPORT. Every operation of Machine/Tile.lean takes a state that follows a sound one to one that does (Laws/Follows.lean). -/

namespace Sys2Proof.Machine

variable {origin : State}

theorem State.storeElem_follows {s : State} {j : Job} {p : Nat} {t : Nat} {o : Nat} {u : Val} (hs : Follows origin s) :
    Follows origin (State.storeElem s j p t o u).2.2 := by
  unfold State.storeElem
  repeat' with_reducible first | assumption | apply State.writeRange_follows

theorem State.storeElem_follows_eq {s : State} {j : Job} {p : Nat} {t : Nat} {o : Nat} {u : Val} {y0 : Evs} {y1 : Nat} {t_ : State} (hs : Follows origin s) (he : State.storeElem s j p t o u = (y0, y1, t_)) :
    Follows origin t_ := by
  have k : Follows origin (State.storeElem s j p t o u).2.2 := State.storeElem_follows hs
  rw [he] at k
  exact k

theorem State.fetchTile_follows {s : State} {j : Job} {tile : Nat} (hs : Follows origin s) :
    Follows origin (State.fetchTile s j tile).2 := by
  unfold State.fetchTile
  repeat' with_reducible first | assumption | intro _ | apply State.touch_follows | apply Follows.foldl_snd | split

theorem State.fetchTile_follows_eq {s : State} {j : Job} {tile : Nat} {y0 : Nat} {t_ : State} (hs : Follows origin s) (he : State.fetchTile s j tile = (y0, t_)) :
    Follows origin t_ := by
  have k : Follows origin (State.fetchTile s j tile).2 := State.fetchTile_follows hs
  rw [he] at k
  exact k

theorem State.modRunOf_follows {s : State} {k : Nat} {idx : Nat} {f : Run → Run} (hs : Follows origin s) :
    Follows origin (State.modRunOf s k idx f) := by
  unfold State.modRunOf
  repeat' with_reducible first | assumption | apply State.modClu_follows

theorem State.endRun_follows {s : State} {k : Nat} {idx : Nat} {status : Nat} {stopped : Bool} (hs : Follows origin s) :
    Follows origin (State.endRun s k idx status stopped) := by
  unfold State.endRun
  repeat' with_reducible first | assumption | apply State.modClu_follows

theorem State.checkDone_follows {s : State} {k : Nat} {idx : Nat} (hs : Follows origin s) :
    Follows origin (State.checkDone s k idx) := by
  unfold State.checkDone
  repeat' with_reducible first | assumption | intro _ | apply State.modRunOf_follows | apply Follows.ite

theorem State.advance_follows {s : State} {j : Job} {k : Nat} {r : Run} {tile : Nat} (hs : Follows origin s) :
    Follows origin (State.advance s j k r tile) := by
  unfold State.advance
  repeat' with_reducible first | assumption | apply State.modRunOf_follows | apply State.checkDone_follows

theorem State.putElem_follows {s : State} {j : Job} {k : Nat} {idx : Nat} {p : Nat} {t : Nat} {o : Nat} {f : Fold} {u : Val} (hs : Follows origin s) :
    Follows origin (State.putElem s j k idx p t o f u).2 := by
  unfold State.putElem
  repeat' with_reducible first
    | assumption | apply State.raise_follows | apply State.storeElem_follows | apply State.modRunOf_follows | split

theorem State.putElem_follows_eq {s : State} {j : Job} {k : Nat} {idx : Nat} {p : Nat} {t : Nat} {o : Nat} {f : Fold} {u : Val} {y0 : Option Nat} {t_ : State} (hs : Follows origin s) (he : State.putElem s j k idx p t o f u = (y0, t_)) :
    Follows origin t_ := by
  have k : Follows origin (State.putElem s j k idx p t o f u).2 := State.putElem_follows hs
  rw [he] at k
  exact k

theorem State.putRows_follows {s : State} {j : Job} {k : Nat} {idx : Nat} {p : Nat} (hs : Follows origin s) :
    Follows origin (State.putRows s j k idx p).2 := by
  unfold State.putRows
  repeat' with_reducible first
    | assumption | intro _ | apply State.writeRange_follows | apply State.raise_follows | apply State.modRunOf_follows
    | apply Follows.foldl | apply Follows.foldl_snd | split | (extract_lets)

theorem State.putRows_follows_eq {s : State} {j : Job} {k : Nat} {idx : Nat} {p : Nat} {y0 : Option Nat} {t_ : State} (hs : Follows origin s) (he : State.putRows s j k idx p = (y0, t_)) :
    Follows origin t_ := by
  have k : Follows origin (State.putRows s j k idx p).2 := State.putRows_follows hs
  rw [he] at k
  exact k

theorem State.drainBank_follows {s : State} {j : Job} {k : Nat} {idx : Nat} {p : Nat} {upTo : Nat} {accs : List (Nat × Acc)} (hs : Follows origin s) :
    Follows origin (State.drainBank s j k idx p upTo accs).2 := by
  unfold State.drainBank
  repeat' with_reducible first
    | assumption | intro _ | apply State.modRunOf_follows | apply State.putElem_follows | apply State.putRows_follows
    | apply Follows.foldl_snd | split | (extract_lets)

theorem State.drainBank_follows_eq {s : State} {j : Job} {k : Nat} {idx : Nat} {p : Nat} {upTo : Nat} {accs : List (Nat × Acc)} {y0 : Option Nat} {t_ : State} (hs : Follows origin s) (he : State.drainBank s j k idx p upTo accs = (y0, t_)) :
    Follows origin t_ := by
  have k : Follows origin (State.drainBank s j k idx p upTo accs).2 := State.drainBank_follows hs
  rw [he] at k
  exact k

theorem State.runPass_follows {s : State} {j : Job} {k : Nat} {idx : Nat} {tile : Nat} {cover : Nat → Nat → Option (Nat × Nat)} {accs : List (Nat × Acc)} {parts : List (Nat × Acc)} (hs : Follows origin s) :
    Follows origin (State.runPass s j k idx tile cover accs parts).2.2 := by
  unfold State.runPass
  repeat' with_reducible first
    | assumption | intro _ | apply State.raise_follows | apply State.modRunOf_follows | apply Follows.foldl_trd | split
    | (extract_lets)

theorem State.runPass_follows_eq {s : State} {j : Job} {k : Nat} {idx : Nat} {tile : Nat} {cover : Nat → Nat → Option (Nat × Nat)} {accs : List (Nat × Acc)} {parts : List (Nat × Acc)} {y0 : Option (Nat × Nat)} {y1 : List (Nat × Acc)} {t_ : State} (hs : Follows origin s) (he : State.runPass s j k idx tile cover accs parts = (y0, y1, t_)) :
    Follows origin t_ := by
  have k : Follows origin (State.runPass s j k idx tile cover accs parts).2.2 := State.runPass_follows hs
  rw [he] at k
  exact k

theorem State.stopPass_follows {s : State} {j : Job} {k : Nat} {idx : Nat} {p : Nat} {status : Nat} {key : Nat} {accs : List (Nat × Acc)} (hs : Follows origin s) :
    Follows origin (State.stopPass s j k idx p status key accs) := by
  unfold State.stopPass
  repeat' with_reducible first | assumption | apply State.endRun_follows | apply State.drainBank_follows

theorem State.issuePass_follows {s : State} {c : Nat} {g : Nat} {n : Nat} {u : Nat} {r : Run} (hs : Follows origin s) :
    Follows origin (State.issuePass s c g n u r) := by
  unfold State.issuePass
  repeat' with_reducible first
    | assumption | apply State.modClu_follows | apply State.countOps_follows | apply State.fetchTile_follows
    | apply State.modRunOf_follows | apply State.advance_follows | apply State.runPass_follows
    | apply State.stopPass_follows | split | dsimp only

theorem execPassIssue_follows {g : Nat} {n : Nat} {u : Nat} {at_ : Nat} {s0 : State} (hs : Follows origin s0) :
    Keeps origin (execPassIssue g n u at_ s0) := by
  unfold execPassIssue
  repeat' with_reducible first
    | assumption | apply State.atClk_follows | apply State.issuePass_follows | apply Keeps.next | split | (extract_lets)

theorem execAwlTileIssue_follows {g : Nat} {n : Nat} {at_ : Nat} {s0 : State} (hs : Follows origin s0) :
    Keeps origin (execAwlTileIssue g n at_ s0) := by
  unfold execAwlTileIssue
  repeat' with_reducible first
    | assumption | intro _ | apply State.atClk_follows | apply State.modClu_follows | apply State.countOps_follows
    | apply State.fetchTile_follows | apply State.modRunOf_follows | apply State.advance_follows
    | apply State.runPass_follows | apply State.stopPass_follows | apply Keeps.next | apply Keeps.ite | split
    | (extract_lets)

theorem execBankDrain_follows {g : Nat} {n : Nat} {u : Nat} {at_ : Nat} {s0 : State} (hs : Follows origin s0) :
    Keeps origin (execBankDrain g n u at_ s0) := by
  unfold execBankDrain
  repeat' with_reducible first
    | assumption | apply State.atClk_follows | apply State.modClu_follows | apply State.modRunOf_follows
    | apply State.endRun_follows | apply State.checkDone_follows | apply State.drainBank_follows | apply Keeps.next
    | split | (extract_lets)

theorem State.vecTile_follows {s : State} {j : Job} {k idx tile : Nat} (hs : Follows origin s) :
    Follows origin (State.vecTile s j k idx tile).2 := by
  unfold State.vecTile
  extract_lets p ms cs seenOf r
  have hr : Follows origin r.2 := by
    refine Follows.foldl_snd hs fun acc ti h => ?_
    dsimp only
    split
    · exact h
    · split
      · generalize he : (List.range cs.2).foldl (fun (a : List Val × State × Option Nat) oi => _) ([], acc.2, none) = ev
        have hv : Follows origin ev.2.1 := by
          rw [← he]
          refine Follows.foldl_mid h fun a oi ha => ?_
          split
          · exact ha
          · exact State.raise_follows (State.modRunOf_follows ha)
        split
        · exact hv
        · exact State.putElem_follows hv
      · refine Follows.foldl_snd h fun a oi ha => ?_
        split
        · exact ha
        · exact State.putElem_follows (State.modRunOf_follows ha)
  split
  · exact hr
  · exact State.putRows_follows hr

theorem State.vecTile_follows_eq {s : State} {j : Job} {k : Nat} {idx : Nat} {tile : Nat} {y0 : Option Nat} {t_ : State} (hs : Follows origin s) (he : State.vecTile s j k idx tile = (y0, t_)) :
    Follows origin t_ := by
  have k : Follows origin (State.vecTile s j k idx tile).2 := State.vecTile_follows hs
  rw [he] at k
  exact k

theorem State.runVector_follows {s : State} {c : Nat} {g : Nat} {n : Nat} {r : Run} (hs : Follows origin s) :
    Follows origin (State.runVector s c g n r) := by
  unfold State.runVector
  repeat' with_reducible first
    | assumption | intro _ | apply State.countOps_follows | apply State.fetchTile_follows | apply State.endRun_follows
    | apply State.vecTile_follows | apply Follows.foldl_snd | split | (extract_lets)

end Sys2Proof.Machine
end

