-- ==== Sys2Proof/Laws/FollowsRetriever.lean ====
section
/-! SUPPORT. Every operation of Machine/Retriever.lean takes a state that follows a sound one to one that does (Laws/Follows.lean). -/

namespace Sys2Proof.Machine

variable {origin : State}

theorem State.readPrefix_follows {s : State} {ag : Agent} {space : Nat} {addr : Nat} {n : Nat} (hs : Follows origin s) :
    Follows origin (State.readPrefix s ag space addr n).2.2 := by
  unfold State.readPrefix
  repeat' with_reducible first | assumption | intro _ | apply State.readRange_follows | apply Follows.foldl_trd | split

theorem State.readPrefix_follows_eq {s : State} {ag : Agent} {space : Nat} {addr : Nat} {n : Nat} {y0 : Nat} {y1 : List Byte} {t_ : State} (hs : Follows origin s) (he : State.readPrefix s ag space addr n = (y0, y1, t_)) :
    Follows origin t_ := by
  have k : Follows origin (State.readPrefix s ag space addr n).2.2 := State.readPrefix_follows hs
  rw [he] at k
  exact k

theorem State.convertRow_follows {s : State} {ag : Agent} {d : RetD} {mask : Nat} {row : Nat} {bs : List Byte} {n : Nat} (hs : Follows origin s) :
    Follows origin (State.convertRow s ag d mask row bs n).2.2 := by
  unfold State.convertRow
  repeat' with_reducible first | assumption | intro _ | apply State.raise_follows | apply Follows.foldl_trd | split

theorem State.convertRow_follows_eq {s : State} {ag : Agent} {d : RetD} {mask : Nat} {row : Nat} {bs : List Byte} {n : Nat} {y0 : List Nat} {y1 : Option Nat} {t_ : State} (hs : Follows origin s) (he : State.convertRow s ag d mask row bs n = (y0, y1, t_)) :
    Follows origin t_ := by
  have k : Follows origin (State.convertRow s ag d mask row bs n).2.2 := State.convertRow_follows hs
  rw [he] at k
  exact k

theorem State.copyRow_follows {s : State} {c : Nat} {g : Nat} {n : Nat} {r : Run} {d : RetD} {row : Nat} {bs : List Byte} {full : Bool} (hs : Follows origin s) :
    Follows origin (State.copyRow s c g n r d row bs full).2.2 := by
  unfold State.copyRow
  repeat' with_reducible first | assumption | apply State.convertRow_follows | split | (extract_lets)

theorem State.copyRow_follows_eq {s : State} {c : Nat} {g : Nat} {n : Nat} {r : Run} {d : RetD} {row : Nat} {bs : List Byte} {full : Bool} {y0 : List UnitW} {y1 : Option Nat} {t_ : State} (hs : Follows origin s) (he : State.copyRow s c g n r d row bs full = (y0, y1, t_)) :
    Follows origin t_ := by
  have k : Follows origin (State.copyRow s c g n r d row bs full).2.2 := State.copyRow_follows hs
  rw [he] at k
  exact k

theorem State.copyRows_follows {s : State} {c : Nat} {g : Nat} {n : Nat} {r : Run} {d : RetD} (hs : Follows origin s) :
    Follows origin (State.copyRows s c g n r d).2.2 := by
  unfold State.copyRows
  repeat' with_reducible first
    | assumption | intro _ | apply State.readPrefix_follows | apply State.copyRow_follows | apply Follows.foldl_trd
    | split

theorem State.copyRows_follows_eq {s : State} {c : Nat} {g : Nat} {n : Nat} {r : Run} {d : RetD} {y0 : List UnitW} {y1 : Nat} {t_ : State} (hs : Follows origin s) (he : State.copyRows s c g n r d = (y0, y1, t_)) :
    Follows origin t_ := by
  have k : Follows origin (State.copyRows s c g n r d).2.2 := State.copyRows_follows hs
  rw [he] at k
  exact k

theorem State.beginRet_follows {s : State} {c : Nat} {g : Nat} {n : Nat} {r : Run} (hs : Follows origin s) :
    Follows origin (State.beginRet s c g n r) := by
  unfold State.beginRet
  repeat' with_reducible first | assumption | apply State.writeProg_follows | apply State.modRunOf_follows

theorem State.giveUnits_follows {s : State} {k : Nat} {idx : Nat} {us : List UnitW} {status : Nat} (hs : Follows origin s) :
    Follows origin (State.giveUnits s k idx us status) := by
  unfold State.giveUnits
  repeat' with_reducible first | assumption | apply State.modRunOf_follows

theorem State.retrieverCopy_follows {s : State} {c : Nat} {g : Nat} {n : Nat} {r : Run} (hs : Follows origin s) :
    Follows origin (State.retrieverCopy s c g n r) := by
  unfold State.retrieverCopy
  repeat' with_reducible first
    | assumption | apply State.copyRows_follows | apply State.beginRet_follows | apply State.giveUnits_follows

theorem execRetrieverFillZeros_follows {g : Nat} {n : Nat} {at_ : Nat} {s0 : State} (hs : Follows origin s0) :
    Keeps origin (execRetrieverFillZeros g n at_ s0) := by
  unfold execRetrieverFillZeros
  repeat' with_reducible first
    | assumption | apply State.atClk_follows | apply State.beginRet_follows | apply State.giveUnits_follows
    | apply Keeps.next | split | (extract_lets)

theorem State.retState_follows {s : State} {c : Nat} {g : Nat} {n : Nat} {st : Nat} {r : Run} (hs : Follows origin s) :
    Follows origin (State.retState s c g n st r) := by
  unfold State.retState
  repeat' with_reducible first
    | assumption | intro _ | apply State.rangeState_follows | apply State.writeProg_follows
    | apply State.progress_follows | apply State.modRunOf_follows | apply State.beginRet_follows
    | apply Follows.foldl_trd | split

theorem execRetrieverDefineZero_follows {g : Nat} {n : Nat} {at_ : Nat} {s0 : State} (hs : Follows origin s0) :
    Keeps origin (execRetrieverDefineZero g n at_ s0) := by
  unfold execRetrieverDefineZero
  repeat' with_reducible first
    | assumption | apply State.atClk_follows | apply State.retState_follows | apply Keeps.next | split | (extract_lets)

theorem execRetrieverInvalidate_follows {g : Nat} {n : Nat} {at_ : Nat} {s0 : State} (hs : Follows origin s0) :
    Keeps origin (execRetrieverInvalidate g n at_ s0) := by
  unfold execRetrieverInvalidate
  repeat' with_reducible first
    | assumption | apply State.atClk_follows | apply State.retState_follows | apply Keeps.next | split | (extract_lets)

theorem State.takeUnit_follows {s : State} {ag : Agent} {qp : Nat} {u : UnitW} (hs : Follows origin s) :
    Follows origin (State.takeUnit s ag qp u).2 := by
  unfold State.takeUnit
  repeat' with_reducible first | assumption | apply State.send_follows | apply State.writeRange_follows | split

theorem State.takeUnit_follows_eq {s : State} {ag : Agent} {qp : Nat} {u : UnitW} {y0 : Nat} {t_ : State} (hs : Follows origin s) (he : State.takeUnit s ag qp u = (y0, t_)) :
    Follows origin t_ := by
  have k : Follows origin (State.takeUnit s ag qp u).2 := State.takeUnit_follows hs
  rw [he] at k
  exact k

theorem State.leaveUnit_follows {s : State} {ag : Agent} {qp : Nat} {u : UnitW} (hs : Follows origin s) :
    Follows origin (State.leaveUnit s ag qp u) := by
  unfold State.leaveUnit
  extract_lets t waits
  have ht : Follows origin t := ⟨⟨hs.sound.mem, hs.sound.queue, hs.sound.tick⟩, hs.pending, hs.clk, Nat.le_succ_of_le hs.freeCtr, hs.tx, hs.fuses⟩
  exact Follows.ite (fun _ => State.takeUnit_follows ht) fun _ => ht

theorem State.leaveUnits_follows {s : State} {c k : Nat} {r : Run} (hs : Follows origin s) :
    Follows origin (State.leaveUnits s c k r) := by
  unfold State.leaveUnits
  exact Follows.ite (fun _ => Follows.foldl hs fun _ _ k => State.leaveUnit_follows k) fun _ => hs

end Sys2Proof.Machine
end

