-- ==== Sys2Proof/Laws/FollowsFence.lean ====
section
/-! SUPPORT. Every operation of Machine/Fence.lean takes a state that follows a sound one to one that does (Laws/Follows.lean). -/

namespace Sys2Proof.Machine

variable {origin : State}

theorem State.cleanLoad_follows {s : State} {c : Nat} (hs : Follows origin s) :
    Follows origin (State.cleanLoad s c) := by
  unfold State.cleanLoad
  repeat' with_reducible first | assumption | apply State.clearRows_follows | split

theorem State.endLoad_follows {s : State} {c : Nat} {status : Nat} {reason : Nat} {sect : Nat} {index : Nat} {fetch : Nat} (hs : Follows origin s) :
    Follows origin (State.endLoad s c status reason sect index fetch) := by
  unfold State.endLoad
  repeat' with_reducible first
    | assumption | refine Follows.upd (State.modLoad_follows ?_) rfl | apply State.report_follows
    | apply State.cleanLoad_follows

theorem State.abandon_follows {s : State} {g : Nat} (hs : Follows origin s) : Follows origin (State.abandon s g) := by
  unfold State.abandon
  extract_lets s0 s1 hand s2
  have h0 : Follows origin s0 := by
    unfold s0
    split
    · exact Follows.foldl hs fun _ _ k => Follows.foldl k fun _ _ k => State.leaveUnits_follows k
    · exact hs
  have h1 : Follows origin s1 := Follows.foldl h0 fun _ _ k => State.modClu_follows k
  have h2 : Follows origin s2 := State.strand_follows (State.modSync_follows h1)
  exact Follows.upd h2 rfl

theorem State.cobBegin_follows {s : State} {ch : Nat} (hs : Follows origin s) :
    Follows origin (State.cobBegin s ch) := by
  unfold State.cobBegin
  repeat' with_reducible first | assumption | intro _ | apply State.modChan_follows | apply Follows.ite | split

theorem State.dropPasses_follows {s : State} {hit : CobPass → Bool} {status : Option Nat} (hs : Follows origin s) :
    Follows origin (State.dropPasses s hit status) := by
  unfold State.dropPasses
  extract_lets s1
  have h1 : Follows origin s1 := Follows.upd hs rfl
  exact Follows.foldl h1 fun _ _ k => State.cobBegin_follows k

theorem State.cobEnd_follows {s : State} {e : CobPass} {status : Nat} {stopped : Bool} (hs : Follows origin s) :
    Follows origin (State.cobEnd s e status stopped) := by
  unfold State.cobEnd
  exact State.endRun_follows (State.dropPasses_follows hs)

theorem State.fenceCobblers_follows {s : State} {g : Nat} (hs : Follows origin s) : Follows origin (State.fenceCobblers s g) := by
  unfold State.fenceCobblers
  extract_lets mine s1
  have h1 : Follows origin s1 := Follows.foldl hs fun t ch ht => Follows.foldl ht fun u e hu =>
    Follows.ite (fun _ => hu) fun _ => State.report_follows (State.cobEnd_follows hu)
  exact State.dropPasses_follows h1

theorem State.dropCobblers_follows {s : State} {c : Nat} (hs : Follows origin s) :
    Follows origin (State.dropCobblers s c) := by
  unfold State.dropCobblers
  exact State.dropPasses_follows hs

theorem State.cutPart_follows {s : State} {g cause : Nat} (hs : Follows origin s) : Follows origin (State.cutPart s g cause) := by
  unfold State.cutPart
  extract_lets s1 s2 s3
  have h1 : Follows origin s1 := State.modCtl_follows hs
  have h2 : Follows origin s2 := by
    show Follows origin (match s.residentOf g with | some c => s1.stopCtx c | none => s1)
    split
    · exact State.stopCtx_follows h1
    · exact h1
  exact Follows.upd (State.modMon_follows (State.fenceCobblers_follows (State.abandon_follows h2))) rfl

theorem State.endFenced_follows {s : State} {g : Nat} (hs : Follows origin s) : Follows origin (State.endFenced s g) := by
  unfold State.endFenced
  extract_lets drains s1
  have h1 : Follows origin s1 := Follows.foldl hs fun _ _ k => State.ckptEnd_follows k
  split
  · exact Follows.ite (fun _ => State.endLoad_follows h1) fun _ => h1
  · exact h1

theorem State.fence_follows {s : State} {g cause : Nat} (hs : Follows origin s) : Follows origin (State.fence s g cause) := by
  unfold State.fence
  exact Follows.ite (fun _ => hs) fun _ => State.endFenced_follows (State.cutPart_follows hs)

theorem State.resetPhase2_follows {s : State} {g : Nat} (hs : Follows origin s) :
    Follows origin (State.resetPhase2 s g) := by
  unfold State.resetPhase2
  repeat' with_reducible first
    | assumption | intro _ | apply State.modCtl_follows | apply State.modMon_follows | apply State.modClu_follows
    | apply State.modChan_follows | apply State.emptySync_follows | apply Follows.foldl

theorem execPartFence_follows {g : Nat} {at_ : Nat} {s0 : State} (hs : Follows origin s0) :
    Keeps origin (execPartFence g at_ s0) := by
  unfold execPartFence
  repeat' with_reducible first
    | assumption | refine Follows.upd (State.atClk_follows ?_) rfl | apply State.fence_follows | apply Keeps.next

theorem execUnitFault_follows {g : Nat} {at_ : Nat} {s0 : State} (hs : Follows origin s0) :
    Keeps origin (execUnitFault g at_ s0) := by
  unfold execUnitFault
  repeat' with_reducible first | assumption | apply State.atClk_follows | apply State.fence_follows | apply Keeps.next

theorem execFenceDrainComplete_follows {g : Nat} {at_ : Nat} {s0 : State} (hs : Follows origin s0) :
    Keeps origin (execFenceDrainComplete g at_ s0) := by
  unfold execFenceDrainComplete
  repeat' with_reducible first
    | assumption | intro _ | apply State.atClk_follows | apply State.modCtl_follows | apply State.report_follows
    | apply State.settle_follows | apply State.resetPhase2_follows | apply Keeps.next | apply Keeps.ite | split

theorem execDrainLimitExpire_follows {g : Nat} {at_ : Nat} {s0 : State} (hs : Follows origin s0) :
    Keeps origin (execDrainLimitExpire g at_ s0) := by
  unfold execDrainLimitExpire
  repeat' with_reducible first
    | assumption | intro _ | refine Follows.upd (State.atClk_follows ?_) rfl | apply State.modCtl_follows
    | apply Keeps.next | apply Keeps.ite

theorem execPartReset_follows {g : Nat} {full : Bool} {at_ : Nat} {s0 : State} (hs : Follows origin s0) :
    Keeps origin (execPartReset g full at_ s0) := by
  unfold execPartReset
  extract_lets s pr s1
  have h1 : Follows origin s1 := Follows.upd (State.atClk_follows (at_ := at_) hs) rfl
  split
  · exact Keeps.next (State.modCtl_follows (State.fence_follows h1))
  · exact Keeps.next (State.modCtl_follows h1)
  · exact Keeps.next (Follows.upd h1 rfl)
  · exact Keeps.next (State.modCtl_follows (State.resetPhase2_follows h1))

theorem State.tellReset_follows {s : State} {g : Nat} {result : Nat} (hs : Follows origin s) :
    Follows origin (State.tellReset s g result) := by
  unfold State.tellReset
  repeat' with_reducible first | assumption | apply State.report_follows

theorem State.clearCm_follows {s : State} {g : Nat} (hs : Follows origin s) :
    Follows origin (State.clearCm s g) := by
  unfold State.clearCm
  repeat' with_reducible first | assumption | apply State.clearGrans_follows

theorem execResetPhaseComplete_follows {g : Nat} {ok : Bool} {at_ : Nat} {s0 : State} (hs : Follows origin s0) :
    Keeps origin (execResetPhaseComplete g ok at_ s0) := by
  unfold execResetPhaseComplete
  repeat' with_reducible first
    | assumption | intro _ | apply State.atClk_follows | apply State.modCtl_follows | apply State.tellReset_follows
    | apply State.clearCm_follows | apply Keeps.next | apply Keeps.ite | split

theorem execCtxStop_follows {c : Nat} {s : State} (hs : Follows origin s) :
    Keeps origin (execCtxStop c s) := by
  unfold execCtxStop
  repeat' with_reducible first
    | assumption | exact Follows.upd (by assumption) rfl | apply State.stopCtx_follows | apply Keeps.next

theorem execCtxAbort_follows {c at_ : Nat} {s0 : State} (hs : Follows origin s0) : Keeps origin (execCtxAbort c at_ s0) := by
  unfold execCtxAbort
  extract_lets s pr s1 pr1 gs s2 st s3
  have h1 : Follows origin s1 := State.stopCtx_follows (Follows.upd (State.atClk_follows (at_ := at_) hs) rfl)
  have h2 : Follows origin s2 := State.dropCobblers_follows (Follows.foldl h1 fun _ _ k => State.abandon_follows k)
  have h3 : Follows origin s3 := Follows.ite (fun _ => State.settle_follows h2) fun _ => State.report_follows (State.settle_follows h2)
  exact Keeps.ite (fun _ => Keeps.next (Follows.upd h1 rfl)) fun _ => Keeps.next (Follows.upd h3 rfl)

theorem State.partRefuse_follows {s : State} {reason : Nat} (hs : Follows origin s) :
    Follows origin (State.partRefuse s reason) := by
  unfold State.partRefuse
  repeat' with_reducible first | assumption | exact Follows.upd (by assumption) rfl

theorem execPartAssignWrite_follows {c : Nat} {mask : Nat} {s : State} (hs : Follows origin s) :
    Keeps origin (execPartAssignWrite c mask s) := by
  unfold execPartAssignWrite
  repeat' with_reducible first
    | assumption | apply State.modRun_follows | apply State.partRefuse_follows | apply Keeps.next | split

theorem execNextContextWrite_follows {g : Nat} {value : Nat} {s : State} (hs : Follows origin s) :
    Keeps origin (execNextContextWrite g value s) := by
  unfold execNextContextWrite
  repeat' with_reducible first
    | assumption | intro _ | apply State.modCtl_follows | apply State.partRefuse_follows | apply Keeps.next
    | apply Keeps.ite

theorem execHangDetected_follows {g : Nat} {at_ : Nat} {s0 : State} (hs : Follows origin s0) :
    Keeps origin (execHangDetected g at_ s0) := by
  unfold execHangDetected
  repeat' with_reducible first
    | assumption | intro _ | apply State.atClk_follows | apply State.modMon_follows | apply State.report_follows
    | apply State.stopCtx_follows | apply State.fence_follows | apply Keeps.next | apply Keeps.ite | split

theorem execLeaseGrant_follows {value : Nat} {at_ : Nat} {s0 : State} (hs : Follows origin s0) :
    Keeps origin (execLeaseGrant value at_ s0) := by
  unfold execLeaseGrant
  repeat' with_reducible first
    | assumption | intro _ | refine Follows.upd (State.atClk_follows ?_) rfl | apply Keeps.next | apply Keeps.ite

theorem execSheepdogAck_follows {s : State} (hs : Follows origin s) : Keeps origin (execSheepdogAck s) :=
  Keeps.next (hs.shorter (by simp))

theorem popUnsent_length (q : List Event) : (popUnsent q).length ≤ q.length := by
  induction q with
  | nil => exact Nat.le_refl _
  | cons e q ih =>
    simp only [popUnsent]
    split
    · simp only [List.length_cons]; omega
    · simp

theorem execSheepdogPop_follows {s : State} (hs : Follows origin s) : Keeps origin (execSheepdogPop s) :=
  Keeps.next (hs.shorter (popUnsent_length _))

theorem State.zeroCmBufs_follows {s : State} {c : Nat} {g : Nat} (hs : Follows origin s) :
    Follows origin (State.zeroCmBufs s c g) := by
  unfold State.zeroCmBufs
  repeat' with_reducible first | assumption | intro _ | apply State.rangeState_follows | apply Follows.foldl

theorem State.parkPart_follows {s : State} {g : Nat} (hs : Follows origin s) :
    Follows origin (State.parkPart s g) := by
  unfold State.parkPart
  repeat' with_reducible first | assumption | intro _ | apply State.modCtl_follows | apply Follows.ite

theorem State.parkAtBarrier_follows {s : State} {c : Nat} (hs : Follows origin s) :
    Follows origin (State.parkAtBarrier s c) := by
  unfold State.parkAtBarrier
  repeat' with_reducible first | assumption | apply State.parkPart_follows | apply Follows.foldl

theorem State.park_follows {s : State} (hs : Follows origin s) :
    Follows origin (State.park s) := by
  unfold State.park
  repeat' with_reducible first | assumption | intro _ | apply State.parkPart_follows | apply Follows.foldl | split

theorem State.enterPart_follows {s : State} {x : Nat} {g : Nat} (hs : Follows origin s) :
    Follows origin (State.enterPart s x g) := by
  unfold State.enterPart
  repeat' with_reducible first
    | assumption | intro _ | apply State.modCtl_follows | apply State.modMon_follows | apply State.modClu_follows
    | apply State.reseed_follows | apply State.clearCm_follows | apply State.zeroCmBufs_follows | apply Follows.ite
    | apply Follows.foldl

theorem State.enter_follows {s : State} {x : Nat} (hs : Follows origin s) :
    Follows origin (State.enter s x) := by
  unfold State.enter
  repeat' with_reducible first
    | assumption | intro _ | apply State.takeCensus_follows | apply State.enterPart_follows | apply Follows.foldl

theorem State.residency_follows {s : State} (hs : Follows origin s) :
    Follows origin (State.residency s) := by
  unfold State.residency
  repeat' with_reducible first
    | assumption | intro _ | apply State.park_follows | apply State.enter_follows | apply Follows.ite
    | apply Follows.foldl

end Sys2Proof.Machine
end

