-- ==== Sys2Proof/Laws/FollowsCobbler.lean ====
section
/-! SUPPORT. Every operation of Machine/Cobbler.lean takes a state that follows a sound one to one that does (Laws/Follows.lean). -/

namespace Sys2Proof.Machine

variable {origin : State}

theorem State.slabRead_follows {s : State} {ag : Agent} {slabRow : Nat} {rec_ : Nat} {q : Nat} {i : Nat} {n : Nat} {C : Nat} (hs : Follows origin s) :
    Follows origin (State.slabRead s ag slabRow rec_ q i n C).2.2 := by
  unfold State.slabRead
  repeat' with_reducible first | assumption | intro _ | apply State.readRange_follows | apply Follows.foldl_trd | split

theorem State.slabRead_follows_eq {s : State} {ag : Agent} {slabRow : Nat} {rec_ : Nat} {q : Nat} {i : Nat} {n : Nat} {C : Nat} {y0 : Nat} {y1 : List Byte} {t_ : State} (hs : Follows origin s) (he : State.slabRead s ag slabRow rec_ q i n C = (y0, y1, t_)) :
    Follows origin t_ := by
  have k : Follows origin (State.slabRead s ag slabRow rec_ q i n C).2.2 := State.slabRead_follows hs
  rw [he] at k
  exact k

theorem State.slabWrite_follows {s : State} {ag : Agent} {slabRow : Nat} {rec_ : Nat} {q : Nat} {i : Nat} {C : Nat} {bs : List Byte} (hs : Follows origin s) :
    Follows origin (State.slabWrite s ag slabRow rec_ q i C bs) := by
  unfold State.slabWrite
  repeat' with_reducible first | assumption | intro _ | apply State.writeRange_follows | apply Follows.foldl

theorem State.preload_follows {s : State} {ag : Agent} {p : CobP} {w : WSet} (hs : Follows origin s) :
    Follows origin (State.preload s ag p w).2.2 := by
  unfold State.preload
  repeat' with_reducible first | assumption | apply State.readRange_follows | split | (extract_lets)

theorem State.preload_follows_eq {s : State} {ag : Agent} {p : CobP} {w : WSet} {y0 : Nat} {y1 : List Byte} {t_ : State} (hs : Follows origin s) (he : State.preload s ag p w = (y0, y1, t_)) :
    Follows origin t_ := by
  have k : Follows origin (State.preload s ag p w).2.2 := State.preload_follows hs
  rw [he] at k
  exact k

theorem State.slotWord_follows {s : State} {ag : Agent} {progCm : Nat} {q : Nat} {phase : Nat} {count : Nat} (hs : Follows origin s) :
    Follows origin (State.slotWord s ag progCm q phase count) := by
  unfold State.slotWord
  repeat' with_reducible first | assumption | apply State.writeRange_follows

theorem State.startCobbler_follows {s : State} {c : Nat} {g : Nat} {n : Nat} {r : Run} (hs : Follows origin s) :
    Follows origin (State.startCobbler s c g n r) := by
  unfold State.startCobbler
  repeat' with_reducible first
    | assumption | intro _ | apply State.modChan_follows | apply State.report_follows | apply State.raise_follows
    | apply State.modRunOf_follows | apply State.endRun_follows | apply State.preload_follows
    | apply State.slotWord_follows | apply Follows.ite | apply Follows.foldl

theorem execCobblerQueueEnter_follows {ch : Nat} {s : State} (hs : Follows origin s) :
    Keeps origin (execCobblerQueueEnter ch s) := by
  unfold execCobblerQueueEnter
  repeat' with_reducible first
    | assumption | apply State.modChan_follows | apply State.modRunOf_follows | apply State.cobBegin_follows
    | apply Keeps.next | split | (extract_lets)

theorem State.slotDone_follows {s : State} {e : CobPass} {ag : Agent} {p : CobP} {ch : Nat} {q : Nat} {count : Nat} (hs : Follows origin s) :
    Follows origin (State.slotDone s e ag p ch q count) := by
  unfold State.slotDone
  repeat' with_reducible first
    | assumption | apply State.modChan_follows | apply State.progress_follows | apply State.modRunOf_follows
    | apply State.slotWord_follows | apply State.cobBegin_follows

theorem State.cobRecord_follows {s : State} {ag : Agent} {p : CobP} {r : Run} {q : Nat} {C : Nat} {i : Nat} {ch : Nat} (hs : Follows origin s) :
    Follows origin (State.cobRecord s ag p r q C i ch).2.2 := by
  unfold State.cobRecord
  repeat' with_reducible first
    | assumption | intro _ | apply State.modChan_follows | apply State.countOps_follows | apply State.raise_follows
    | apply State.slabRead_follows | apply State.slabWrite_follows | apply Follows.foldl_snd | split | dsimp only

theorem State.cobRecord_follows_eq {s : State} {ag : Agent} {p : CobP} {r : Run} {q : Nat} {C : Nat} {i : Nat} {ch : Nat} {y0 : Nat} {y1 : Nat} {t_ : State} (hs : Follows origin s) (he : State.cobRecord s ag p r q C i ch = (y0, y1, t_)) :
    Follows origin t_ := by
  have k : Follows origin (State.cobRecord s ag p r q C i ch).2.2 := State.cobRecord_follows hs
  rw [he] at k
  exact k

theorem State.ledgerSlot_follows {s : State} {ag : Agent} {r : Run} {q : Nat} {C : Nat} {count : Nat} (hs : Follows origin s) :
    Follows origin (State.ledgerSlot s ag r q C count) := by
  unfold State.ledgerSlot
  repeat' with_reducible first | assumption | apply State.modLed_follows | split

theorem execCobblerUpdate_follows {ch : Nat} {s : State} (hs : Follows origin s) :
    Keeps origin (execCobblerUpdate ch s) := by
  unfold execCobblerUpdate
  repeat' with_reducible first
    | assumption | intro _ | apply State.modChan_follows | apply State.slotWord_follows | apply State.cobEnd_follows
    | apply State.slotDone_follows | apply State.cobRecord_follows | apply State.ledgerSlot_follows | apply Keeps.next
    | apply Keeps.ite | apply Follows.foldl_trd | split

theorem State.emitRecord_follows {s : State} {ag : Agent} {p : CobP} {w : WSet} {f : Fmt} {side : Bool} {r : Run} {q C i : Nat}
    (hs : Follows origin s) : Follows origin (State.emitRecord s ag p w f side r q C i).2 := by
  unfold State.emitRecord
  extract_lets hi hl n e ev sides s1 s2
  have h0 : Follows origin hi.2.2 := State.slabRead_follows hs
  have h1 : Follows origin ev.2 := Follows.foldl_snd h0 fun a x ha => by
    split
    · exact ha
    · exact State.raise_follows ha
  have h2 : Follows origin s2 := State.writeRange_follows (State.slabWrite_follows h1)
  exact Follows.ite_snd (fun _ => Follows.mk_snd h0) fun _ => Follows.mk_snd h2

theorem State.emitRecord_follows_eq {s : State} {ag : Agent} {p : CobP} {w : WSet} {f : Fmt} {side : Bool} {r : Run} {q : Nat} {C : Nat} {i : Nat} {y0 : Nat} {t_ : State} (hs : Follows origin s) (he : State.emitRecord s ag p w f side r q C i = (y0, t_)) :
    Follows origin t_ := by
  have k : Follows origin (State.emitRecord s ag p w f side r q C i).2 := State.emitRecord_follows hs
  rw [he] at k
  exact k

theorem execCobblerEmit_follows {ch : Nat} {s : State} (hs : Follows origin s) :
    Keeps origin (execCobblerEmit ch s) := by
  unfold execCobblerEmit
  repeat' with_reducible first
    | assumption | intro _ | apply State.modChan_follows | apply State.countOps_follows | apply State.slabRead_follows
    | apply State.slabWrite_follows | apply State.slotWord_follows | apply State.cobEnd_follows
    | apply State.slotDone_follows | apply State.emitRecord_follows | apply Keeps.next | apply Keeps.ite
    | apply Follows.ite | apply Follows.foldl_snd | apply Follows.foldl_trd | split

theorem execCodebookCalibrate_follows {c : Nat} {instr : Nat} {grp : Nat} {s : State} (hs : Follows origin s) :
    Keeps origin (execCodebookCalibrate c instr grp s) := by
  unfold execCodebookCalibrate
  repeat' with_reducible first
    | assumption | intro _ | apply State.modArith_follows | apply State.report_follows | apply State.readRange_follows
    | apply State.writeRange_follows | apply State.slabRead_follows | apply Keeps.next | apply Follows.foldl_trd | split
    | (extract_lets)

theorem execDriftSample_follows {g : Nat} {n : Nat} {idx : Nat} {blk : Nat} {s : State} (hs : Follows origin s) :
    Keeps origin (execDriftSample g n idx blk s) := by
  unfold execDriftSample
  repeat' with_reducible first
    | assumption | intro _ | apply State.modArith_follows | apply State.modDrift_follows | apply State.countOps_follows
    | apply Keeps.next | apply Keeps.ite | split

end Sys2Proof.Machine
end

