-- ==== Sys2Proof/Laws/FollowsLeash.lean ====
section
/-! SUPPORT. Every operation of Machine/Leash.lean takes a state that follows a sound one to one that does (Laws/Follows.lean). -/

namespace Sys2Proof.Machine

variable {origin : State}

theorem State.ledRead_follows {s : State} {c : Nat} {addr : Nat} {n : Nat} (hs : Follows origin s) :
    Follows origin (State.ledRead s c addr n).2.2 := by
  unfold State.ledRead
  repeat' with_reducible first | assumption | apply State.readRange_follows

theorem State.ledRead_follows_eq {s : State} {c : Nat} {addr : Nat} {n : Nat} {y0 : Nat} {y1 : List Byte} {t_ : State} (hs : Follows origin s) (he : State.ledRead s c addr n = (y0, y1, t_)) :
    Follows origin t_ := by
  have k : Follows origin (State.ledRead s c addr n).2.2 := State.ledRead_follows hs
  rw [he] at k
  exact k

theorem State.ledWrite_follows {s : State} {c : Nat} {addr : Nat} {bs : List Byte} (hs : Follows origin s) :
    Follows origin (State.ledWrite s c addr bs) := by
  unfold State.ledWrite
  repeat' with_reducible first | assumption | apply State.writeRange_follows

theorem State.halt_follows {s : State} {c : Nat} {reason : Nat} (hs : Follows origin s) :
    Follows origin (State.halt s c reason) := by
  unfold State.halt
  repeat' with_reducible first | assumption | apply State.report_follows | apply State.modLed_follows

theorem execGranuleWrite_follows {c : Nat} {g : Nat} {n : Nat} {unit : Nat} {space : Nat} {addr : Nat} {bytes : List Byte} {s : State} (hs : Follows origin s) :
    Keeps origin (execGranuleWrite c g n unit space addr bytes s) := by
  unfold execGranuleWrite
  repeat' with_reducible first
    | assumption | intro _ | apply State.urge_follows | apply State.granuleWrite_follows | apply Keeps.next
    | apply Keeps.ite | split

theorem State.digestRanges_follows {s : State} {c : Nat} {d : Dg} (hs : Follows origin s) :
    Follows origin (State.digestRanges s c d).2 := by
  unfold State.digestRanges
  repeat' with_reducible first | assumption | intro _ | apply State.ledRead_follows | apply Follows.foldl_snd

theorem State.digestRanges_follows_eq {s : State} {c : Nat} {d : Dg} {y0 : Dg} {t_ : State} (hs : Follows origin s) (he : State.digestRanges s c d = (y0, t_)) :
    Follows origin t_ := by
  have k : Follows origin (State.digestRanges s c d).2 := State.digestRanges_follows hs
  rw [he] at k
  exact k

theorem State.fallBack_follows {s : State} {c : Nat} {slot : Nat} (hs : Follows origin s) :
    Follows origin (State.fallBack s c slot) := by
  unfold State.fallBack
  repeat' with_reducible first
    | assumption | intro _ | apply State.modDrift_follows | apply State.report_follows | apply Follows.ite

theorem State.ledgerRelease_follows {s : State} {c : Nat} (hs : Follows origin s) :
    Follows origin (State.ledgerRelease s c) := by
  unfold State.ledgerRelease
  repeat' with_reducible first
    | assumption | intro _ | apply State.modLed_follows | apply State.ledWrite_follows
    | apply State.digestRanges_follows | apply State.fallBack_follows | apply Follows.ite | apply Follows.foldl

theorem State.logPass_follows {s : State} {c : Nat} {g : Nat} {n : Nat} {idx : Nat} (hs : Follows origin s) :
    Follows origin (State.logPass s c g n idx) := by
  unfold State.logPass
  repeat' with_reducible first
    | assumption | intro _ | apply State.modClu_follows | apply State.modLed_follows | apply Follows.ite | split

theorem State.jobPacket_follows {s : State} {c : Nat} {dev : Nat} {rank : Nat} {k : Packet} (hs : Follows origin s) :
    Follows origin (State.jobPacket s c dev rank k) := by
  unfold State.jobPacket
  repeat' with_reducible first | assumption | apply State.emit_follows

theorem State.treeMsg_follows {s : State} {c : Nat} {i : Nat} {m : Nat} {data : List Byte} (hs : Follows origin s) :
    Follows origin (State.treeMsg s c i m data) := by
  unfold State.treeMsg
  repeat' with_reducible first | assumption | apply State.jobPacket_follows

theorem State.streamTo_follows {s : State} {c : Nat} {dev : Nat} {kind : Nat} {step : Nat} {bs : List Byte} (hs : Follows origin s) :
    Follows origin (State.streamTo s c dev kind step bs) := by
  unfold State.streamTo
  repeat' with_reducible first | assumption | intro _ | apply State.jobPacket_follows | apply Follows.foldl

theorem State.acceptTo_follows {s : State} {c : Nat} {dev : Nat} {step : Nat} {n : Nat} (hs : Follows origin s) :
    Follows origin (State.acceptTo s c dev step n) := by
  unfold State.acceptTo
  repeat' with_reducible first | assumption | intro _ | apply State.jobPacket_follows | apply Follows.foldl

theorem State.setXfer_follows {s : State} {c : Nat} {kind : Nat} {units : Nat} (hs : Follows origin s) :
    Follows origin (State.setXfer s c kind units) := by
  unfold State.setXfer
  repeat' with_reducible first | assumption | apply State.modLed_follows

theorem State.startSend_follows {s : State} {c : Nat} (hs : Follows origin s) :
    Follows origin (State.startSend s c) := by
  unfold State.startSend
  repeat' with_reducible first
    | assumption | intro _ | apply State.modLed_follows | apply State.streamTo_follows | apply State.setXfer_follows
    | apply Follows.foldl_snd | split | (extract_lets)

theorem State.verdictNo_follows {s : State} {c : Nat} {status : Nat} {suspects : List Nat} (hs : Follows origin s) :
    Follows origin (State.verdictNo s c status suspects) := by
  unfold State.verdictNo
  repeat' with_reducible first
    | assumption | intro _ | apply State.report_follows | apply State.modLed_follows | apply State.halt_follows
    | apply Follows.ite

theorem State.verdictYes_follows {s : State} {c : Nat} (hs : Follows origin s) :
    Follows origin (State.verdictYes s c) := by
  unfold State.verdictYes
  repeat' with_reducible first | assumption | apply State.modLed_follows

theorem State.formVerdict_follows {s : State} {c : Nat} (hs : Follows origin s) :
    Follows origin (State.formVerdict s c) := by
  unfold State.formVerdict
  repeat' with_reducible first
    | assumption | intro _ | apply State.verdictNo_follows | apply State.verdictYes_follows | apply Follows.ite

theorem State.ckptHold_follows {s : State} {c : Nat} (hs : Follows origin s) :
    Follows origin (State.ckptHold s c) := by
  unfold State.ckptHold
  repeat' with_reducible first | assumption | intro _ | apply State.modCkpt_follows | apply Follows.ite

theorem State.ckptDecide_follows {s : State} {c : Nat} {yes : Bool} {due : Bool} (hs : Follows origin s) :
    Follows origin (State.ckptDecide s c yes due) := by
  unfold State.ckptDecide
  repeat' with_reducible first | assumption | intro _ | apply State.modCkpt_follows | apply Follows.ite

theorem State.clearSamples_follows {s : State} {c : Nat} (hs : Follows origin s) :
    Follows origin (State.clearSamples s c) := by
  unfold State.clearSamples
  repeat' with_reducible first | assumption | intro _ | apply State.modDrift_follows | apply Follows.foldl | split

theorem State.runMirrorPass_follows {s : State} {c : Nat} {i : Nat} {rec_ : Nat} {hyper : List Byte} (hs : Follows origin s) :
    Follows origin (State.runMirrorPass s c i rec_ hyper).2.2 := by
  unfold State.runMirrorPass
  repeat' with_reducible first | assumption | intro _ | apply State.cobRecord_follows | apply Follows.foldl_trd | split

theorem State.runMirrorPass_follows_eq {s : State} {c : Nat} {i : Nat} {rec_ : Nat} {hyper : List Byte} {y0 : Nat} {y1 : Nat} {t_ : State} (hs : Follows origin s) (he : State.runMirrorPass s c i rec_ hyper = (y0, y1, t_)) :
    Follows origin t_ := by
  have k : Follows origin (State.runMirrorPass s c i rec_ hyper).2.2 := State.runMirrorPass_follows hs
  rw [he] at k
  exact k

theorem State.catchStep_follows {s : State} {c : Nat} {j : Nat} (hs : Follows origin s) :
    Follows origin (State.catchStep s c j).2 := by
  unfold State.catchStep
  repeat' with_reducible first
    | assumption | intro _ | apply State.ledRead_follows | apply State.ledWrite_follows
    | apply State.runMirrorPass_follows | apply Follows.foldl_trd | split | (extract_lets)

theorem State.catchStep_follows_eq {s : State} {c : Nat} {j : Nat} {y0 : Bool} {t_ : State} (hs : Follows origin s) (he : State.catchStep s c j = (y0, t_)) :
    Follows origin t_ := by
  have k : Follows origin (State.catchStep s c j).2 := State.catchStep_follows hs
  rw [he] at k
  exact k

theorem State.catchUp_follows {s : State} {c : Nat} {upTo : Nat} (hs : Follows origin s) :
    Follows origin (State.catchUp s c upTo) := by
  unfold State.catchUp
  repeat' with_reducible first
    | assumption | intro _ | apply State.modLed_follows | apply State.halt_follows | apply State.jobPacket_follows
    | apply State.setXfer_follows | apply State.catchStep_follows | apply Follows.ite | apply Follows.foldl_snd | split

theorem State.confirmStep_follows {s : State} {c : Nat} {upTo : Nat} (hs : Follows origin s) :
    Follows origin (State.confirmStep s c upTo) := by
  unfold State.confirmStep
  repeat' with_reducible first | assumption | apply State.modLed_follows | apply State.catchUp_follows

theorem State.resolve_follows {s : State} {c : Nat} {yes : Bool} {due : Bool} (hs : Follows origin s) :
    Follows origin (State.decide_ s c yes due) := by
  unfold State.decide_
  repeat' with_reducible first
    | assumption | intro _ | apply State.modLed_follows | apply State.ckptDecide_follows
    | apply State.confirmStep_follows | apply Follows.ite

theorem State.decisionDown_follows {s : State} {c : Nat} {step : Nat} {yes : Bool} {due : Bool} (hs : Follows origin s) :
    Follows origin (State.decisionDown s c step yes due) := by
  unfold State.decisionDown
  repeat' with_reducible first | assumption | intro _ | apply State.treeMsg_follows | apply Follows.foldl

theorem State.treeUp_follows {s : State} {c : Nat} (hs : Follows origin s) :
    Follows origin (State.treeUp s c) := by
  unfold State.treeUp
  repeat' with_reducible first
    | assumption | apply State.treeMsg_follows | apply State.resolve_follows | apply State.decisionDown_follows | split
    | (extract_lets)

theorem State.tryOwn_follows {s : State} {c : Nat} (hs : Follows origin s) :
    Follows origin (State.tryOwn s c) := by
  unfold State.tryOwn
  repeat' with_reducible first
    | assumption | apply State.modLed_follows | apply State.treeUp_follows | split | (extract_lets)

theorem State.tryVerdict_follows {s : State} {c : Nat} (hs : Follows origin s) :
    Follows origin (State.tryVerdict s c) := by
  unfold State.tryVerdict
  repeat' with_reducible first
    | assumption | intro _ | apply State.formVerdict_follows | apply State.tryOwn_follows | apply Follows.ite

theorem State.ledgerAccept_follows {s : State} {c : Nat} {phase : Nat} {n : Nat} (hs : Follows origin s) :
    Follows origin (State.ledgerAccept s c phase n) := by
  unfold State.ledgerAccept
  repeat' with_reducible first
    | assumption | apply State.modLed_follows | apply State.setXfer_follows | apply State.startSend_follows
    | apply State.tryOwn_follows | split | (extract_lets)

theorem State.retain_follows {s : State} {c : Nat} {j : Nat} (hs : Follows origin s) :
    Follows origin (State.retain s c j) := by
  unfold State.retain
  repeat' with_reducible first
    | assumption | intro _ | apply State.modLed_follows | apply State.ledRead_follows | apply State.ledWrite_follows
    | apply State.startSend_follows | apply Follows.ite

theorem State.vote_follows {s : State} {c : Nat} {j : Nat} (hs : Follows origin s) :
    Follows origin (State.vote s c j) := by
  unfold State.vote
  repeat' with_reducible first
    | assumption | intro _ | apply State.report_follows | apply State.modLed_follows | apply State.treeMsg_follows
    | apply State.ckptHold_follows | apply State.clearSamples_follows | apply State.tryVerdict_follows
    | apply Follows.ite | apply Follows.foldl

theorem State.ledgerBarrier_follows {s : State} {c : Nat} {j : Nat} (hs : Follows origin s) :
    Follows origin (State.ledgerBarrier s c j) := by
  unfold State.ledgerBarrier
  repeat' with_reducible first
    | assumption | intro _ | apply State.modLed_follows | apply State.retain_follows | apply State.vote_follows
    | apply Follows.ite

theorem execVoteReceive_follows {c : Nat} {v : Vote} {s : State} (hs : Follows origin s) :
    Keeps origin (execVoteReceive c v s) := by
  unfold execVoteReceive
  repeat' with_reducible first
    | assumption | intro _ | apply State.pairNote_follows | apply State.modLed_follows | apply State.tryVerdict_follows
    | apply Keeps.next | apply Keeps.ite | apply Follows.ite

theorem execVoteTimeout_follows {c : Nat} {s : State} (hs : Follows origin s) :
    Keeps origin (execVoteTimeout c s) := by
  unfold execVoteTimeout
  repeat' with_reducible first
    | assumption | intro _ | apply State.formVerdict_follows | apply State.tryOwn_follows | apply Keeps.next
    | apply Keeps.ite

theorem execDecisionReceive_follows {c : Nat} {down : Bool} {from_ : Nat} {step : Nat} {yes : Bool} {due : Bool} {at_ : Nat} {s0 : State} (hs : Follows origin s0) :
    Keeps origin (execDecisionReceive c down from_ step yes due at_ s0) := by
  unfold execDecisionReceive
  repeat' with_reducible first
    | assumption | intro _ | apply State.atClk_follows | apply State.modLed_follows | apply State.resolve_follows
    | apply State.decisionDown_follows | apply State.treeUp_follows | apply Keeps.next | apply Keeps.ite
    | apply Follows.ite

theorem execDecisionTimeout_follows {c : Nat} {s : State} (hs : Follows origin s) :
    Keeps origin (execDecisionTimeout c s) := by
  unfold execDecisionTimeout
  repeat' with_reducible first | assumption | intro _ | apply State.resolve_follows | apply Keeps.next | apply Keeps.ite

theorem execMirrorConfirmedReceive_follows {c : Nat} {step : Nat} {s : State} (hs : Follows origin s) :
    Keeps origin (execMirrorConfirmedReceive c step s) := by
  unfold execMirrorConfirmedReceive
  repeat' with_reducible first | assumption | intro _ | apply State.modLed_follows | apply Keeps.next | apply Keeps.ite

theorem State.ledFenced_follows {s : State} {c : Nat} (hs : Follows origin s) : Follows origin (State.ledFenced s c) :=
  State.report_follows (State.modLed_follows hs)

theorem execLedgerTransferReceive_follows {c : Nat} {kind : Nat} {step : Nat} {bytes : List Byte} {digest : Nat} {s : State} (hs : Follows origin s) :
    Keeps origin (execLedgerTransferReceive c kind step bytes digest s) := by
  unfold execLedgerTransferReceive
  repeat' with_reducible first
    | assumption | intro _ | apply State.report_follows | apply State.modLed_follows | apply State.ledWrite_follows
    | apply State.acceptTo_follows | apply State.ledFenced_follows | apply Keeps.next | apply Keeps.ite

end Sys2Proof.Machine
end

