-- ==== Sys2Proof/Laws/FollowsCollective.lean ====
section
/-! SUPPORT. Every operation of Machine/Collective.lean takes a state that follows a sound one to one that does (Laws/Follows.lean). -/

namespace Sys2Proof.Machine

variable {origin : State}

theorem State.bumpCnt_follows {s : State} {x : Ph} {m : Nat} {st : Nat} {kind : Nat} {n : Nat} (hs : Follows origin s) :
    Follows origin (State.bumpCnt s x m st kind n) := by
  unfold State.bumpCnt
  repeat' with_reducible first | assumption | apply State.modRunOf_follows

theorem State.readUnit_follows {s : State} {x : Ph} {m : Nat} {u : Nat} {loc : Nat} (hs : Follows origin s) :
    Follows origin (State.readUnit s x m u loc).2.2 := by
  unfold State.readUnit
  repeat' with_reducible first | assumption | apply State.readRange_follows | split | (extract_lets)

theorem State.readUnit_follows_eq {s : State} {x : Ph} {m : Nat} {u : Nat} {loc : Nat} {y0 : Nat} {y1 : List Byte} {t_ : State} (hs : Follows origin s) (he : State.readUnit s x m u loc = (y0, y1, t_)) :
    Follows origin t_ := by
  have k : Follows origin (State.readUnit s x m u loc).2.2 := State.readUnit_follows hs
  rw [he] at k
  exact k

theorem State.writeUnit_follows {s : State} {x : Ph} {m : Nat} {u : Nat} {loc : Nat} {bs : List Byte} (hs : Follows origin s) :
    Follows origin (State.writeUnit s x m u loc bs) := by
  unfold State.writeUnit
  repeat' with_reducible first | assumption | intro _ | apply State.writeRange_follows | apply Follows.ite

theorem State.phWord_follows {s : State} {x : Ph} {m : Nat} {v : Nat} (hs : Follows origin s) :
    Follows origin (State.phWord s x m v) := by
  unfold State.phWord
  repeat' with_reducible first | assumption | apply State.writeRange_follows

theorem State.phDone_follows {s : State} {x : Ph} (hs : Follows origin s) :
    Follows origin (State.phDone s x) := by
  unfold State.phDone
  repeat' with_reducible first | assumption | intro _ | apply State.modRunOf_follows | apply Follows.ite

theorem State.maskDown_follows {s : State} {dst : Nat} (hs : Follows origin s) :
    Follows origin (State.maskDown s dst) := by
  unfold State.maskDown
  repeat' with_reducible first | assumption | intro _ | apply State.report_follows | apply Follows.foldl

theorem State.tellPort_follows {s : State} {p : Nat} {kind : Nat} {status : Nat} {ctx : Nat} (hs : Follows origin s) :
    Follows origin (State.tellPort s p kind status ctx) := by
  unfold State.tellPort
  repeat' with_reducible first
    | assumption | intro _ | apply State.report_follows | apply State.modPort_follows | apply Follows.ite

theorem State.freePkt_follows {s : State} {h : HeldPkt} (hs : Follows origin s) :
    Follows origin (State.freePkt s h) := by
  unfold State.freePkt
  repeat' with_reducible first | assumption | apply State.freeBufs_follows

theorem State.dropForeign_follows {s : State} {h : HeldPkt} (hs : Follows origin s) :
    Follows origin (State.dropForeign s h) := by
  unfold State.dropForeign
  repeat' with_reducible first
    | assumption | intro _ | apply State.modPort_follows | apply State.tellPort_follows | apply State.freePkt_follows
    | apply Follows.ite

theorem State.modPack_follows {s : State} {c : Nat} {f : PackCtx → PackCtx} (hs : Follows origin s) :
    Follows origin (State.modPack s c f) := by
  unfold State.modPack
  repeat' with_reducible first | assumption | exact Follows.upd (by assumption) rfl

theorem State.dropStale_follows {s : State} {h : HeldPkt} {c : Nat} (hs : Follows origin s) :
    Follows origin (State.dropStale s h c) := by
  unfold State.dropStale
  repeat' with_reducible first
    | assumption | apply State.tellPort_follows | apply State.freePkt_follows | apply State.modPack_follows

theorem State.hold_follows {s : State} {h : HeldPkt} (hs : Follows origin s) :
    Follows origin (State.hold s h) := by
  unfold State.hold
  repeat' with_reducible first | assumption | exact Follows.upd (by assumption) rfl

theorem State.tellAccept_follows {s : State} {x : Ph} {d : Nat} {st : Nat} {k : Packet} (hs : Follows origin s) :
    Follows origin (State.tellAccept s x d st k) := by
  unfold State.tellAccept
  repeat' with_reducible first
    | assumption | intro _ | apply State.emit_follows | apply State.bumpCnt_follows | apply Follows.ite

theorem State.accepted_follows {s : State} {c : Nat} {group : Nat} {phase : Nat} {st : Nat} {rank : Nat} {n : Nat} (hs : Follows origin s) :
    Follows origin (State.accepted s c group phase st rank n) := by
  unfold State.accepted
  repeat' with_reducible first | assumption | apply State.bumpCnt_follows | apply State.phDone_follows | split

theorem State.combine_follows {s : State} {x : Ph} {d : Nat} {u : Nat} {loc : Nat} {bs : List Byte} (hs : Follows origin s) :
    Follows origin (State.combine s x d u loc bs).2.2.2 := by
  unfold State.combine
  repeat' with_reducible first
    | assumption | apply State.raise_follows | apply State.readUnit_follows | apply State.modPack_follows | split
    | (extract_lets)

theorem State.combine_follows_eq {s : State} {x : Ph} {d : Nat} {u : Nat} {loc : Nat} {bs : List Byte} {y0 : Nat} {y1 : List Byte} {y2 : Option Nat} {t_ : State} (hs : Follows origin s) (he : State.combine s x d u loc bs = (y0, y1, y2, t_)) :
    Follows origin t_ := by
  have k : Follows origin (State.combine s x d u loc bs).2.2.2 := State.combine_follows hs
  rw [he] at k
  exact k

/-- Where a delivery is done, its state is sound. -/
def Took.Keeps (origin : State) (o : Took) : Prop := ∀ t, o = .done t → Follows origin t

theorem Took.Keeps.done {t : State} (h : Follows origin t) : Took.Keeps origin (.done t) := fun u e => by cases e; exact h

theorem Took.Keeps.wait : Took.Keeps origin .wait := fun u e => by cases e

theorem Took.Keeps.ite {c : Prop} [Decidable c] {o p : Took} (h : c → Took.Keeps origin o) (k : ¬c → Took.Keeps origin p) :
    Took.Keeps origin (if c then o else p) := by
  split
  · exact h ‹_›
  · exact k ‹_›

theorem State.takeUnitPkt_follows {s : State} {c : Nat} {k : Packet} (hs : Follows origin s) : Took.Keeps origin (State.takeUnitPkt s c k) := by
  unfold State.takeUnitPkt
  split
  · exact .ite (fun _ => .done hs) fun _ => .wait
  · refine .ite (fun _ => .done hs) fun _ => ?_
    split
    · exact .done hs
    · extract_lets rl got pos
      generalize rl[pos]? = o
      split
      · exact .done hs
      · rename_i x _ _ d _ _ t
        extract_lets y s1 x1 s2 s3
        have hy : Follows origin y.2.2.2 := by
          unfold y
          split
          · exact State.combine_follows hs
          · exact hs
        have h2 : Follows origin s2 := State.phWord_follows (State.progress_follows (State.bumpCnt_follows (State.writeUnit_follows hy)))
        have h3 : Follows origin s3 := Follows.ite (fun _ => State.accepted_follows h2) fun _ => State.tellAccept_follows h2
        refine .ite (fun _ => .done hs) fun _ => .ite (fun _ => .wait) fun _ => .ite (fun _ => .wait) fun _ =>
          .ite (fun _ => .wait) fun _ => .ite (fun _ => .done (State.endRun_follows hs)) fun _ =>
          .ite (fun _ => .done (State.endRun_follows hy)) fun _ => .done ?_
        split
        · exact State.endRun_follows h3
        · exact State.phDone_follows h3

theorem State.arrive_follows {s : State} {h : HeldPkt} (hs : Follows origin s) : Follows origin (State.arrive s h) := by
  unfold State.arrive
  extract_lets k
  split
  · exact State.dropForeign_follows hs
  · split
    · exact State.dropForeign_follows hs
    · refine Follows.ite (fun _ => State.dropStale_follows hs) fun _ => Follows.ite (fun _ => Follows.ite (fun _ => State.hold_follows hs)
        fun _ => State.modJob_follows (State.freePkt_follows hs)) fun _ => Follows.ite (fun _ => ?_) fun _ => Follows.ite
        (fun _ => State.freePkt_follows (State.ledgerAccept_follows hs)) fun _ => Follows.ite
        (fun _ => State.freePkt_follows (State.accepted_follows hs)) fun _ => State.freePkt_follows hs
      split
      · exact State.freePkt_follows (State.takeUnitPkt_follows hs _ ‹_›)
      · exact State.hold_follows hs


theorem State.forward_follows {s : State} {h : HeldPkt} (hs : Follows origin s) :
    Follows origin (State.forward s h) := by
  unfold State.forward
  repeat' with_reducible first | assumption | intro _ | exact Follows.upd (by assumption) rfl | apply State.modPort_follows | apply State.givePacket_follows | apply State.maskDown_follows | apply State.tellPort_follows | apply State.freePkt_follows | apply State.hold_follows | apply Follows.ite | split

theorem State.retryOnce_follows {s : State} (hs : Follows origin s) :
    Follows origin (State.retryOnce s) := by
  unfold State.retryOnce
  repeat' with_reducible first
    | assumption | intro _ | exact Follows.upd (by assumption) rfl | apply State.arrive_follows
    | apply State.forward_follows | apply Follows.ite | apply Follows.foldl

theorem State.retryHeld_follows {s : State} (hs : Follows origin s) :
    Follows origin (State.retryHeld s) := by
  unfold State.retryHeld
  repeat' with_reducible first | assumption | intro _ | apply State.retryOnce_follows | apply Follows.foldl

theorem execPacketRoute_follows {i : Nat} {s : State} (hs : Follows origin s) :
    Keeps origin (execPacketRoute i s) := by
  unfold execPacketRoute
  repeat' with_reducible first
    | assumption | exact Follows.upd (by assumption) rfl | apply State.report_follows | apply State.givePacket_follows
    | apply State.maskDown_follows | apply State.arrive_follows | apply State.retryHeld_follows | apply Keeps.next
    | split

theorem State.installEpoch_follows {s : State} {slot : Nat} {epoch : Nat} (hs : Follows origin s) :
    Follows origin (State.installEpoch s slot epoch) := by
  unfold State.installEpoch
  repeat' with_reducible first
    | assumption | intro _ | apply State.modJob_follows | apply State.arrive_follows | apply State.retryHeld_follows
    | apply Follows.foldl

theorem State.sendUnit_follows {s : State} {x : Ph} {st : Nat} {t : Xfer} (hs : Follows origin s) :
    Follows origin (State.sendUnit s x st t).2 := by
  unfold State.sendUnit
  repeat' with_reducible first
    | assumption | apply State.emit_follows | apply State.bumpCnt_follows | apply State.readUnit_follows
    | apply State.arrive_follows | split | (extract_lets)

theorem State.sendUnit_follows_eq {s : State} {x : Ph} {st : Nat} {t : Xfer} {y0 : Nat} {t_ : State} (hs : Follows origin s) (he : State.sendUnit s x st t = (y0, t_)) :
    Follows origin t_ := by
  have k : Follows origin (State.sendUnit s x st t).2 := State.sendUnit_follows hs
  rw [he] at k
  exact k

theorem State.sendStage_follows {s : State} {x : Ph} {m : Nat} {st : Nat} (hs : Follows origin s) :
    Follows origin (State.sendStage s x m st) := by
  unfold State.sendStage
  repeat' with_reducible first
    | assumption | intro _ | apply State.endRun_follows | apply State.phDone_follows | apply State.retryHeld_follows
    | apply State.sendUnit_follows | apply Follows.foldl_snd | split | (extract_lets)

theorem State.foldBlock_follows {s : State} {x : Ph} {lo : Nat} {n : Nat} {u : Nat} (hs : Follows origin s) :
    Follows origin (State.foldBlock s x lo n u).2 := by
  unfold State.foldBlock
  repeat' with_reducible first
    | assumption | intro _ | apply State.readUnit_follows | apply State.writeUnit_follows | apply State.raise_follows
    | apply Follows.foldl_trd | split | (extract_lets)

theorem State.foldBlock_follows_eq {s : State} {x : Ph} {lo : Nat} {n : Nat} {u : Nat} {y0 : Nat} {t_ : State} (hs : Follows origin s) (he : State.foldBlock s x lo n u = (y0, t_)) :
    Follows origin t_ := by
  have k : Follows origin (State.foldBlock s x lo n u).2 := State.foldBlock_follows hs
  rw [he] at k
  exact k

theorem State.foldAll_follows {s : State} {x : Ph} {devs : List Nat} (hs : Follows origin s) :
    Follows origin (State.foldAll s x devs).2 := by
  unfold State.foldAll
  repeat' with_reducible first | assumption | intro _ | apply State.foldBlock_follows | apply Follows.foldl_snd | split

theorem State.foldAll_follows_eq {s : State} {x : Ph} {devs : List Nat} {y0 : Nat} {t_ : State} (hs : Follows origin s) (he : State.foldAll s x devs = (y0, t_)) :
    Follows origin t_ := by
  have k : Follows origin (State.foldAll s x devs).2 := State.foldAll_follows hs
  rw [he] at k
  exact k

theorem State.startPhase_follows {s : State} {c : Nat} {g : Nat} {n : Nat} {r : Run} (hs : Follows origin s) :
    Follows origin (State.startPhase s c g n r) := by
  unfold State.startPhase
  repeat' with_reducible first
    | assumption | intro _ | apply State.modRun_follows | apply State.readRange_follows | apply State.modRunOf_follows
    | apply State.endRun_follows | apply State.phWord_follows | apply State.phDone_follows
    | apply State.retryHeld_follows | apply State.sendStage_follows | apply State.foldAll_follows | apply Follows.ite
    | apply Follows.foldl | split

theorem execReduceStage_follows {g : Nat} {n : Nat} {idx : Nat} {m : Nat} {st : Nat} {s : State} (hs : Follows origin s) :
    Keeps origin (execReduceStage g n idx m st s) := by
  unfold execReduceStage
  repeat' with_reducible first
    | assumption | intro _ | apply State.sendStage_follows | apply Keeps.next | apply Keeps.ite | split

theorem State.fromLink_follows {s : State} {h : HeldPkt} (hs : Follows origin s) :
    Follows origin (State.fromLink s h) := by
  unfold State.fromLink
  repeat' with_reducible first
    | assumption | intro _ | apply State.arrive_follows | apply State.forward_follows | apply State.retryHeld_follows
    | apply Follows.ite

theorem execFabricPacketReceive_follows {p : Nat} {v : Nat} {k : Packet} {s : State} (hs : Follows origin s) :
    Keeps origin (execFabricPacketReceive p v k s) := by
  unfold execFabricPacketReceive
  repeat' with_reducible first
    | assumption | intro _ | apply State.fromLink_follows | apply Keeps.next | apply Keeps.ite

theorem execAcceptReceive_follows {p : Nat} {v : Nat} {k : Packet} {s : State} (hs : Follows origin s) :
    Keeps origin (execAcceptReceive p v k s) := by
  unfold execAcceptReceive
  repeat' with_reducible first
    | assumption | intro _ | apply State.fromLink_follows | apply Keeps.next | apply Keeps.ite

theorem execFabJobWrite_follows {slot : Nat} {epoch : Bool} {value : Nat} {s : State} (hs : Follows origin s) :
    Keeps origin (execFabJobWrite slot epoch value s) := by
  unfold execFabJobWrite
  repeat' with_reducible first
    | assumption | intro _ | apply State.fabRefuse_follows | apply State.modJob_follows
    | apply State.installEpoch_follows | apply Keeps.next | apply Keeps.ite

theorem execDeterministicWrite_follows {value : Nat} {s : State} (hs : Follows origin s) :
    Keeps origin (execDeterministicWrite value s) := by
  unfold execDeterministicWrite
  repeat' with_reducible first
    | assumption | intro _ | exact Follows.upd (by assumption) rfl | apply Keeps.next | apply Keeps.ite

end Sys2Proof.Machine
end

