-- ==== Sys2Proof/Laws/FollowsPort.lean ====
section
/-! SUPPORT. Every operation of Machine/Port.lean takes a state that follows a sound one to one that does (Laws/Follows.lean). -/

namespace Sys2Proof.Machine

variable {origin : State}

theorem State.modQp_follows {s : State} {q : Nat} {f : Qp → Qp} (hs : Follows origin s) :
    Follows origin (State.modQp s q f) := by
  unfold State.modQp
  repeat' with_reducible first | assumption | exact Follows.upd (by assumption) rfl

theorem State.modSport_follows {s : State} {p : Nat} {f : StorPort → StorPort} (hs : Follows origin s) :
    Follows origin (State.modSport s p f) := by
  unfold State.modSport
  repeat' with_reducible first | assumption | exact Follows.upd (by assumption) rfl

theorem State.askPort_follows {s : State} {t : PortTag} (hs : Follows origin s) :
    Follows origin (State.askPort s t) := by
  unfold State.askPort
  repeat' with_reducible first
    | assumption | intro _ | exact Follows.upd (by assumption) rfl | apply State.send_follows
    | apply State.modQp_follows | apply Follows.ite

theorem State.pumpCopy_follows {s : State} {c : Nat} {k : Nat} {r : Run} (hs : Follows origin s) :
    Follows origin (State.pumpCopy s c k r) := by
  unfold State.pumpCopy
  repeat' with_reducible first
    | assumption | intro _ | apply State.modRunOf_follows | apply State.askPort_follows | apply Follows.foldl_trd
    | split

theorem State.pumpLoad_follows {s : State} (hs : Follows origin s) :
    Follows origin (State.pumpLoad s) := by
  unfold State.pumpLoad
  repeat' with_reducible first
    | assumption | intro _ | refine Follows.upd (State.askPort_follows ?_) rfl | apply Follows.ite | apply Follows.foldl
    | split

theorem State.pumpPorts_follows {s : State} (hs : Follows origin s) :
    Follows origin (State.pumpPorts s) := by
  unfold State.pumpPorts
  repeat' with_reducible first
    | assumption | intro _ | apply State.pumpCopy_follows | apply State.pumpLoad_follows | apply Follows.foldl | split

theorem State.feedRow_follows {s : State} {c : Nat} {k : Nat} {idx : Nat} (hs : Follows origin s) :
    Follows origin (State.feedRow s c k idx) := by
  unfold State.feedRow
  repeat' with_reducible first
    | assumption | intro _ | apply State.raise_follows | apply State.modRunOf_follows | apply Follows.ite
    | apply Follows.foldl_trd | split

theorem State.feedCopy_follows {s : State} {t : PortTag} {bs : List Byte} (hs : Follows origin s) :
    Follows origin (State.feedCopy s t bs) := by
  unfold State.feedCopy
  repeat' with_reducible first
    | assumption | intro _ | apply State.modRunOf_follows | apply State.feedRow_follows | apply Follows.foldl | split
    | (extract_lets)

theorem State.dropTags_follows {s : State} {hit : PortTag → Bool} (hs : Follows origin s) :
    Follows origin (State.dropTags s hit) := by
  unfold State.dropTags
  repeat' with_reducible first
    | assumption | intro _ | apply State.modCtl_follows | refine Follows.upd (Follows.foldl ?_ ?_) rfl

theorem State.endPort_follows {s : State} {k : Nat} {r : Run} {status : Nat} (hs : Follows origin s) :
    Follows origin (State.endPort s k r status) := by
  unfold State.endPort
  extract_lets d s0 s1 s2
  have h0 : Follows origin s0 := Follows.ite (fun _ => hs) fun _ => by
    split
    · exact State.leaveUnits_follows hs
    · exact hs
  have h1 : Follows origin s1 := State.dropTags_follows h0
  exact State.report_follows (Follows.ite (fun _ => State.modRunOf_follows (State.endRun_follows h1)) fun _ =>
    State.modRunOf_follows h1)

theorem execRetrieverCopy_follows {g : Nat} {n : Nat} {at_ : Nat} {s0 : State} (hs : Follows origin s0) :
    Keeps origin (execRetrieverCopy g n at_ s0) := by
  unfold execRetrieverCopy
  repeat' with_reducible first
    | assumption | apply State.atClk_follows | apply State.modFn_follows | apply State.modRunOf_follows
    | apply State.beginRet_follows | apply State.retrieverCopy_follows | apply State.pumpPorts_follows
    | apply State.endPort_follows | apply Keeps.next | split | (extract_lets)

theorem State.qpHeard_follows {s : State} {q : Nat} (hs : Follows origin s) :
    Follows origin (State.qpHeard s q) := by
  unfold State.qpHeard
  repeat' with_reducible first | assumption | apply State.modQp_follows

theorem execUnitAccept_follows {g : Nat} {n : Nat} {at_ : Nat} {s0 : State} (hs : Follows origin s0) :
    Keeps origin (execUnitAccept g n at_ s0) := by
  unfold execUnitAccept
  repeat' with_reducible first
    | assumption | apply State.atClk_follows | apply State.urge_follows | apply State.writeProg_follows
    | apply State.progress_follows | apply State.modRunOf_follows | apply State.endRun_follows
    | apply State.takeUnit_follows | apply State.qpHeard_follows | apply Keeps.next | split | (extract_lets)

end Sys2Proof.Machine
end

