-- ==== Sys2Proof/Laws/FollowsTickOps.lean ====
section
/-! SUPPORT. Every operation of Machine/TickOps.lean takes a state that follows a sound one to one that does (Laws/Follows.lean). -/

namespace Sys2Proof.Machine

variable {origin : State}

theorem State.acceptBeacon_follows {s : State} {b : Beacon} (hs : Follows origin s) : Follows origin (State.acceptBeacon s b) := by
  unfold State.acceptBeacon
  extract_lets t adopting rootChange e t1 differs t2 s1 s2
  have hn : t2.number.ok = true := by
    show (if adopting = true then pairOf 64 b.tick else t.number).ok = true
    split
    · exact pairOf_ok _ _
    · exact hs.sound.tick
  have h2 : Follows origin s2 := Follows.ite (fun _ => State.report_follows (hs.ticked hn)) fun _ => hs.ticked hn
  exact Follows.ite (fun _ => State.report_follows h2) fun _ => h2

theorem execBeaconReceive_follows {port : Nat} {b : Beacon} {at_ : Nat} {s0 : State} (hs : Follows origin s0) :
    Keeps origin (execBeaconReceive port b at_ s0) := by
  unfold execBeaconReceive
  repeat' with_reducible first
    | assumption | intro _ | apply State.atClk_follows | apply State.pairNote_follows
    | refine Follows.upd (State.takeVc0_follows ?_) rfl | apply State.acceptBeacon_follows | apply Keeps.next
    | apply Keeps.ite | apply Follows.ite

theorem execEchoSend_follows {at_ : Nat} {s0 : State} (hs : Follows origin s0) :
    Keeps origin (execEchoSend at_ s0) := by
  unfold execEchoSend
  repeat' with_reducible first
    | assumption | refine Follows.upd (State.atClk_follows ?_) rfl | apply State.giveCell_follows | apply Keeps.next
    | split | (extract_lets)

theorem execEchoReceive_follows {port : Nat} {b : Beacon} {at_ : Nat} {s0 : State} (hs : Follows origin s0) :
    Keeps origin (execEchoReceive port b at_ s0) := by
  unfold execEchoReceive
  repeat' with_reducible first
    | assumption | apply State.atClk_follows | refine Follows.upd (State.takeVc0_follows ?_) rfl | apply Keeps.next
    | split | (extract_lets)

theorem execHoldoverExpire_follows {s : State} (hs : Follows origin s) :
    Keeps origin (execHoldoverExpire s) := by
  unfold execHoldoverExpire
  repeat' with_reducible first
    | assumption | intro _ | exact Follows.upd (by assumption) rfl | apply State.report_follows | apply Keeps.next
    | apply Keeps.ite

theorem execRelock_follows {s : State} (hs : Follows origin s) :
    Keeps origin (execRelock s) := by
  unfold execRelock
  repeat' with_reducible first | assumption | exact Follows.upd (by assumption) rfl | apply Keeps.next

theorem execTickPeriodWrite_follows {value : Nat} {s : State} (hs : Follows origin s) :
    Keeps origin (execTickPeriodWrite value s) := by
  unfold execTickPeriodWrite
  repeat' with_reducible first
    | assumption | intro _ | exact Follows.upd (by assumption) rfl | apply Keeps.next | apply Keeps.ite

theorem execStartArm_follows {S : Nat} {s0 : State} (hs : Follows origin s0) :
    Keeps origin (execStartArm S s0) := by
  unfold execStartArm
  repeat' with_reducible first
    | assumption | intro _ | exact Follows.upd (by assumption) rfl | refine Follows.upd (State.modStart_follows ?_) rfl
    | apply State.modLed_follows | apply Keeps.next | apply Keeps.ite | apply Follows.ite

theorem execStartDisarm_follows {c : Nat} {s0 : State} (hs : Follows origin s0) :
    Keeps origin (execStartDisarm c s0) := by
  unfold execStartDisarm
  repeat' with_reducible first
    | assumption | intro _ | exact Follows.upd (by assumption) rfl | refine Follows.upd (State.modStart_follows ?_) rfl
    | apply Keeps.next | apply Keeps.ite

theorem execGovernorEnergyCheck_follows {running : Nat} {s : State} (hs : Follows origin s) :
    Keeps origin (execGovernorEnergyCheck running s) := by
  unfold execGovernorEnergyCheck
  repeat' with_reducible first | assumption | exact Follows.upd (by assumption) rfl | apply Keeps.next

theorem State.governorClose_follows {s : State} {work : Nat} {room : Nat} (hs : Follows origin s) :
    Follows origin (State.governorClose s work room) := by
  unfold State.governorClose
  repeat' with_reducible first
    | assumption | intro _ | exact Follows.upd (by assumption) rfl | apply State.report_follows | apply Follows.ite

theorem State.overruns_follows {s : State} {c : Nat} (hs : Follows origin s) :
    Follows origin (State.overruns s c) := by
  unfold State.overruns
  repeat' with_reducible first
    | assumption | intro _ | apply State.modMon_follows | apply State.modClu_follows | apply State.report_follows
    | apply State.fence_follows | apply Follows.ite | apply Follows.foldl

theorem State.releaseSeg_follows {s : State} {g : Nat} {n : Nat} (hs : Follows origin s) :
    Follows origin (State.releaseSeg s g n) := by
  unfold State.releaseSeg
  repeat' with_reducible first | assumption | apply State.modClu_follows | apply State.progress_follows

theorem State.tryRelease_follows {s : State} {c : Nat} {g : Nat} {n : Nat} (hs : Follows origin s) :
    Follows origin (State.tryRelease s c g n) := by
  unfold State.tryRelease
  repeat' with_reducible first
    | assumption | intro _ | apply State.modMon_follows | apply State.fence_follows | apply State.releaseSeg_follows
    | apply Follows.ite | split

theorem State.beginStep_follows {s : State} {c : Nat} (hs : Follows origin s) :
    Follows origin (State.beginStep s c) := by
  unfold State.beginStep
  repeat' with_reducible first
    | assumption | intro _ | apply State.modMon_follows | apply State.modClu_follows | apply State.modRun_follows
    | apply State.ledgerRelease_follows | apply Follows.foldl

theorem State.releaseCtx_follows {s : State} {c : Nat} (hs : Follows origin s) :
    Follows origin (State.releaseCtx s c) := by
  unfold State.releaseCtx
  repeat' with_reducible first
    | assumption | intro _ | apply State.tryRelease_follows | apply State.beginStep_follows | apply Follows.ite
    | apply Follows.foldl

theorem State.startEdge_follows {s : State} (hs : Follows origin s) :
    Follows origin (State.startEdge s) := by
  unfold State.startEdge
  repeat' with_reducible first
    | assumption | intro _ | apply State.modRun_follows | refine Follows.upd (State.modStart_follows ?_) rfl
    | apply State.report_follows | apply Follows.ite | apply Follows.foldl

theorem State.quietTicks_follows {s : State} {excused : Nat → Bool} (hs : Follows origin s) :
    Follows origin (State.quietTicks s excused) := by
  unfold State.quietTicks
  repeat' with_reducible first
    | assumption | intro _ | apply State.modMon_follows | apply Follows.ite | apply Follows.foldl

theorem State.edgePending_follows {s : State} (hs : Follows origin s) :
    Follows origin (State.edgePending s) := by
  unfold State.edgePending
  repeat' with_reducible first | assumption | exact Follows.upd (by assumption) rfl | split | dsimp only

theorem State.countTick_follows {s : State} (hs : Follows origin s) : Follows origin (State.countTick s) := by
  unfold State.countTick
  exact Follows.ite (fun _ => hs.ticked (pairOf_ok _ _)) fun _ => State.report_follows (hs.ticked hs.sound.tick)

theorem State.sendBeacons_follows {s : State} {ports : List Nat} (hs : Follows origin s) : Follows origin (State.sendBeacons s ports) := by
  unfold State.sendBeacons
  refine Follows.ite (fun _ => hs) fun _ => ?_
  exact (Follows.foldl hs fun _ _ h => State.giveCell_follows h).ticked hs.sound.tick

end Sys2Proof.Machine
end

