-- ==== Sys2Proof/Laws/FollowsRollback.lean ====
section
/-! SUPPORT. Every operation of Machine/Rollback.lean takes a state that follows a sound one to one that does (Laws/Follows.lean). -/

namespace Sys2Proof.Machine

variable {origin : State}

theorem State.ledRefuse_follows {s : State} {status : Nat} (hs : Follows origin s) :
    Follows origin (State.ledRefuse s status) := by
  unfold State.ledRefuse
  repeat' with_reducible first | assumption | exact Follows.upd (by assumption) rfl

theorem State.endSends_follows {s : State} {g : Nat} (hs : Follows origin s) :
    Follows origin (State.endSends s g) := by
  unfold State.endSends
  repeat' with_reducible first
    | assumption | intro _ | apply State.modSync_follows | apply State.strand_follows | apply Follows.ite
    | refine Follows.upd (Follows.foldl ?_ ?_) rfl

theorem State.quiesce_follows {s : State} {c : Nat} (hs : Follows origin s) :
    Follows origin (State.quiesce s c) := by
  unfold State.quiesce
  repeat' with_reducible first
    | assumption | intro _ | apply State.modRun_follows | apply State.modStart_follows | apply State.report_follows
    | apply State.modLed_follows | apply State.modCkpt_follows | apply State.planBarrier_follows
    | apply State.settle_follows | apply State.reseedAll_follows | apply State.abandon_follows
    | apply State.clearSamples_follows | apply State.installEpoch_follows | apply State.dropTags_follows
    | apply State.dropCobblers_follows | apply State.endSends_follows | apply Follows.ite | apply Follows.foldl

theorem execLedgerRollback_follows {c at_ : Nat} {s0 : State} (hs : Follows origin s0) : Keeps origin (execLedgerRollback c at_ s0) := by
  unfold execLedgerRollback
  extract_lets t ld s l need ld1 s1 g i
  have h : Follows origin s := Follows.upd (State.atClk_follows (at_ := at_) hs) rfl
  have h1 : Follows origin s1 := State.quiesce_follows (Follows.upd h rfl)
  exact Keeps.ite (fun _ => Keeps.next (State.ledRefuse_follows h)) fun _ =>
    Keeps.next (Follows.ite (fun _ => h1) fun _ => State.treeMsg_follows h1)

theorem State.settleShard_follows {s : State} {c : Nat} {target : Nat} {needTail : Bool} (hs : Follows origin s) :
    Follows origin (State.settleShard s c target needTail) := by
  unfold State.settleShard
  repeat' with_reducible first
    | assumption | intro _ | apply State.modRun_follows | refine Follows.upd (State.modLed_follows ?_) rfl
    | apply State.halt_follows | apply Follows.ite

theorem execRollbackExchange_follows {c : Nat} {target : Nat} {needTail : Bool} {lost : Bool} {at_ : Nat} {s0 : State} (hs : Follows origin s0) :
    Keeps origin (execRollbackExchange c target needTail lost at_ s0) := by
  unfold execRollbackExchange
  repeat' with_reducible first
    | assumption | intro _ | apply State.atClk_follows | apply State.modLed_follows | apply State.confirmStep_follows
    | apply State.settleShard_follows | apply State.ckptEnd_follows | apply Keeps.next | apply Keeps.ite | apply Follows.ite

theorem State.settled_follows {s : State} {c : Nat} (hs : Follows origin s) :
    Follows origin (State.settled s c) := by
  unfold State.settled
  repeat' with_reducible first | assumption | apply State.modLed_follows

theorem State.streamBad_follows {s : State} {c : Nat} {kind : Nat} {reason : Nat} (hs : Follows origin s) :
    Follows origin (State.streamBad s c kind reason) := by
  unfold State.streamBad
  repeat' with_reducible first
    | assumption | intro _ | apply State.report_follows | apply State.modLed_follows | apply State.halt_follows
    | apply State.setXfer_follows | apply Follows.ite

theorem execMirrorRestore_follows {c : Nat} {role : Nat} {bytes : List Byte} {digest : Option Nat} {s : State} (hs : Follows origin s) :
    Keeps origin (execMirrorRestore c role bytes digest s) := by
  unfold execMirrorRestore
  repeat' with_reducible first
    | assumption | intro _ | apply State.modLed_follows | apply State.ledWrite_follows | apply State.streamTo_follows
    | apply State.setXfer_follows | apply State.settled_follows | apply State.streamBad_follows
    | apply State.ledFenced_follows | apply Keeps.next
    | apply Keeps.ite | split

theorem execMirrorSeeding_follows {c : Nat} {role : Nat} {step : Nat} {bytes : List Byte} {digest : Option Nat} {s : State} (hs : Follows origin s) :
    Keeps origin (execMirrorSeeding c role step bytes digest s) := by
  unfold execMirrorSeeding
  repeat' with_reducible first
    | assumption | intro _ | apply State.report_follows | apply State.modLed_follows | apply State.ledWrite_follows
    | apply State.jobPacket_follows | apply State.streamTo_follows | apply State.setXfer_follows
    | apply State.ledFenced_follows | apply Keeps.next | apply Keeps.ite | split

theorem State.targetRecord_follows {s : State} {c : Nat} {j : Nat} {copy : List Byte} (hs : Follows origin s) :
    Follows origin (State.targetRecord s c j copy).2 := by
  unfold State.targetRecord
  repeat' with_reducible first | assumption | apply State.ledRead_follows | split | (extract_lets)

theorem State.targetRecord_follows_eq {s : State} {c : Nat} {j : Nat} {copy : List Byte} {y0 : Option (List Byte)} {t_ : State} (hs : Follows origin s) (he : State.targetRecord s c j copy = (y0, t_)) :
    Follows origin t_ := by
  have k : Follows origin (State.targetRecord s c j copy).2 := State.targetRecord_follows hs
  rw [he] at k
  exact k

theorem State.startTail_follows {s : State} {c : Nat} (hs : Follows origin s) :
    Follows origin (State.startTail s c) := by
  unfold State.startTail
  repeat' with_reducible first
    | assumption | intro _ | apply State.modMon_follows | apply State.modClu_follows | apply State.modRun_follows
    | apply Follows.foldl

theorem execTailReplay_follows {c : Nat} {copy : List Byte} {s : State} (hs : Follows origin s) :
    Keeps origin (execTailReplay c copy s) := by
  unfold execTailReplay
  repeat' with_reducible first
    | assumption | intro _ | apply State.ledWrite_follows | apply State.halt_follows | apply State.targetRecord_follows
    | apply State.startTail_follows | apply Keeps.next | apply Follows.foldl | split | (extract_lets)

theorem State.fillWeights_follows {s : State} {c : Nat} {bs : List Byte} (hs : Follows origin s) :
    Follows origin (State.fillWeights s c bs) := by
  unfold State.fillWeights
  repeat' with_reducible first
    | assumption | intro _ | apply State.ledWrite_follows | apply Follows.ite | apply Follows.foldl_snd

theorem execSpareTakeover_follows {c : Nat} {target : Nat} {records : List (Nat × List Byte)} {banks : List (Nat × List Byte)} {weights : List Byte} {s : State} (hs : Follows origin s) :
    Keeps origin (execSpareTakeover c target records banks weights s) := by
  unfold execSpareTakeover
  repeat' with_reducible first
    | assumption | intro _ | apply State.modRun_follows | apply State.modLed_follows | apply State.ledWrite_follows
    | apply State.halt_follows | apply State.fillWeights_follows | apply Keeps.next | apply Keeps.ite
    | apply Follows.foldl | split

theorem execLedgerHalt_follows {c : Nat} {s0 : State} (hs : Follows origin s0) :
    Keeps origin (execLedgerHalt c s0) := by
  unfold execLedgerHalt
  repeat' with_reducible first
    | assumption | intro _ | apply State.halt_follows | apply State.ledRefuse_follows | apply Keeps.next
    | apply Keeps.ite | refine Follows.upd (Follows.upd (by assumption) rfl) rfl

theorem execClearStrikes_follows {c : Nat} {s : State} (hs : Follows origin s) :
    Keeps origin (execClearStrikes c s) := by
  unfold execClearStrikes
  repeat' with_reducible first
    | assumption | exact Follows.upd (by assumption) rfl | apply State.modLed_follows | apply Keeps.next

theorem execLedgerEnableWrite_follows {value : Nat} {s : State} (hs : Follows origin s) :
    Keeps origin (execLedgerEnableWrite value s) := by
  unfold execLedgerEnableWrite
  repeat' with_reducible first
    | assumption | intro _ | exact Follows.upd (by assumption) rfl | apply State.modRun_follows
    | refine Follows.upd (State.modLed_follows ?_) rfl | apply State.ledRefuse_follows | apply Keeps.next
    | apply Keeps.ite | apply Follows.ite

end Sys2Proof.Machine
end

