-- ==== Sys2Proof/Laws/FollowsCheckpoint.lean ====
section
/-! SUPPORT. Every operation of Machine/Checkpoint.lean takes a state that follows a sound one to one that does (Laws/Follows.lean). -/

namespace Sys2Proof.Machine

variable {origin : State}

theorem State.ckptRefuse_follows {s : State} (hs : Follows origin s) :
    Follows origin (State.ckptRefuse s) := by
  unfold State.ckptRefuse
  repeat' with_reducible first | assumption | exact Follows.upd (by assumption) rfl

theorem execCkptTake_follows {c : Nat} {s0 : State} (hs : Follows origin s0) :
    Keeps origin (execCkptTake c s0) := by
  unfold execCkptTake
  repeat' with_reducible first
    | assumption | intro _ | apply State.modCkpt_follows | apply State.ckptRefuse_follows | apply Keeps.next
    | apply Keeps.ite | refine Follows.upd (Follows.upd (by assumption) rfl) rfl

theorem execCkptTimerExpire_follows {c : Nat} {at_ : Nat} {s0 : State} (hs : Follows origin s0) :
    Keeps origin (execCkptTimerExpire c at_ s0) := by
  unfold execCkptTimerExpire
  repeat' with_reducible first
    | assumption | intro _ | apply State.atClk_follows | apply State.modCkpt_follows | apply Keeps.next
    | apply Keeps.ite

theorem State.heldGranule_follows {s : State} {c : Nat} {o : Nat} (hs : Follows origin s) :
    Follows origin (State.heldGranule s c o).2.2 := by
  unfold State.heldGranule
  repeat' with_reducible first | assumption | apply State.ledRead_follows | split

theorem State.heldGranule_follows_eq {s : State} {c : Nat} {o : Nat} {y0 : Nat} {y1 : List Byte} {t_ : State} (hs : Follows origin s) (he : State.heldGranule s c o = (y0, y1, t_)) :
    Follows origin t_ := by
  have k : Follows origin (State.heldGranule s c o).2.2 := State.heldGranule_follows hs
  rw [he] at k
  exact k

theorem State.unitBytes_follows {s : State} {c : Nat} {u : Nat} (hs : Follows origin s) :
    Follows origin (State.unitBytes s c u).2.2 := by
  unfold State.unitBytes
  repeat' with_reducible first
    | assumption | intro _ | apply State.heldGranule_follows | apply Follows.foldl_trd | split

theorem State.unitBytes_follows_eq {s : State} {c : Nat} {u : Nat} {y0 : Nat} {y1 : List Byte} {t_ : State} (hs : Follows origin s) (he : State.unitBytes s c u = (y0, y1, t_)) :
    Follows origin t_ := by
  have k : Follows origin (State.unitBytes s c u).2.2 := State.unitBytes_follows hs
  rw [he] at k
  exact k

theorem State.sendUnit1_follows {s : State} {c : Nat} (hs : Follows origin s) :
    Follows origin (State.sendUnit1 s c) := by
  unfold State.sendUnit1
  repeat' with_reducible first
    | assumption | intro _ | apply State.send_follows | apply State.modCkpt_follows | apply State.ckptEnd_follows
    | apply State.modQp_follows | apply State.unitBytes_follows | apply Follows.ite | split

theorem State.pumpDrain_follows {s : State} {c : Nat} (hs : Follows origin s) :
    Follows origin (State.pumpDrain s c) := by
  unfold State.pumpDrain
  repeat' with_reducible first | assumption | intro _ | apply State.sendUnit1_follows | apply Follows.foldl

theorem execCkptDrainStart_follows {c : Nat} {at_ : Nat} {s0 : State} (hs : Follows origin s0) :
    Keeps origin (execCkptDrainStart c at_ s0) := by
  unfold execCkptDrainStart
  repeat' with_reducible first
    | assumption | intro _ | apply State.atClk_follows | apply State.send_follows | apply State.modCkpt_follows
    | apply State.ckptEnd_follows | apply State.pumpDrain_follows | apply Keeps.next | apply Keeps.ite

theorem State.ckptComplete_follows {s : State} {c : Nat} (hs : Follows origin s) :
    Follows origin (State.ckptComplete s c) := by
  unfold State.ckptComplete
  repeat' with_reducible first | assumption | apply State.modCkpt_follows

theorem State.completionDown_follows {s : State} {c : Nat} {step : Nat} (hs : Follows origin s) :
    Follows origin (State.completionDown s c step) := by
  unfold State.completionDown
  repeat' with_reducible first | assumption | intro _ | apply State.treeMsg_follows | apply Follows.foldl

theorem State.digestUp_follows {s : State} {c : Nat} (hs : Follows origin s) :
    Follows origin (State.digestUp s c) := by
  unfold State.digestUp
  repeat' with_reducible first
    | assumption | intro _ | apply State.send_follows | apply State.treeMsg_follows | apply State.ckptComplete_follows
    | apply State.completionDown_follows | apply Follows.ite

theorem State.seal_follows {s : State} {c : Nat} (hs : Follows origin s) :
    Follows origin (State.seal s c) := by
  unfold State.seal
  repeat' with_reducible first
    | assumption | apply State.send_follows | apply State.modCkpt_follows | apply State.digestUp_follows

theorem execCkptUnitAccept_follows {c : Nat} {u : Nat} {at_ : Nat} {s0 : State} (hs : Follows origin s0) :
    Keeps origin (execCkptUnitAccept c u at_ s0) := by
  unfold execCkptUnitAccept
  repeat' with_reducible first
    | assumption | intro _ | apply State.atClk_follows | apply State.modCkpt_follows | apply State.qpHeard_follows
    | apply State.pumpDrain_follows | apply State.seal_follows | apply Keeps.next | apply Keeps.ite | apply Follows.ite

theorem execCkptDigestTreeReceive_follows {c : Nat} {from_ : Nat} {digest : List Byte} {s : State} (hs : Follows origin s) :
    Keeps origin (execCkptDigestTreeReceive c from_ digest s) := by
  unfold execCkptDigestTreeReceive
  repeat' with_reducible first
    | assumption | intro _ | apply State.modCkpt_follows | apply State.digestUp_follows | apply Keeps.next
    | apply Keeps.ite

theorem execCkptCompletionReceive_follows {c : Nat} {step : Nat} {s : State} (hs : Follows origin s) :
    Keeps origin (execCkptCompletionReceive c step s) := by
  unfold execCkptCompletionReceive
  repeat' with_reducible first
    | assumption | intro _ | apply State.ckptComplete_follows | apply State.completionDown_follows | apply Keeps.next
    | apply Keeps.ite

theorem execCkptAbort_follows {c : Nat} {s0 : State} (hs : Follows origin s0) :
    Keeps origin (execCkptAbort c s0) := by
  unfold execCkptAbort
  repeat' with_reducible first
    | assumption | intro _ | exact Follows.upd (by assumption) rfl | apply State.ckptEnd_follows | apply Keeps.next
    | apply Follows.ite

theorem State.restoreEnd_follows {s : State} {c : Nat} {status : Nat} {port : Nat} (hs : Follows origin s) :
    Follows origin (State.restoreEnd s c status port) := by
  unfold State.restoreEnd
  repeat' with_reducible first
    | assumption | intro _ | apply State.report_follows | refine Follows.upd (State.modCkpt_follows ?_) rfl
    | apply Follows.ite

theorem execCkptRestore_follows {c : Nat} {slot : Nat} {port : Nat} {manifest : List Byte} {data : List Byte} {s0 : State} (hs : Follows origin s0) :
    Keeps origin (execCkptRestore c slot port manifest data s0) := by
  unfold execCkptRestore
  repeat' with_reducible first
    | assumption | intro _ | exact Follows.upd (by assumption) rfl | apply State.send_follows
    | apply State.modLed_follows | apply State.modCkpt_follows | apply State.rangeState_follows
    | apply State.ledWrite_follows | apply State.settled_follows | apply State.ckptRefuse_follows
    | apply State.restoreEnd_follows | apply Keeps.next | apply Keeps.ite | apply Follows.ite

end Sys2Proof.Machine
end

