-- ==== Sys2Proof/Laws/FollowsLoader.lean ====
section
/-! SUPPORT. Every operation of Machine/Loader.lean takes a state that follows a sound one to one that does (Laws/Follows.lean). -/

namespace Sys2Proof.Machine

variable {origin : State}

theorem State.loadReject_follows {s : State} {c : Nat} {reason : Nat} {fetch : Nat} (hs : Follows origin s) :
    Follows origin (State.loadReject s c reason fetch) := by
  unfold State.loadReject
  repeat' with_reducible first | assumption | apply State.modLoad_follows | apply State.report_follows

theorem State.rejectLoad_follows {s : State} {c : Nat} {reason : Nat} {sect : Nat} {index : Nat} {fetch : Nat} (hs : Follows origin s) :
    Follows origin (State.rejectLoad s c reason sect index fetch) := by
  unfold State.rejectLoad
  repeat' with_reducible first | assumption | apply State.endLoad_follows

theorem execLoadGo_follows {src q c at_ : Nat} {s0 : State} (hs : Follows origin s0) : Keeps origin (execLoadGo src q c at_ s0) := by
  unfold execLoadGo
  extract_lets t ld s l s1 deny s2
  have h : Follows origin s := Follows.upd (State.atClk_follows (at_ := at_) hs) rfl
  have h1 : Follows origin s1 := State.modLoad_follows (Follows.upd h rfl)
  have h2 : Follows origin s2 := State.rejectLoad_follows h1
  exact Keeps.ite (fun _ => Keeps.next (State.loadReject_follows h)) fun _ =>
    Keeps.ite (fun _ => Keeps.next (State.endLoad_follows h1)) fun _ =>
    Keeps.ite (fun _ => Keeps.next (State.rejectLoad_follows h1)) fun _ =>
    Keeps.ite (fun _ => Keeps.next (Follows.ite (fun _ => State.report_follows (State.modFn_follows h2)) fun _ => h2)) fun _ =>
    Keeps.next (State.pumpPorts_follows h1)

theorem State.placeNew_follows {s : State} {c : Nat} {old : Nat} {b : List Byte} (hs : Follows origin s) :
    Follows origin (State.placeNew s c old b) := by
  unfold State.placeNew
  repeat' with_reducible first
    | assumption | intro _ | apply State.writeRange_follows | apply Follows.ite | apply Follows.foldl

theorem State.loadArrive_follows {s : State} {off : Nat} {len : Nat} {bs : List Byte} (hs : Follows origin s) :
    Follows origin (State.loadArrive s off len bs) := by
  unfold State.loadArrive
  repeat' with_reducible first
    | assumption | intro _ | exact Follows.upd (by assumption) rfl | apply State.modLoad_follows
    | apply State.pumpPorts_follows | apply State.rejectLoad_follows | apply State.placeNew_follows | apply Follows.ite
    | split

theorem State.freeTagId_follows {s : State} {id : Nat} (hs : Follows origin s) :
    Follows origin (State.freeTagId s id) := by
  unfold State.freeTagId
  repeat' with_reducible first
    | assumption | exact Follows.upd (by assumption) rfl | refine Follows.upd (State.modCtl_follows ?_) rfl | split

theorem State.loadAnswer_follows {s : State} {t : PortTag} {status : Nat} {bs : List Byte} (hs : Follows origin s) :
    Follows origin (State.loadAnswer s t status bs) := by
  unfold State.loadAnswer
  repeat' with_reducible first
    | assumption | intro _ | apply State.pumpPorts_follows | apply State.rejectLoad_follows
    | apply State.loadArrive_follows | apply State.freeTagId_follows | apply Follows.ite | split

theorem execLoadFetchData_follows {tag : Nat} {status : Nat} {at_ : Nat} {bs : List Byte} {s0 : State} (hs : Follows origin s0) :
    Keeps origin (execLoadFetchData tag status at_ bs s0) := by
  unfold execLoadFetchData
  repeat' with_reducible first
    | assumption | apply State.atClk_follows | apply State.loadAnswer_follows | apply Keeps.next | split
    | (extract_lets)

theorem State.installPacks_follows {s : State} {c : Nat} {gs : List (Nat × Nat × Nat)} (hs : Follows origin s) :
    Follows origin (State.installPacks s c gs).1 := by
  unfold State.installPacks
  repeat' with_reducible first | assumption | intro _ | exact Follows.upd (by assumption) rfl | apply Follows.foldl

theorem State.installPacks_follows_eq {s : State} {c : Nat} {gs : List (Nat × Nat × Nat)} {t_ : State} {y1 : List Nat} (hs : Follows origin s) (he : State.installPacks s c gs = (t_, y1)) :
    Follows origin t_ := by
  have k : Follows origin (State.installPacks s c gs).1 := State.installPacks_follows hs
  rw [he] at k
  exact k

theorem State.removePacks_follows {s : State} {c : Nat} (hs : Follows origin s) :
    Follows origin (State.removePacks s c) := by
  unfold State.removePacks
  repeat' with_reducible first | assumption | exact Follows.upd (by assumption) rfl

theorem State.defineZero_follows {s : State} {c : Nat} {im : Image} (hs : Follows origin s) :
    Follows origin (State.defineZero s c im) := by
  unfold State.defineZero
  repeat' with_reducible first
    | assumption | intro _ | apply State.rangeState_follows | apply State.zeroCmBufs_follows | apply Follows.ite
    | apply Follows.foldl

theorem State.copyInit_follows {s : State} {c : Nat} {im : Image} (hs : Follows origin s) :
    Follows origin (State.copyInit s c im) := by
  unfold State.copyInit
  repeat' with_reducible first | assumption | intro _ | apply State.writeRange_follows | apply Follows.foldl

theorem State.mint_follows {s : State} {c : Nat} {im : Image} (hs : Follows origin s) :
    Follows origin (State.mint s c im) := by
  unfold State.mint
  repeat' with_reducible first
    | assumption | intro _ | apply State.modCens_follows | apply State.reseed_follows | apply Follows.foldl | split

theorem State.clearAtLoad_follows {s : State} {c : Nat} {im : Image} (hs : Follows origin s) :
    Follows origin (State.clearAtLoad s c im) := by
  unfold State.clearAtLoad
  repeat' with_reducible first
    | assumption | apply State.modRun_follows | apply State.modArith_follows
    | refine Follows.upd (State.modMemCtx_follows ?_) rfl

theorem State.commitLoad_follows {s : State} {c : Nat} {im : Image} (hs : Follows origin s) :
    Follows origin (State.commitLoad s c im) := by
  unfold State.commitLoad
  extract_lets dg s0 s1 p s2 s3
  have h1 : Follows origin s1 := State.copyInit_follows (State.defineZero_follows (State.modLoad_follows hs))
  have h2 : Follows origin s2 := State.modLoad_follows (State.installPacks_follows h1)
  have h3 : Follows origin s3 := State.mint_follows (State.clearAtLoad_follows h2)
  exact Follows.upd (State.modLoad_follows h3) rfl

theorem execLoadCheck_follows {at_ : Nat} {s0 : State} (hs : Follows origin s0) :
    Keeps origin (execLoadCheck at_ s0) := by
  unfold execLoadCheck
  repeat' with_reducible first
    | assumption | apply State.atClk_follows | apply State.rejectLoad_follows | apply State.commitLoad_follows
    | apply Keeps.next | split | (extract_lets)

theorem execLoadAbort_follows {c : Nat} {at_ : Nat} {s0 : State} (hs : Follows origin s0) :
    Keeps origin (execLoadAbort c at_ s0) := by
  unfold execLoadAbort
  repeat' with_reducible first
    | assumption | intro _ | refine Follows.upd (State.atClk_follows ?_) rfl | apply State.modLoad_follows
    | apply State.endLoad_follows | apply Keeps.next | apply Keeps.ite

theorem State.burn_follows {s : State} {c : Nat} (hs : Follows origin s) :
    Follows origin (State.burn s c) := by
  unfold State.burn
  repeat' with_reducible first
    | assumption | intro _ | apply State.modCtl_follows | apply State.emptySync_follows | apply Follows.ite
    | apply Follows.foldl

theorem State.doUnload_follows {s : State} {c : Nat} (hs : Follows origin s) : Follows origin (State.doUnload s c) := by
  unfold State.doUnload
  extract_lets was s1 s2 s3
  have h1 : Follows origin s1 :=
    State.removePacks_follows (State.burn_follows (State.takeCensus_follows (State.finalFlag_follows hs)))
  have h2 : Follows origin s2 := State.modLoad_follows (State.cleanLoad_follows h1)
  have h3 : Follows origin s3 := State.modRun_follows (State.modStart_follows h2)
  exact Follows.upd h3 rfl

theorem execUnload_follows {c : Nat} {at_ : Nat} {s0 : State} (hs : Follows origin s0) :
    Keeps origin (execUnload c at_ s0) := by
  unfold execUnload
  repeat' with_reducible first
    | assumption | intro _ | refine Follows.upd (State.atClk_follows ?_) rfl | apply State.modRun_follows
    | apply State.modLoad_follows | apply State.endLoad_follows | apply State.loadReject_follows
    | apply State.doUnload_follows | apply Keeps.next | apply Keeps.ite

theorem execDeferredUnload_follows {c : Nat} {at_ : Nat} {s0 : State} (hs : Follows origin s0) :
    Keeps origin (execDeferredUnload c at_ s0) := by
  unfold execDeferredUnload
  repeat' with_reducible first
    | assumption | intro _ | apply State.atClk_follows | apply State.doUnload_follows | apply Keeps.next
    | apply Keeps.ite

theorem State.refit_follows {s : State} {up : List Bool} (hs : Follows origin s) :
    Follows origin (State.refit s up) := by
  unfold State.refit
  repeat' with_reducible first
    | assumption | intro _ | apply State.report_follows | apply Follows.ite | apply Follows.foldl

theorem execWeltLinkDown_follows {l : Nat} {s : State} (hs : Follows origin s) :
    Keeps origin (execWeltLinkDown l s) := by
  unfold execWeltLinkDown
  repeat' with_reducible first
    | assumption | intro _ | exact Follows.upd (by assumption) rfl | apply State.report_follows
    | apply State.refit_follows | apply Keeps.next | apply Keeps.ite

theorem execWeltLinkRestored_follows {l : Nat} {s : State} (hs : Follows origin s) :
    Keeps origin (execWeltLinkRestored l s) := by
  unfold execWeltLinkRestored
  repeat' with_reducible first
    | assumption | intro _ | exact Follows.upd (by assumption) rfl | apply State.refit_follows | apply Keeps.next
    | apply Keeps.ite

theorem State.weltEdge_follows {s : State} (hs : Follows origin s) :
    Follows origin (State.weltEdge s) := by
  unfold State.weltEdge
  repeat' with_reducible first
    | assumption | intro _ | exact Follows.upd (by assumption) rfl | apply State.portFailed_follows
    | apply State.fence_follows | apply Follows.ite | apply Follows.foldl

end Sys2Proof.Machine
end

