-- ==== Sys2Proof/Laws/FollowsThermal.lean ====
section
/-! SUPPORT. Every operation of Machine/Thermal.lean takes a state that follows a sound one to one that does (Laws/Follows.lean). -/

namespace Sys2Proof.Machine

variable {origin : State}

theorem execRailPoll_follows {reads : List (Nat × Nat × Nat)} {at_ : Nat} {s0 : State} (hs : Follows origin s0) :
    Keeps origin (execRailPoll reads at_ s0) := by
  unfold execRailPoll
  repeat' with_reducible first
    | assumption | intro _ | refine Follows.upd (State.atClk_follows ?_) rfl | apply State.report_follows
    | apply Keeps.next | apply Follows.ite

theorem State.throttle_follows {s : State} (hs : Follows origin s) :
    Follows origin (State.throttle s) := by
  unfold State.throttle
  repeat' with_reducible first | assumption | intro _ | exact Follows.upd (by assumption) rfl | apply Follows.ite

theorem execThermalThrottle_follows {temps : List Int} {s : State} (hs : Follows origin s) :
    Keeps origin (execThermalThrottle temps s) := by
  unfold execThermalThrottle
  repeat' with_reducible first
    | assumption | exact Follows.upd (by assumption) rfl | apply State.throttle_follows | apply Keeps.next

theorem State.throttleEdge_follows {s : State} (hs : Follows origin s) :
    Follows origin (State.throttleEdge s) := by
  unfold State.throttleEdge
  repeat' with_reducible first
    | assumption | exact Follows.upd (by assumption) rfl | refine Follows.upd (State.throttle_follows ?_) rfl

theorem execThermalTrip_follows {temps : List Int} {at_ : Nat} {s0 : State} (hs : Follows origin s0) :
    Keeps origin (execThermalTrip temps at_ s0) := by
  unfold execThermalTrip
  repeat' with_reducible first
    | assumption | intro _ | apply State.atClk_follows | refine Follows.upd (State.brownOut_follows ?_) rfl
    | apply Keeps.next | apply Keeps.ite

theorem execTripRecovery_follows {temps : List Int} {at_ : Nat} {s0 : State} (hs : Follows origin s0) :
    Keeps origin (execTripRecovery temps at_ s0) := by
  unfold execTripRecovery
  repeat' with_reducible first
    | assumption | intro _ | refine Follows.upd (State.atClk_follows ?_) rfl | apply State.release_follows
    | apply Keeps.next | apply Keeps.ite

theorem execSidebandRecovery_follows {bus : Nat} {freed : Bool} {at_ : Nat} {s0 : State} (hs : Follows origin s0) :
    Keeps origin (execSidebandRecovery bus freed at_ s0) := by
  unfold execSidebandRecovery
  repeat' with_reducible first
    | assumption | intro _ | refine Follows.upd (State.atClk_follows ?_) rfl | apply State.report_follows
    | apply Keeps.next | apply Keeps.ite

theorem execSidebandRetry_follows {bus : Nat} {freed : Bool} {at_ : Nat} {s0 : State} (hs : Follows origin s0) :
    Keeps origin (execSidebandRetry bus freed at_ s0) := by
  unfold execSidebandRetry
  repeat' with_reducible first
    | assumption | intro _ | refine Follows.upd (State.atClk_follows ?_) rfl | apply State.report_follows
    | apply Keeps.next | apply Keeps.ite

theorem execI3cIbi_follows {s : State} (hs : Follows origin s) :
    Keeps origin (execI3cIbi s) := by
  unfold execI3cIbi
  repeat' with_reducible first | assumption | apply State.report_follows | apply Keeps.next

theorem State.sampleFaultN_follows {s : State} {ext : Bool} (hs : Follows origin s) :
    Follows origin (State.sampleFaultN s ext) := by
  unfold State.sampleFaultN
  repeat' with_reducible first
    | assumption | intro _ | apply State.report_follows | apply Follows.ite
    | refine Follows.upd (Follows.upd (by assumption) rfl) rfl

end Sys2Proof.Machine
end

