-- ==== Sys2Proof/Laws/FollowsUpdate.lean ====
section
/-! SUPPORT. Every operation of Machine/Update.lean takes a state that follows a sound one to one that does (Laws/Follows.lean). -/

namespace Sys2Proof.Machine

variable {origin : State}

theorem State.modUpd_follows {s : State} {f : Upd → Upd} (hs : Follows origin s) :
    Follows origin (State.modUpd s f) := by
  unfold State.modUpd
  repeat' with_reducible first | assumption | exact Follows.upd (by assumption) rfl

theorem State.updEnd_follows {s : State} {status : Nat} (hs : Follows origin s) :
    Follows origin (State.updEnd s status) := by
  unfold State.updEnd
  repeat' with_reducible first | assumption | apply State.modUpd_follows

theorem State.flashPut_follows {s : State} {slot : Nat} {off : Nat} {bytes : List Byte} (hs : Follows origin s) :
    Follows origin (State.flashPut s slot off bytes) := by
  unfold State.flashPut
  repeat' with_reducible first | assumption | exact Follows.upd (by assumption) rfl

theorem State.setStage_follows {s : State} {slot : Nat} {stage : Nat} (hs : Follows origin s) :
    Follows origin (State.setStage s slot stage) := by
  unfold State.setStage
  repeat' with_reducible first | assumption | apply State.flashPut_follows

theorem execUpdBegin_follows {p : Path} {ok : Bool} {s : State} (hs : Follows origin s) :
    Keeps origin (execUpdBegin p ok s) := by
  unfold execUpdBegin
  repeat' with_reducible first
    | assumption | intro _ | apply State.modUpd_follows | apply State.updEnd_follows | apply State.flashPut_follows
    | apply Keeps.next | apply Keeps.ite

theorem State.programRecord_follows {s : State} (hs : Follows origin s) :
    Follows origin (State.programRecord s) := by
  unfold State.programRecord
  repeat' with_reducible first
    | assumption | apply State.modUpd_follows | apply State.flashPut_follows | apply State.setStage_follows

theorem State.chunk_follows {s : State} {p : Path} {off : Nat} {data : List Byte} {ok : Bool} (hs : Follows origin s) :
    Follows origin (State.chunk s p off data ok).2 := by
  unfold State.chunk
  repeat' with_reducible first
    | assumption | intro _ | apply State.modUpd_follows | apply State.updEnd_follows | apply State.flashPut_follows
    | apply State.programRecord_follows | apply Follows.ite | split | (extract_lets)

theorem State.chunk_follows_eq {s : State} {p : Path} {off : Nat} {data : List Byte} {ok : Bool} {y0 : Nat} {t_ : State} (hs : Follows origin s) (he : State.chunk s p off data ok = (y0, t_)) :
    Follows origin t_ := by
  have k : Follows origin (State.chunk s p off data ok).2 := State.chunk_follows hs
  rw [he] at k
  exact k

theorem execUpdVerify_follows {p : Path} {bad : List Nat} {ok : Bool} {s : State} (hs : Follows origin s) :
    Keeps origin (execUpdVerify p bad ok s) := by
  unfold execUpdVerify
  repeat' with_reducible first
    | assumption | intro _ | apply State.modUpd_follows | apply State.updEnd_follows | apply State.setStage_follows
    | apply Keeps.next | apply Keeps.ite

theorem execUpdActivate_follows {p : Path} {live : Bool} {ok : Bool} {at_ : Nat} {s0 : State} (hs : Follows origin s0) :
    Keeps origin (execUpdActivate p live ok at_ s0) := by
  unfold execUpdActivate
  repeat' with_reducible first
    | assumption | intro _ | apply State.atClk_follows | apply State.powerCycle_follows
    | refine Follows.upd (State.modUpd_follows ?_) rfl | refine Follows.upd (State.setStage_follows ?_) rfl
    | apply Keeps.next | apply Keeps.ite

theorem State.microEdge_follows {s : State} (hs : Follows origin s) :
    Follows origin (State.microEdge s) := by
  unfold State.microEdge
  repeat' with_reducible first | assumption | apply State.modUpd_follows

theorem State.switchPart_follows {s : State} {i : Nat} {now : Nat} {new : List Nat} (hs : Follows origin s) :
    Follows origin (State.switchPart s i now new) := by
  unfold State.switchPart
  repeat' with_reducible first | assumption | exact Follows.upd (by assumption) rfl

theorem State.liveSwitch_follows {s0 : State} {bad : Bool} (hs : Follows origin s0) : Follows origin (State.liveSwitch s0 bad) := by
  unfold State.liveSwitch
  split
  · exact hs
  · extract_lets s late s1
    have h : Follows origin s := Follows.ite (fun _ => State.microEdge_follows hs) fun _ => hs
    have h1 : Follows origin s1 := State.switchPart_follows h
    exact Follows.ite (fun _ => State.report_follows (State.modUpd_follows (State.updEnd_follows h))) fun _ =>
      Follows.ite (fun _ => h) fun _ => Follows.ite (fun _ => h1) fun _ => Follows.upd h1 rfl

theorem State.liveRevert_follows {s0 : State} (hs : Follows origin s0) :
    Follows origin (State.liveRevert s0) := by
  unfold State.liveRevert
  repeat' with_reducible first
    | assumption | intro _ | refine Follows.upd (State.setStage_follows ?_) rfl | apply State.microEdge_follows
    | apply State.switchPart_follows | apply Follows.ite | split

theorem State.updEdge_follows {s : State} {bad : Bool} (hs : Follows origin s) :
    Follows origin (State.updEdge s bad) := by
  unfold State.updEdge
  repeat' with_reducible first
    | assumption | intro _ | apply State.liveSwitch_follows | apply State.liveRevert_follows | apply Follows.ite

theorem execUpdConfirm_follows {p : Path} {ok : Bool} {s : State} (hs : Follows origin s) :
    Keeps origin (execUpdConfirm p ok s) := by
  unfold execUpdConfirm
  repeat' with_reducible first
    | assumption | intro _ | refine Follows.upd (State.updEnd_follows ?_) rfl | apply State.setStage_follows
    | apply Keeps.next | apply Keeps.ite

theorem State.revert_follows {s : State} (hs : Follows origin s) :
    Follows origin (State.revert s) := by
  unfold State.revert
  repeat' with_reducible first
    | assumption | intro _ | apply State.powerCycle_follows | apply State.modUpd_follows | apply State.setStage_follows
    | apply Follows.ite

theorem execUpdRevert_follows {p : Path} {ok : Bool} {at_ : Nat} {s0 : State} (hs : Follows origin s0) :
    Keeps origin (execUpdRevert p ok at_ s0) := by
  unfold execUpdRevert
  repeat' with_reducible first
    | assumption | intro _ | apply State.atClk_follows | apply State.updEnd_follows | apply State.revert_follows
    | apply Keeps.next | apply Keeps.ite

theorem execTrialTimerExpire_follows {at_ : Nat} {s0 : State} (hs : Follows origin s0) :
    Keeps origin (execTrialTimerExpire at_ s0) := by
  unfold execTrialTimerExpire
  repeat' with_reducible first
    | assumption | apply State.atClk_follows | apply State.report_follows | apply State.updEnd_follows
    | apply State.revert_follows | apply Keeps.next | split | (extract_lets)

theorem execUpdAbort_follows {p : Path} {s : State} (hs : Follows origin s) :
    Keeps origin (execUpdAbort p s) := by
  unfold execUpdAbort
  repeat' with_reducible first
    | assumption | intro _ | apply State.modUpd_follows | apply State.updEnd_follows | apply State.flashPut_follows
    | apply Keeps.next | apply Keeps.ite

theorem execUsbEp1Chunk_follows {off : Nat} {len : Nat} {data : List Byte} {ok : Bool} {s : State} (hs : Follows origin s) :
    Keeps origin (execUsbEp1Chunk off len data ok s) := by
  unfold execUsbEp1Chunk
  repeat' with_reducible first | assumption | intro _ | apply State.chunk_follows | apply Keeps.next | apply Keeps.ite

end Sys2Proof.Machine
end

