-- ==== Sys2Proof/Laws/FollowsMeter.lean ====
section
/-! SUPPORT. Every operation of Machine/Meter.lean takes a state that follows a sound one to one that does (Laws/Follows.lean). -/

namespace Sys2Proof.Machine

variable {origin : State}

theorem State.dropRequest_follows {s : State} (hs : Follows origin s) :
    Follows origin (State.dropRequest s) := by
  unfold State.dropRequest
  repeat' with_reducible first | assumption | exact Follows.upd (by assumption) rfl

theorem State.request.run_follows {s : State} {peer seq : Nat} {act : State → List Byte × State} (hs : Follows origin s)
    (ha : ∀ t, Follows origin t → Follows origin (act t).2) : Follows origin (State.request.run s peer seq act) := by
  unfold State.request.run
  exact State.send_follows (Follows.upd (ha _ hs) rfl)

theorem State.request_follows {s : State} {peer seq : Nat} {headerOk : Bool} {act : State → List Byte × State} (hs : Follows origin s)
    (ha : ∀ t, Follows origin t → Follows origin (act t).2) : Follows origin (State.request s peer seq headerOk act) := by
  unfold State.request
  refine Follows.ite (fun _ => hs) fun _ => Follows.ite (fun _ => State.dropRequest_follows hs) fun _ => ?_
  split
  · exact Follows.ite (fun _ => State.send_follows hs) fun _ => State.request.run_follows hs ha
  · exact State.request.run_follows hs ha

theorem State.modMeter_follows {s : State} {f : Meter → Meter} (hs : Follows origin s) :
    Follows origin (State.modMeter s f) := by
  unfold State.modMeter
  repeat' with_reducible first | assumption | exact Follows.upd (by assumption) rfl

theorem State.atMs_follows {s : State} {ms : Nat} (hs : Follows origin s) :
    Follows origin (State.atMs s ms) := by
  unfold State.atMs
  repeat' with_reducible first | assumption | apply State.modMeter_follows

theorem State.meterRaise_follows {s : State} {severity : Nat} {status : Nat} (hs : Follows origin s) :
    Follows origin (State.meterRaise s severity status) := by
  unfold State.meterRaise
  repeat' with_reducible first | assumption | apply State.report_follows | apply State.modMeter_follows

theorem execMeterHeartbeatSend_follows {at_ : Nat} {s0 : State} (hs : Follows origin s0) :
    Keeps origin (execMeterHeartbeatSend at_ s0) := by
  unfold execMeterHeartbeatSend
  repeat' with_reducible first
    | assumption | intro _ | refine Follows.upd (State.atClk_follows ?_) rfl | apply Keeps.next | apply Keeps.ite

theorem execMeterHeartbeatTimeout_follows {at_ : Nat} {s0 : State} (hs : Follows origin s0) :
    Keeps origin (execMeterHeartbeatTimeout at_ s0) := by
  unfold execMeterHeartbeatTimeout
  repeat' with_reducible first
    | assumption | intro _ | refine Follows.upd (State.atClk_follows ?_) rfl | apply State.report_follows
    | apply Keeps.next | apply Keeps.ite

theorem State.closeFrame_follows {s : State} {ended : Nat} (hs : Follows origin s) :
    Follows origin (State.closeFrame s ended) := by
  unfold State.closeFrame
  repeat' with_reducible first | assumption | exact Follows.upd (by assumption) rfl

theorem State.record_follows {s : State} {typ : Nat} {ctx : Nat} {f48 : Nat} {f56 : Nat} {body : List Byte} {job : Nat} {ev : Nat} (hs : Follows origin s) :
    Follows origin (State.record s typ ctx f48 f56 body job ev) := by
  unfold State.record
  repeat' with_reducible first
    | assumption | intro _ | exact Follows.upd (by assumption) rfl | apply State.modMeter_follows
    | apply State.meterRaise_follows | apply Follows.ite

theorem State.eventRecord_follows {s : State} (hs : Follows origin s) :
    Follows origin (State.eventRecord s) := by
  unfold State.eventRecord
  repeat' with_reducible first | assumption | apply State.free_follows | apply State.freeStatus_follows | apply State.record_follows

theorem State.ctxRecord_follows {s : State} {c : Nat} {job : Nat} (hs : Follows origin s) :
    Follows origin (State.ctxRecord s c job) := by
  unfold State.ctxRecord
  repeat' with_reducible first | assumption | apply State.record_follows

theorem State.devRecord_follows {s : State} (hs : Follows origin s) :
    Follows origin (State.devRecord s) := by
  unfold State.devRecord
  repeat' with_reducible first | assumption | apply State.record_follows

theorem State.mend_follows {s : State} {c : Nat} (hs : Follows origin s) :
    Follows origin (State.mend s c) := by
  unfold State.mend
  repeat' with_reducible first
    | assumption | intro _ | apply State.modMeter_follows | apply State.meterRaise_follows | apply State.record_follows
    | apply Follows.ite

theorem State.mendDev_follows {s : State} (hs : Follows origin s) :
    Follows origin (State.mendDev s) := by
  unfold State.mendDev
  repeat' with_reducible first
    | assumption | intro _ | apply State.modMeter_follows | apply State.meterRaise_follows | apply State.record_follows
    | apply Follows.ite

theorem State.charge_follows {s0 : State} {c : Nat} {d : Nat} {sh : Nat} (hs : Follows origin s0) :
    Follows origin (State.charge s0 c d sh) := by
  unfold State.charge
  repeat' with_reducible first | assumption | apply State.modMeter_follows | apply State.mend_follows

theorem State.chargeDev_follows {s0 : State} {ballast : Nat} {unattr : Nat} (hs : Follows origin s0) :
    Follows origin (State.chargeDev s0 ballast unattr) := by
  unfold State.chargeDev
  repeat' with_reducible first | assumption | apply State.modMeter_follows | apply State.mendDev_follows

theorem State.chargeOps_follows {s0 : State} {c : Nat} {cls : Nat} {n : Nat} (hs : Follows origin s0) :
    Follows origin (State.chargeOps s0 c cls n) := by
  unfold State.chargeOps
  repeat' with_reducible first | assumption | apply State.modMeter_follows | apply State.mend_follows

theorem State.chargeTick_follows {s : State} {es : List Nat} {esh : Nat} {fr : AttrFrame} (hs : Follows origin s) :
    Follows origin (State.chargeTick s es esh fr) := by
  unfold State.chargeTick
  repeat' with_reducible first
    | assumption | intro _ | apply State.charge_follows | apply State.chargeDev_follows | apply State.chargeOps_follows
    | apply Follows.foldl

theorem State.oncePerS_follows {s : State} {last : Option Nat} {status : Nat} (hs : Follows origin s) :
    Follows origin (State.oncePerS s last status).2 := by
  unfold State.oncePerS
  repeat' with_reducible first | assumption | apply State.meterRaise_follows | split

theorem State.oncePerS_follows_eq {s : State} {last : Option Nat} {status : Nat} {y0 : Bool} {t_ : State} (hs : Follows origin s) (he : State.oncePerS s last status = (y0, t_)) :
    Follows origin t_ := by
  have k : Follows origin (State.oncePerS s last status).2 := State.oncePerS_follows hs
  rw [he] at k
  exact k

theorem State.tellBalance_follows {s : State} {bad : Bool} (hs : Follows origin s) :
    Follows origin (State.tellBalance s bad) := by
  unfold State.tellBalance
  repeat' with_reducible first
    | assumption | intro _ | apply State.modMeter_follows | apply State.oncePerS_follows | apply Follows.ite

theorem execAttributionFrame_follows {tick : Nat} {tickN : Nat} {f : List Nat} {s : State} (hs : Follows origin s) :
    Keeps origin (execAttributionFrame tick tickN f s) := by
  unfold execAttributionFrame
  repeat' with_reducible first
    | assumption | intro _ | apply State.modMeter_follows | apply Keeps.next | apply Keeps.ite | split

theorem State.closeBy_follows {s : State} {es : List Nat} {esh : Nat} {fr : AttrFrame} (hs : Follows origin s) :
    Follows origin (State.closeBy s es esh fr) := by
  unfold State.closeBy
  repeat' with_reducible first
    | assumption | intro _ | apply State.modMeter_follows | apply State.ctxRecord_follows | apply State.chargeTick_follows
    | apply Follows.foldl

theorem State.closeLost_follows {s : State} {es : List Nat} {esh : Nat} (hs : Follows origin s) :
    Follows origin (State.closeLost s es esh) := by
  unfold State.closeLost
  repeat' with_reducible first
    | assumption | intro _ | apply State.modMeter_follows | apply State.chargeDev_follows | apply State.oncePerS_follows
    | apply Follows.ite

theorem execMeterTickClose_follows {es : List Nat} {ein : Nat} {own : Nat} {ms : Nat} {s0 : State} (hs : Follows origin s0) :
    Keeps origin (execMeterTickClose es ein own ms s0) := by
  unfold execMeterTickClose
  repeat' with_reducible first
    | assumption | intro _ | apply State.modMeter_follows | apply State.atMs_follows | apply State.closeBy_follows
    | apply State.closeLost_follows | apply State.tellBalance_follows | apply Keeps.next | apply Keeps.ite | split

theorem execMeterSelfPeriod_follows {es : List Nat} {ein : Nat} {own : Nat} {ms : Nat} {s0 : State} (hs : Follows origin s0) :
    Keeps origin (execMeterSelfPeriod es ein own ms s0) := by
  unfold execMeterSelfPeriod
  repeat' with_reducible first
    | assumption | intro _ | apply State.modMeter_follows | apply State.atMs_follows | apply State.chargeDev_follows
    | apply State.tellBalance_follows | apply Keeps.next | apply Keeps.ite

theorem State.loadCal_follows {s : State} (hs : Follows origin s) :
    Follows origin (State.loadCal s) := by
  unfold State.loadCal
  repeat' with_reducible first
    | assumption | intro _ | apply State.modMeter_follows | apply State.meterRaise_follows | apply Follows.ite
    | apply Follows.foldl

theorem State.takeSnap_follows {s : State} (hs : Follows origin s) :
    Follows origin (State.takeSnap s) := by
  unfold State.takeSnap
  repeat' with_reducible first
    | assumption | apply State.modMeter_follows | apply State.mend_follows | apply State.mendDev_follows
    | apply Follows.foldl

theorem execMeterSnapshot_follows {ok : Bool} {ms : Nat} {s0 : State} (hs : Follows origin s0) :
    Keeps origin (execMeterSnapshot ok ms s0) := by
  unfold execMeterSnapshot
  repeat' with_reducible first
    | assumption | intro _ | apply State.atMs_follows | apply State.meterRaise_follows | apply State.loadCal_follows
    | apply State.takeSnap_follows | apply Keeps.next | apply Keeps.ite

theorem State.endInterval_follows {s : State} (hs : Follows origin s) : Follows origin (State.endInterval s) := by
  unfold State.endInterval
  repeat' with_reducible first
    | assumption | intro _ | apply State.modMeter_follows | apply State.ctxRecord_follows | apply State.devRecord_follows
    | apply Follows.foldl

theorem execRecordIntervalEnd_follows {ms : Nat} {s0 : State} (hs : Follows origin s0) :
    Keeps origin (execRecordIntervalEnd ms s0) := by
  unfold execRecordIntervalEnd
  repeat' with_reducible first
    | assumption | intro _ | apply State.atMs_follows | apply State.endInterval_follows | apply Keeps.next | apply Keeps.ite

theorem State.meterRequest_follows {s : State} {peer seq op : Nat} {act : State → Nat × Nat × List Byte × State} (hs : Follows origin s)
    (ha : ∀ t, Follows origin t → Follows origin (act t).2.2.2) : Follows origin (State.meterRequest s peer seq op act) := by
  unfold State.meterRequest
  exact Follows.ite (fun _ => hs) fun _ => State.request_follows hs fun t ht => ha t ht

theorem execMeterFetch_follows {peer : Nat} {seq : Nat} {first : Nat} {count : Nat} {s : State} (hs : Follows origin s) :
    Keeps origin (execMeterFetch peer seq first count s) := by
  unfold execMeterFetch
  repeat' with_reducible first
    | assumption | intro _ | apply State.modMeter_follows | apply State.meterRequest_follows | apply Keeps.next | split

theorem execMeterNonce_follows {peer : Nat} {seq : Nat} {s : State} (hs : Follows origin s) :
    Keeps origin (execMeterNonce peer seq s) := by
  unfold execMeterNonce
  repeat' with_reducible first | assumption | intro _ | apply State.meterRequest_follows | apply Keeps.next

theorem execMeterInterval_follows {peer : Nat} {seq : Nat} {arg : Nat} {s : State} (hs : Follows origin s) :
    Keeps origin (execMeterInterval peer seq arg s) := by
  unfold execMeterInterval
  repeat' with_reducible first
    | assumption | intro _ | apply State.free_follows | apply State.freeStatus_follows | apply State.modMeter_follows | apply State.eventRecord_follows
    | apply State.meterRequest_follows | apply Keeps.next | split

theorem execMeterTimeMark_follows {peer : Nat} {seq : Nat} {utc : Nat} {s : State} (hs : Follows origin s) :
    Keeps origin (execMeterTimeMark peer seq utc s) := by
  unfold execMeterTimeMark
  repeat' with_reducible first
    | assumption | intro _ | apply State.record_follows | apply State.meterRequest_follows | apply Keeps.next

theorem State.spendNonce_follows {s : State} (hs : Follows origin s) :
    Follows origin (State.spendNonce s) := by
  unfold State.spendNonce
  repeat' with_reducible first | assumption | apply State.modMeter_follows

theorem execMeterBreak_follows {peer : Nat} {seq : Nat} {tok : List Byte} {s : State} (hs : Follows origin s) :
    Keeps origin (execMeterBreak peer seq tok s) := by
  unfold execMeterBreak
  repeat' with_reducible first
    | assumption | intro _ | apply State.modMeter_follows | apply State.meterRaise_follows
    | apply State.eventRecord_follows | apply State.meterRequest_follows | apply State.spendNonce_follows
    | apply Keeps.next | split

theorem execMeterRestore_follows {peer : Nat} {seq : Nat} {tok : List Byte} {s : State} (hs : Follows origin s) :
    Keeps origin (execMeterRestore peer seq tok s) := by
  unfold execMeterRestore
  repeat' with_reducible first
    | assumption | intro _ | apply State.modMeter_follows | apply State.meterRaise_follows
    | apply State.eventRecord_follows | apply State.meterRequest_follows | apply State.spendNonce_follows
    | apply Keeps.next | split | (extract_lets)

theorem execMeterCalibration_follows {peer : Nat} {seq : Nat} {ch : Nat} {constants : Nat} {s : State} (hs : Follows origin s) :
    Keeps origin (execMeterCalibration peer seq ch constants s) := by
  unfold execMeterCalibration
  repeat' with_reducible first
    | assumption | intro _ | apply State.modMeter_follows | apply State.eventRecord_follows
    | apply State.meterRequest_follows | apply Keeps.next | split

theorem execMeterFwChunk_follows {peer : Nat} {seq : Nat} {off : Nat} {data : List Byte} {s : State} (hs : Follows origin s) :
    Keeps origin (execMeterFwChunk peer seq off data s) := by
  unfold execMeterFwChunk
  repeat' with_reducible first
    | assumption | intro _ | apply State.free_follows | apply State.freeStatus_follows | apply State.modMeter_follows | apply State.meterRequest_follows
    | apply Keeps.next | split

theorem execVMtrFail_follows {ms : Nat} {s0 : State} (hs : Follows origin s0) :
    Keeps origin (execVMtrFail ms s0) := by
  unfold execVMtrFail
  repeat' with_reducible first
    | assumption | intro _ | apply State.modMeter_follows | apply State.atMs_follows | apply State.eventRecord_follows
    | apply State.takeSnap_follows | apply Keeps.next | apply Keeps.ite

theorem execVMtrReturn_follows {ms : Nat} {s0 : State} (hs : Follows origin s0) :
    Keeps origin (execVMtrReturn ms s0) := by
  unfold execVMtrReturn
  repeat' with_reducible first
    | assumption | intro _ | apply State.modMeter_follows | apply State.atMs_follows | apply State.meterRaise_follows
    | apply State.record_follows | apply State.loadCal_follows | apply Keeps.next | apply Keeps.ite

end Sys2Proof.Machine
end

