-- ==== Sys2Proof/Laws/FollowsHostSide.lean ====
section
/-! SUPPORT. Every operation of Machine/HostSide.lean takes a state that follows a sound one to one that does (Laws/Follows.lean). -/

namespace Sys2Proof.Machine

variable {origin : State}

theorem State.urgeAll_follows {s : State} {c : Nat} {addr : Nat} {n : Nat} (hs : Follows origin s) :
    Follows origin (State.urgeAll s c addr n) := by
  unfold State.urgeAll
  repeat' with_reducible first
    | assumption | intro _ | apply State.urge_follows | apply Follows.ite | apply Follows.foldl

theorem State.dropInbound_follows {s : State} {f : Nat} (hs : Follows origin s) :
    Follows origin (State.dropInbound s f) := by
  unfold State.dropInbound
  repeat' with_reducible first | assumption | apply State.modFn_follows

theorem State.tellOut_follows {s : State} {f : Nat} {c : Nat} (hs : Follows origin s) :
    Follows origin (State.tellOut s f c) := by
  unfold State.tellOut
  repeat' with_reducible first
    | assumption | intro _ | apply State.modFn_follows | apply State.report_follows | apply Follows.ite

theorem State.tellFenced_follows {s : State} {f : Nat} {c : Nat} {g : Nat} (hs : Follows origin s) :
    Follows origin (State.tellFenced s f c g) := by
  unfold State.tellFenced
  repeat' with_reducible first
    | assumption | intro _ | apply State.modFn_follows | apply State.report_follows | apply Follows.ite

theorem State.refuseInbound_follows {s : State} {f : Nat} {status : Nat} {write : Bool} (hs : Follows origin s) :
    Follows origin (State.refuseInbound s f status write) := by
  unfold State.refuseInbound
  repeat' with_reducible first
    | assumption | intro _ | apply State.send_follows | apply State.dropInbound_follows | apply Follows.ite

theorem execHostInboundRequest_follows {f : Nat} {write : Bool} {off : Nat} {len : Nat} {bytes : List Byte} {at_ : Nat} {s0 : State} (hs : Follows origin s0) :
    Keeps origin (execHostInboundRequest f write off len bytes at_ s0) := by
  unfold execHostInboundRequest
  repeat' with_reducible first
    | assumption | intro _ | apply State.atClk_follows | apply State.send_follows | apply State.memFault_follows
    | apply State.readRange_follows | apply State.writeRange_follows | apply State.urgeAll_follows
    | apply State.tellOut_follows | apply State.tellFenced_follows | apply State.refuseInbound_follows
    | apply Keeps.next | apply Keeps.ite | apply Follows.ite

theorem execHostCompletionReceive_follows {tag : Nat} {status : Nat} {at_ : Nat} {bs : List Byte} {s0 : State} (hs : Follows origin s0) :
    Keeps origin (execHostCompletionReceive tag status at_ bs s0) := by
  unfold execHostCompletionReceive
  repeat' with_reducible first
    | assumption | apply State.atClk_follows | apply State.pumpPorts_follows | apply State.feedCopy_follows
    | apply State.endPort_follows | apply State.freeTagId_follows | apply State.loadAnswer_follows | apply Keeps.next
    | split | (extract_lets)

theorem execHostCompletionTimeout_follows {tag : Nat} {at_ : Nat} {s0 : State} (hs : Follows origin s0) :
    Keeps origin (execHostCompletionTimeout tag at_ s0) := by
  unfold execHostCompletionTimeout
  repeat' with_reducible first
    | assumption | apply State.atClk_follows | apply State.pumpPorts_follows | apply State.endPort_follows
    | apply State.freeTagId_follows | apply State.loadAnswer_follows | apply Keeps.next | split | (extract_lets)

theorem State.masterOff_follows {s : State} {f : Nat} (hs : Follows origin s) :
    Follows origin (State.masterOff s f) := by
  unfold State.masterOff
  repeat' with_reducible first
    | assumption | intro _ | apply State.modFn_follows | apply State.dropTags_follows | apply State.endPort_follows
    | apply State.rejectLoad_follows | apply Follows.foldl | split

theorem execBusMasterDisable_follows {f : Nat} {at_ : Nat} {s0 : State} (hs : Follows origin s0) :
    Keeps origin (execBusMasterDisable f at_ s0) := by
  unfold execBusMasterDisable
  repeat' with_reducible first
    | assumption | apply State.atClk_follows | apply State.masterOff_follows | apply Keeps.next

theorem execBusMasterEnable_follows {f : Nat} {at_ : Nat} {s0 : State} (hs : Follows origin s0) :
    Keeps origin (execBusMasterEnable f at_ s0) := by
  unfold execBusMasterEnable
  repeat' with_reducible first
    | assumption | intro _ | apply State.atClk_follows | apply State.send_follows | apply State.modFn_follows
    | apply State.pumpPorts_follows | apply Keeps.next | apply Keeps.ite | apply Follows.ite

theorem State.flrOf_follows {s : State} {f : Nat} (hs : Follows origin s) :
    Follows origin (State.flrOf s f) := by
  unfold State.flrOf
  repeat' with_reducible first | assumption | apply State.modFn_follows | apply State.masterOff_follows

theorem State.flr_follows {s : State} {f : Nat} (hs : Follows origin s) :
    Follows origin (State.flr s f) := by
  unfold State.flr
  repeat' with_reducible first
    | assumption | intro _ | apply State.flrOf_follows | apply Follows.ite
    | refine Follows.upd (Follows.foldl ?_ ?_) rfl

theorem execFunctionLevelReset_follows {f : Nat} {at_ : Nat} {s0 : State} (hs : Follows origin s0) :
    Keeps origin (execFunctionLevelReset f at_ s0) := by
  unfold execFunctionLevelReset
  repeat' with_reducible first | assumption | apply State.atClk_follows | apply State.flr_follows | apply Keeps.next

theorem execFlrComplete_follows {f : Nat} {at_ : Nat} {s0 : State} (hs : Follows origin s0) :
    Keeps origin (execFlrComplete f at_ s0) := by
  unfold execFlrComplete
  repeat' with_reducible first
    | assumption | intro _ | apply State.atClk_follows | apply State.modFn_follows | apply Keeps.next | apply Keeps.ite

theorem execHostLinkDown_follows {at_ : Nat} {s0 : State} (hs : Follows origin s0) :
    Keeps origin (execHostLinkDown at_ s0) := by
  unfold execHostLinkDown
  repeat' with_reducible first
    | assumption | apply State.atClk_follows | refine Follows.upd (State.report_follows ?_) rfl
    | apply State.flr_follows | apply Keeps.next

theorem execHostLinkUp_follows {gen : Nat} {width : Nat} {flit : Bool} {vfs : Nat} {s : State} (hs : Follows origin s) :
    Keeps origin (execHostLinkUp gen width flit vfs s) := by
  unfold execHostLinkUp
  repeat' with_reducible first
    | assumption | intro _ | exact Follows.upd (by assumption) rfl | apply State.signal_follows | apply Keeps.next
    | apply Keeps.ite | apply Follows.ite

end Sys2Proof.Machine
end

