-- ==== Sys2Proof/Laws/FollowsStorSide.lean ====
section
/-! SUPPORT. Every operation of Machine/StorSide.lean takes a state that follows a sound one to one that does (Laws/Follows.lean). -/

namespace Sys2Proof.Machine

variable {origin : State}

theorem State.endQpOps_follows {s : State} {q : Nat} (hs : Follows origin s) :
    Follows origin (State.endQpOps s q) := by
  unfold State.endQpOps
  repeat' with_reducible first
    | assumption | intro _ | apply State.ckptEnd_follows | apply State.dropTags_follows | apply State.endPort_follows
    | apply State.rejectLoad_follows | apply Follows.foldl | split

theorem State.qpFail_follows {s : State} {q : Nat} {status : Nat} (hs : Follows origin s) :
    Follows origin (State.qpFail s q status) := by
  unfold State.qpFail
  repeat' with_reducible first
    | assumption | apply State.report_follows | apply State.modQp_follows | apply State.endQpOps_follows

theorem execQpModify_follows {s : State} (hs : Follows origin s) :
    Keeps origin (execQpModify s) := by
  unfold execQpModify
  repeat' with_reducible first | assumption | intro _ | apply State.modQp_follows | apply Keeps.next | apply Keeps.ite

theorem execQpReset_follows {s : State} (hs : Follows origin s) :
    Keeps origin (execQpReset s) := by
  unfold execQpReset
  repeat' with_reducible first
    | assumption | apply State.modQp_follows | apply State.endQpOps_follows | apply Keeps.next

theorem State.resendUnits_follows {s : State} {q : Nat} (hs : Follows origin s) : Follows origin (State.resendUnits s q) := by
  unfold State.resendUnits
  repeat' with_reducible first | assumption | intro _ | apply State.send_follows | apply Follows.foldl | split

theorem execAckTimeout_follows {q : Nat} {at_ : Nat} {s0 : State} (hs : Follows origin s0) :
    Keeps origin (execAckTimeout q at_ s0) := by
  unfold execAckTimeout
  repeat' with_reducible first
    | assumption | intro _ | apply State.atClk_follows | apply State.send_follows | apply State.modQp_follows
    | apply State.qpFail_follows | apply State.resendUnits_follows | apply Keeps.next | apply Follows.foldl | split
    | (extract_lets)

theorem execCnpReceive_follows {q : Nat} {at_ : Nat} {s0 : State} (hs : Follows origin s0) :
    Keeps origin (execCnpReceive q at_ s0) := by
  unfold execCnpReceive
  repeat' with_reducible first
    | assumption | apply State.atClk_follows | apply State.modQp_follows | apply State.modSport_follows
    | apply Keeps.next

theorem execRateRecovery_follows {q : Nat} {at_ : Nat} {s0 : State} (hs : Follows origin s0) :
    Keeps origin (execRateRecovery q at_ s0) := by
  unfold execRateRecovery
  repeat' with_reducible first
    | assumption | intro _ | apply State.atClk_follows | apply State.modQp_follows | apply Keeps.next | apply Keeps.ite

theorem State.pumpStor_follows {s : State} {p : Nat} (hs : Follows origin s) :
    Follows origin (State.pumpStor s p) := by
  unfold State.pumpStor
  repeat' with_reducible first
    | assumption | apply State.pumpPorts_follows | apply State.pumpDrain_follows | apply Follows.foldl

theorem execPfcPauseReceive_follows {p : Nat} {prio : Nat} {pause : Bool} {at_ : Nat} {s0 : State} (hs : Follows origin s0) :
    Keeps origin (execPfcPauseReceive p prio pause at_ s0) := by
  unfold execPfcPauseReceive
  repeat' with_reducible first
    | assumption | intro _ | apply State.atClk_follows | apply State.modSport_follows | apply State.pumpStor_follows
    | apply Keeps.next | apply Keeps.ite | apply Follows.ite

theorem execPfcStuck_follows {p : Nat} {at_ : Nat} {s0 : State} (hs : Follows origin s0) :
    Keeps origin (execPfcStuck p at_ s0) := by
  unfold execPfcStuck
  repeat' with_reducible first
    | assumption | intro _ | apply State.atClk_follows | apply State.report_follows | apply State.modSport_follows
    | apply Keeps.next | apply Keeps.ite

theorem State.sendCnp_follows {s : State} {p : Nat} {q : Nat} (hs : Follows origin s) :
    Follows origin (State.sendCnp s p q) := by
  unfold State.sendCnp
  repeat' with_reducible first
    | assumption | intro _ | apply State.send_follows | apply State.modQp_follows | apply State.modSport_follows
    | apply Follows.ite

theorem State.rdmaWrite_follows {s : State} {q : Nat} {addr : Nat} {rkey : Nat} {bytes : List Byte} (hs : Follows origin s) :
    Follows origin (State.rdmaWrite s q addr rkey bytes) := by
  unfold State.rdmaWrite
  repeat' with_reducible first
    | assumption | apply State.send_follows | apply State.report_follows | apply State.memFault_follows
    | apply State.writeRange_follows | apply State.urgeAll_follows | split

theorem State.rdmaRead_follows {s : State} {q : Nat} {addr : Nat} {rkey : Nat} {len : Nat} (hs : Follows origin s) :
    Follows origin (State.rdmaRead s q addr rkey len) := by
  unfold State.rdmaRead
  repeat' with_reducible first
    | assumption | intro _ | apply State.send_follows | apply State.memFault_follows | apply State.readRange_follows
    | apply Follows.ite | split

theorem State.roceData_follows {s : State} {q : Nat} {tag : Nat} {bs : List Byte} (hs : Follows origin s) :
    Follows origin (State.roceData s q tag bs) := by
  unfold State.roceData
  repeat' with_reducible first
    | assumption | apply State.pumpPorts_follows | apply State.feedCopy_follows | apply State.qpHeard_follows
    | apply State.freeTagId_follows | apply State.loadAnswer_follows | split

theorem execStorPacketReceive_follows {p : Nat} {q : Nat} {pkt : Roce} {ce : Bool} {at_ : Nat} {s0 : State} (hs : Follows origin s0) :
    Keeps origin (execStorPacketReceive p q pkt ce at_ s0) := by
  unfold execStorPacketReceive
  repeat' with_reducible first
    | assumption | intro _ | apply State.atClk_follows | apply State.send_follows | apply State.modSport_follows
    | apply State.qpHeard_follows | apply State.qpFail_follows | apply State.sendCnp_follows
    | apply State.rdmaWrite_follows | apply State.rdmaRead_follows | apply State.roceData_follows | apply Keeps.next
    | apply Keeps.ite | split

theorem execStoragePortDown_follows {p at_ : Nat} {s0 : State} (hs : Follows origin s0) :
    Keeps origin (execStoragePortDown p at_ s0) := by
  unfold execStoragePortDown
  extract_lets s s1 st s2 s3
  have h : Follows origin s := State.atClk_follows hs
  have h2 : Follows origin s2 := Follows.upd (State.modSport_follows h) rfl
  have h3 : Follows origin s3 := by
    unfold s3
    split
    · exact Follows.ite (fun _ => State.rejectLoad_follows h2) fun _ => h2
    · exact h2
  exact Keeps.ite (fun _ => Keeps.next h) fun _ =>
    Keeps.next (State.report_follows (Follows.foldl h3 fun _ _ k => State.modCkpt_follows k))

theorem execStoragePortUp_follows {p at_ : Nat} {s0 : State} (hs : Follows origin s0) :
    Keeps origin (execStoragePortUp p at_ s0) := by
  unfold execStoragePortUp
  extract_lets s s1 st s2 s3
  have h : Follows origin s := State.atClk_follows hs
  have h2 : Follows origin s2 := Follows.upd (State.modSport_follows h) rfl
  have h3 : Follows origin s3 := Follows.foldl h2 fun _ _ k => State.modCkpt_follows k
  exact Keeps.ite (fun _ => Keeps.next h) fun _ => Keeps.next (State.pumpStor_follows h3)

theorem execStorPortDownTimeout_follows {p : Nat} {at_ : Nat} {s0 : State} (hs : Follows origin s0) :
    Keeps origin (execStorPortDownTimeout p at_ s0) := by
  unfold execStorPortDownTimeout
  repeat' with_reducible first
    | assumption | intro _ | apply State.atClk_follows | apply State.modSport_follows | apply State.qpFail_follows
    | apply Keeps.next | apply Follows.foldl | split | (extract_lets)

end Sys2Proof.Machine
end

