-- ==== Sys2Proof/Laws/FollowsStream.lean ====
section
/-! SUPPORT. Every operation of Machine/Stream.lean takes a state that follows a sound one to one that does (Laws/Follows.lean). -/

namespace Sys2Proof.Machine

variable {origin : State}

theorem execRecordDispatch_follows {g : Nat} {n : Nat} {at_ : Nat} {s0 : State} (hs : Follows origin s0) :
    Keeps origin (execRecordDispatch g n at_ s0) := by
  unfold execRecordDispatch
  repeat' with_reducible first
    | assumption | apply State.atClk_follows | apply State.modClu_follows | apply State.fetchRec_follows
    | apply Keeps.next | split | (extract_lets)

theorem State.skipInput_follows {s : State} {c : Nat} {g : Nat} {n : Nat} {r : Run} (hs : Follows origin s) :
    Follows origin (State.skipInput s c g n r) := by
  unfold State.skipInput
  repeat' with_reducible first | assumption | apply State.writeProg_follows | apply State.modRunOf_follows

theorem State.beginRecord_follows {s : State} {c : Nat} {g : Nat} {n : Nat} {r : Run} (hs : Follows origin s) :
    Follows origin (State.beginRecord s c g n r) := by
  unfold State.beginRecord
  repeat' with_reducible first
    | assumption | intro _ | apply State.startSends_follows | apply State.modRunOf_follows | apply State.endRun_follows
    | apply State.runVector_follows | apply State.startCobbler_follows | apply State.logPass_follows
    | apply State.startPhase_follows | apply State.skipInput_follows | apply Follows.ite | split

theorem execRecordWaitMet_follows {g : Nat} {n : Nat} {u : Nat} {at_ : Nat} {s0 : State} (hs : Follows origin s0) :
    Keeps origin (execRecordWaitMet g n u at_ s0) := by
  unfold execRecordWaitMet
  repeat' with_reducible first
    | assumption | apply State.atClk_follows | apply State.modClu_follows | apply State.breakObj_follows
    | apply State.takeTokens_follows | apply State.beginRecord_follows | apply Keeps.next | split | (extract_lets)

theorem execRecordRetire_follows {g : Nat} {n : Nat} {idx : Nat} {at_ : Nat} {s0 : State} (hs : Follows origin s0) :
    Keeps origin (execRecordRetire g n idx at_ s0) := by
  unfold execRecordRetire
  repeat' with_reducible first
    | assumption | intro _ | apply State.atClk_follows | apply State.modClu_follows | apply State.progress_follows
    | apply State.planHear_follows | apply State.strand_follows | apply State.handDown_follows
    | apply State.give_follows | apply State.modPack_follows | apply Keeps.next | apply Follows.foldl | split
    | (extract_lets)

theorem execStepEndMark_follows {g : Nat} {n : Nat} {s : State} (hs : Follows origin s) :
    Keeps origin (execStepEndMark g n s) := by
  unfold execStepEndMark
  repeat' with_reducible first
    | assumption | intro _ | apply State.modClu_follows | apply Keeps.next | apply Keeps.ite | split

theorem State.barrier_follows {s : State} {c : Nat} (hs : Follows origin s) :
    Follows origin (State.barrier s c) := by
  unfold State.barrier
  repeat' with_reducible first
    | assumption | intro _ | apply State.modRun_follows | apply State.modLed_follows | apply State.planBarrier_follows
    | apply State.parkAtBarrier_follows | apply State.ledgerBarrier_follows | apply Follows.ite

theorem execStepBoundaryCensus_follows {c : Nat} {at_ : Nat} {s0 : State} (hs : Follows origin s0) :
    Keeps origin (execStepBoundaryCensus c at_ s0) := by
  unfold execStepBoundaryCensus
  repeat' with_reducible first
    | assumption | intro _ | apply State.atClk_follows | apply State.takeCensus_follows | apply State.barrier_follows
    | apply Keeps.next | apply Keeps.ite | apply Follows.ite

end Sys2Proof.Machine
end

