-- ==== Sys2Proof/Laws/FollowsTrafGenOps.lean ====
section
/-! SUPPORT. Every operation of Machine/TrafGenOps.lean takes a state that follows a sound one to one that does (Laws/Follows.lean). -/

namespace Sys2Proof.Machine

variable {origin : State}

theorem State.tgWrite_follows {s : State} {ch : Nat} {t : TrafGen} {reg : Nat} (hs : Follows origin s) :
    Follows origin (State.tgWrite s ch t reg).1 := by
  unfold State.tgWrite
  repeat' with_reducible first | assumption | intro _ | apply State.writeGran_follows | apply Follows.foldl_fst

theorem State.tgWrite_follows_eq {s : State} {ch : Nat} {t : TrafGen} {reg : Nat} {t_ : State} {y1 : Nat} (hs : Follows origin s) (he : State.tgWrite s ch t reg = (t_, y1)) :
    Follows origin t_ := by
  have k : Follows origin (State.tgWrite s ch t reg).1 := State.tgWrite_follows hs
  rw [he] at k
  exact k

theorem State.tgScan_follows {s : State} {ch : Nat} {t : TrafGen} (hs : Follows origin s) :
    Follows origin (State.tgScan s ch t) := by
  unfold State.tgScan
  repeat' with_reducible first | assumption | intro _ | apply State.scanWords_follows | apply Follows.foldl

theorem State.tgPass_follows {s : State} {ch : Nat} {reg : Nat} (hs : Follows origin s) :
    Follows origin (State.tgPass s ch reg).1 := by
  unfold State.tgPass
  repeat' with_reducible first
    | assumption | apply State.countCe_follows | apply State.tgWrite_follows | apply State.tgScan_follows | split
    | (extract_lets)

theorem State.tgPass_follows_eq {s : State} {ch : Nat} {reg : Nat} {t_ : State} {y1 : Nat} (hs : Follows origin s) (he : State.tgPass s ch reg = (t_, y1)) :
    Follows origin t_ := by
  have k : Follows origin (State.tgPass s ch reg).1 := State.tgPass_follows hs
  rw [he] at k
  exact k

theorem State.tgFails_follows {s : State} {ch : Nat} {fails : List (Nat × Nat × Nat)} (hs : Follows origin s) :
    Follows origin (State.tgFails s ch fails) := by
  unfold State.tgFails
  repeat' with_reducible first
    | assumption | intro _ | apply State.modChan_follows | apply State.report_follows | apply Follows.foldl

theorem execTgStart_follows {ch : Nat} {fails : List (Nat × Nat × Nat)} {s : State} (hs : Follows origin s) :
    Keeps origin (execTgStart ch fails s) := by
  unfold execTgStart
  repeat' with_reducible first
    | assumption | intro _ | apply State.modChan_follows | apply State.tgPass_follows | apply State.tgFails_follows
    | apply Keeps.next | apply Keeps.ite | apply Follows.ite | apply Follows.foldl_fst

theorem execTgStop_follows {ch : Nat} {s : State} (hs : Follows origin s) :
    Keeps origin (execTgStop ch s) := by
  unfold execTgStop
  repeat' with_reducible first | assumption | apply State.modChan_follows | apply Keeps.next

theorem execTgRunEnd_follows {ch : Nat} {fails : List (Nat × Nat × Nat)} {s : State} (hs : Follows origin s) :
    Keeps origin (execTgRunEnd ch fails s) := by
  unfold execTgRunEnd
  repeat' with_reducible first
    | assumption | intro _ | apply State.modChan_follows | apply State.clearRows_follows | apply State.tgFails_follows
    | apply Keeps.next | apply Keeps.ite | apply Follows.ite

end Sys2Proof.Machine
end

