-- ==== Sys2Proof/Laws/FollowsRegs.lean ====
section
/-! SUPPORT. Every operation of Machine/Regs.lean takes a state that follows a sound one to one that does (Laws/Follows.lean). -/

namespace Sys2Proof.Machine

variable {origin : State}

theorem State.pathRead_follows {s : State} {p : Path} {addr : Nat} (hs : Follows origin s) :
    Follows origin (State.pathRead s p addr).2 := by
  unfold State.pathRead
  repeat' with_reducible first | assumption | exact Follows.upd (by assumption) rfl | split

theorem State.pathRead_follows_eq {s : State} {p : Path} {addr : Nat} {y0 : Nat} {t_ : State} (hs : Follows origin s) (he : State.pathRead s p addr = (y0, t_)) :
    Follows origin t_ := by
  have k : Follows origin (State.pathRead s p addr).2 := State.pathRead_follows hs
  rw [he] at k
  exact k

end Sys2Proof.Machine
end

