-- ==== Sys2Proof/Laws/FollowsCtrl.lean ====
section
/-! SUPPORT. Every operation of Machine/Ctrl.lean takes a state that follows a sound one to one that does (Laws/Follows.lean). -/

namespace Sys2Proof.Machine

variable {origin : State}

theorem State.after_follows {s : State} {x : Host.Outcome State Fault Refusal} (hs : Follows origin s) (hx : Keeps origin x) :
    Follows origin (State.after s x) := by
  unfold State.after
  split
  · exact hx _ rfl
  · exact hs

theorem State.when_follows {s : State} {b : Bool} {f : State → Host.Outcome State Fault Refusal} (hs : Follows origin s)
    (hf : ∀ t, Follows origin t → Keeps origin (f t)) : Follows origin (State.when s b f) := by
  unfold State.when
  exact Follows.ite (fun _ => State.after_follows hs (hf _ hs)) fun _ => hs

theorem State.writeGlb_follows {s : State} {off : Nat} {v : Nat} (hs : Follows origin s) :
    Follows origin (State.writeGlb s off v) := by
  unfold State.writeGlb
  repeat' with_reducible first
    | assumption | exact Follows.upd (by assumption) rfl | apply execDeterministicWrite_follows
    | apply State.after_follows | split

theorem State.writeTick_follows {s : State} {off : Nat} {v : Nat} (hs : Follows origin s) :
    Follows origin (State.writeTick s off v) := by
  unfold State.writeTick
  repeat' with_reducible first
    | assumption | exact Follows.upd (by assumption) rfl | apply execRelock_follows | apply execTickPeriodWrite_follows
    | apply execStartDisarm_follows | apply State.after_follows | apply State.when_follows | split

theorem State.writeUpdCmd_follows {s : State} {p : Path} {v : Nat} (hs : Follows origin s) :
    Follows origin (State.writeUpdCmd s p v) := by
  unfold State.writeUpdCmd
  repeat' with_reducible first
    | assumption | exact Follows.upd (by assumption) rfl | apply execUpdBegin_follows | apply execUpdVerify_follows
    | apply execUpdActivate_follows | apply execUpdConfirm_follows | apply execUpdRevert_follows
    | apply execUpdAbort_follows | apply State.when_follows

theorem State.writeBoot_follows {s : State} {p : Path} {off : Nat} {v : Nat} (hs : Follows origin s) :
    Follows origin (State.writeBoot s p off v) := by
  unfold State.writeBoot
  repeat' with_reducible first
    | assumption | exact Follows.upd (by assumption) rfl | apply execLeaveRomWait_follows | apply State.when_follows
    | apply State.writeUpdCmd_follows | split

theorem State.writeDog_follows {s : State} {off : Nat} {v : Nat} (hs : Follows origin s) :
    Follows origin (State.writeDog s off v) := by
  unfold State.writeDog
  repeat' with_reducible first
    | assumption | apply State.modMon_follows | apply execSheepdogAck_follows | apply execSheepdogPop_follows
    | apply State.when_follows | split

theorem State.writePartCmd_follows {s : State} {v : Nat} (hs : Follows origin s) :
    Follows origin (State.writePartCmd s v) := by
  unfold State.writePartCmd
  repeat' with_reducible first
    | assumption | exact Follows.upd (by assumption) rfl | apply execPartFence_follows | apply execPartReset_follows
    | apply execCtxStop_follows | apply execCtxAbort_follows | apply State.when_follows

theorem State.writeLoadCmd_follows {s : State} {v : Nat} (hs : Follows origin s) :
    Follows origin (State.writeLoadCmd s v) := by
  unfold State.writeLoadCmd
  repeat' with_reducible first
    | assumption | exact Follows.upd (by assumption) rfl | apply execLoadGo_follows | apply execLoadAbort_follows
    | apply execUnload_follows | apply State.when_follows

theorem State.writePart_follows {s : State} {off : Nat} {v : Nat} (hs : Follows origin s) :
    Follows origin (State.writePart s off v) := by
  unfold State.writePart
  repeat' with_reducible first
    | assumption | exact Follows.upd (by assumption) rfl | apply execNextContextWrite_follows
    | apply State.after_follows | apply State.writePartCmd_follows | apply State.writeLoadCmd_follows | split

theorem State.writeLedCfg_follows {s : State} {i : Nat} {v : Nat} (hs : Follows origin s) :
    Follows origin (State.writeLedCfg s i v) := by
  unfold State.writeLedCfg
  repeat' with_reducible first
    | assumption | intro _ | apply State.modLed_follows | apply execLedgerEnableWrite_follows
    | apply State.after_follows | apply Follows.ite

theorem State.writeLedger_follows {s : State} {off : Nat} {v : Nat} (hs : Follows origin s) :
    Follows origin (State.writeLedger s off v) := by
  unfold State.writeLedger
  repeat' with_reducible first
    | assumption | exact Follows.upd (by assumption) rfl | apply execLedgerRollback_follows
    | apply execLedgerHalt_follows | apply execClearStrikes_follows | apply State.when_follows
    | apply State.writeLedCfg_follows | split

theorem State.writeCkpt_follows {s : State} {off : Nat} {v : Nat} (hs : Follows origin s) :
    Follows origin (State.writeCkpt s off v) := by
  unfold State.writeCkpt
  repeat' with_reducible first
    | assumption | exact Follows.upd (by assumption) rfl | apply State.modCkpt_follows | apply execCkptTake_follows
    | apply execCkptAbort_follows | apply State.when_follows | split

theorem State.writeSync_follows {s : State} {off : Nat} {v : Nat} (hs : Follows origin s) :
    Follows origin (State.writeSync s off v) := by
  unfold State.writeSync
  repeat' with_reducible first
    | assumption | exact Follows.upd (by assumption) rfl | apply State.modCens_follows | apply execSyncCensus_follows
    | apply execSyncReseed_follows | apply State.after_follows | apply State.when_follows | split

theorem State.writeFabCmd_follows {s : State} {v : Nat} (hs : Follows origin s) :
    Follows origin (State.writeFabCmd s v) := by
  unfold State.writeFabCmd
  repeat' with_reducible first
    | assumption | intro _ | exact Follows.upd (by assumption) rfl | apply State.fabRefuse_follows
    | apply execFabRetrain_follows | apply execFabFullSearch_follows | apply execFabPortOff_follows
    | apply execFabPortOn_follows | apply execFabCommit_follows | apply State.when_follows | apply Follows.ite

theorem State.writeFab_follows {s : State} {off : Nat} {v : Nat} (hs : Follows origin s) :
    Follows origin (State.writeFab s off v) := by
  unfold State.writeFab
  repeat' with_reducible first
    | assumption | exact Follows.upd (by assumption) rfl | apply State.modPort_follows | apply State.modJob_follows
    | apply execFabCtxJobWrite_follows | apply execFabJobWrite_follows | apply State.after_follows
    | apply State.writeFabCmd_follows | split

theorem State.writeEng_follows {s : State} {e : Nat} {w : Nat} {v : Nat} (hs : Follows origin s) :
    Follows origin (State.writeEng s e w v) := by
  unfold State.writeEng
  repeat' with_reducible first
    | assumption | apply State.modEng_follows | apply execEngineSearch_follows | apply execEngineSearchCached_follows
    | apply execTableModeWrite_follows | apply execMapApply_follows | apply State.after_follows
    | apply State.when_follows | split

theorem State.writeOpt_follows {s : State} {off : Nat} {v : Nat} (hs : Follows origin s) :
    Follows origin (State.writeOpt s off v) := by
  unfold State.writeOpt
  repeat' with_reducible first
    | assumption | exact Follows.upd (by assumption) rfl | apply execSwitchSlotWrite_follows
    | apply execPlanEntryWrite_follows | apply execAdcSettingsWrite_follows | apply State.after_follows
    | apply State.writeEng_follows | split

theorem State.writeTg_follows {s : State} {ch : Nat} {w : Nat} {v : Nat} (hs : Follows origin s) :
    Follows origin (State.writeTg s ch w v) := by
  unfold State.writeTg
  repeat' with_reducible first
    | assumption | apply State.modChan_follows | apply execTgStart_follows | apply execTgStop_follows
    | apply State.when_follows | split

theorem State.writeMem_follows {s : State} {off : Nat} {v : Nat} (hs : Follows origin s) :
    Follows origin (State.writeMem s off v) := by
  unfold State.writeMem
  repeat' with_reducible first
    | assumption | exact Follows.upd (by assumption) rfl | apply State.modMemCtx_follows | apply execMemArbWrite_follows
    | apply State.after_follows | apply State.writeTg_follows | split

theorem State.writeHost_follows {s : State} {off : Nat} {v : Nat} (hs : Follows origin s) :
    Follows origin (State.writeHost s off v) := by
  unfold State.writeHost
  repeat' with_reducible first | assumption | exact Follows.upd (by assumption) rfl | apply State.modFn_follows | split

theorem State.writeStor_follows {s : State} {off : Nat} {v : Nat} (hs : Follows origin s) :
    Follows origin (State.writeStor s off v) := by
  unfold State.writeStor
  repeat' with_reducible first
    | assumption | exact Follows.upd (by assumption) rfl | apply State.modQp_follows | apply State.modSport_follows
    | apply execQpModify_follows | apply execQpReset_follows | apply State.when_follows | split

theorem State.writeMgmt_follows {s : State} {off : Nat} {v : Nat} (hs : Follows origin s) :
    Follows origin (State.writeMgmt s off v) := by
  unfold State.writeMgmt
  repeat' with_reducible first | assumption | exact Follows.upd (by assumption) rfl | split

theorem State.writePwr_follows {s : State} {off : Nat} {v : Nat} (hs : Follows origin s) :
    Follows origin (State.writePwr s off v) := by
  unfold State.writePwr
  repeat' with_reducible first | assumption | exact Follows.upd (by assumption) rfl | split

theorem execArithClear_follows {c : Nat} {s : State} (hs : Follows origin s) :
    Keeps origin (execArithClear c s) := by
  unfold execArithClear
  repeat' with_reducible first | assumption | apply State.modArith_follows | apply Keeps.next

theorem State.writeArith_follows {s : State} {off : Nat} {v : Nat} (hs : Follows origin s) :
    Follows origin (State.writeArith s off v) := by
  unfold State.writeArith
  repeat' with_reducible first
    | assumption | exact Follows.upd (by assumption) rfl | apply State.modArith_follows | apply State.when_follows
    | apply execArithClear_follows | split

theorem State.pairEffect_follows {s : State} {base : Nat} {v : Nat} (hs : Follows origin s) :
    Follows origin (State.pairEffect s base v) := by
  unfold State.pairEffect
  repeat' with_reducible first
    | assumption | exact Follows.upd (by assumption) rfl | apply State.modLed_follows | apply execFabDevWrite_follows
    | apply State.modEng_follows | apply execWindowWrite_follows | apply execPartAssignWrite_follows
    | apply execLeaseGrant_follows | apply execFabJobWrite_follows | apply execStartArm_follows
    | apply State.after_follows | split | (extract_lets)

theorem State.seqBroken_follows {s : State} {addr : Nat} (hs : Follows origin s) :
    Follows origin (State.seqBroken s addr) := by
  unfold State.seqBroken
  repeat' with_reducible first | assumption | apply State.pairNote_follows

theorem State.setSeq_follows {s : State} {p : Path} {q : PairSeq} (hs : Follows origin s) :
    Follows origin (State.setSeq s p q) := by
  unfold State.setSeq
  repeat' with_reducible first | assumption | exact Follows.upd (by assumption) rfl

theorem State.endSeq_follows {s : State} {p : Path} (hs : Follows origin s) :
    Follows origin (State.endSeq s p) := by
  unfold State.endSeq
  repeat' with_reducible first | assumption | exact Follows.upd (by assumption) rfl

theorem State.pairWrite_follows {s : State} {p : Path} {addr : Nat} {v : Nat} {base : Nat} {n : Nat} {i : Nat} (hs : Follows origin s) :
    Follows origin (State.pairWrite s p addr v base n i) := by
  unfold State.pairWrite
  repeat' with_reducible first
    | assumption | intro _ | apply State.pairEffect_follows | apply State.seqBroken_follows | apply State.setSeq_follows
    | apply State.endSeq_follows | apply Follows.ite | split

theorem State.writeWord_follows {s : State} {p : Path} {addr : Nat} {value : Nat} (hs : Follows origin s) :
    Follows origin (State.writeWord s p addr value) := by
  unfold State.writeWord
  repeat' with_reducible first
    | assumption | apply State.writeGlb_follows | apply State.writeTick_follows | apply State.writeBoot_follows
    | apply State.writeDog_follows | apply State.writePart_follows | apply State.writeLedger_follows
    | apply State.writeCkpt_follows | apply State.writeSync_follows | apply State.writeFab_follows
    | apply State.writeOpt_follows | apply State.writeMem_follows | apply State.writeHost_follows
    | apply State.writeStor_follows | apply State.writeMgmt_follows | apply State.writePwr_follows
    | apply State.writeArith_follows | apply State.pairWrite_follows | split

theorem execRegisterWrite_follows {p : Path} {width : Nat} {addr : Nat} {value : Nat} {at_ : Nat} {s0 : State} (hs : Follows origin s0) :
    Keeps origin (execRegisterWrite p width addr value at_ s0) := by
  unfold execRegisterWrite
  repeat' with_reducible first
    | assumption | intro _ | apply State.atClk_follows | apply State.writeWord_follows | apply Keeps.next
    | apply Follows.ite

theorem execPairedReadLatch_follows {p : Path} {addr : Nat} {at_ : Nat} {s0 : State} (hs : Follows origin s0) :
    Keeps origin (execPairedReadLatch p addr at_ s0) := by
  unfold execPairedReadLatch
  repeat' with_reducible first
    | assumption | apply State.atClk_follows | apply State.send_follows | apply State.pathRead_follows
    | apply Keeps.next

theorem execPairedWriteWord_follows {p : Path} {addr : Nat} {value : Nat} {at_ : Nat} {s0 : State} (hs : Follows origin s0) :
    Keeps origin (execPairedWriteWord p addr value at_ s0) := by
  unfold execPairedWriteWord
  repeat' with_reducible first
    | assumption | apply State.atClk_follows | apply State.writeWord_follows | apply Keeps.next | split

end Sys2Proof.Machine
end

