-- ==== Sys2Proof/Laws/FollowsService.lean ====
section
/-! SUPPORT. Every operation of Machine/Service.lean takes a state that follows a sound one to one that does (Laws/Follows.lean). -/

namespace Sys2Proof.Machine

variable {origin : State}

theorem State.readWords_follows {s : State} {p : Path} {addr : Nat} {n : Nat} (hs : Follows origin s) :
    Follows origin (State.readWords s p addr n).2 := by
  unfold State.readWords
  repeat' with_reducible first | assumption | intro _ | apply State.pathRead_follows | apply Follows.foldl_snd

theorem State.readWords_follows_eq {s : State} {p : Path} {addr : Nat} {n : Nat} {y0 : List Byte} {t_ : State} (hs : Follows origin s) (he : State.readWords s p addr n = (y0, t_)) :
    Follows origin t_ := by
  have k : Follows origin (State.readWords s p addr n).2 := State.readWords_follows hs
  rw [he] at k
  exact k

theorem State.writeWords_follows {s : State} {p : Path} {addr : Nat} {vs : List Nat} (hs : Follows origin s) :
    Follows origin (State.writeWords s p addr vs) := by
  induction vs generalizing s addr with
  | nil => exact hs
  | cons v vs ih => exact ih (State.writeWord_follows hs)

theorem execUsbRead_follows {addr : Nat} {wLength : Nat} {at_ : Nat} {s0 : State} (hs : Follows origin s0) :
    Keeps origin (execUsbRead addr wLength at_ s0) := by
  unfold execUsbRead
  repeat' with_reducible first
    | assumption | intro _ | apply State.atClk_follows | apply State.send_follows | apply State.readWords_follows
    | apply Keeps.next | apply Keeps.ite

theorem execUsbWrite_follows {addr : Nat} {wLength : Nat} {words : List Nat} {at_ : Nat} {s0 : State} (hs : Follows origin s0) :
    Keeps origin (execUsbWrite addr wLength words at_ s0) := by
  unfold execUsbWrite
  repeat' with_reducible first
    | assumption | intro _ | apply State.atClk_follows | apply State.send_follows | apply State.writeWords_follows
    | apply Keeps.next | apply Keeps.ite

theorem execUsbBusReset_follows {cut : Bool} {highSpeed : Bool} {s : State} (hs : Follows origin s) :
    Keeps origin (execUsbBusReset cut highSpeed s) := by
  unfold execUsbBusReset
  repeat' with_reducible first
    | assumption | intro _ | apply State.report_follows | refine Follows.upd (State.endSeq_follows ?_) rfl
    | apply Keeps.next | apply Follows.ite

theorem execMgmtRead_follows {peer : Nat} {seq : Nat} {addr : Nat} {count : Nat} {at_ : Nat} {s0 : State} (hs : Follows origin s0) :
    Keeps origin (execMgmtRead peer seq addr count at_ s0) := by
  unfold execMgmtRead
  repeat' with_reducible first
    | assumption | intro _ | apply State.atClk_follows | apply State.request_follows | apply State.readWords_follows
    | apply Keeps.next

theorem execMgmtWrite_follows {peer : Nat} {seq : Nat} {addr : Nat} {words : List Nat} {at_ : Nat} {s0 : State} (hs : Follows origin s0) :
    Keeps origin (execMgmtWrite peer seq addr words at_ s0) := by
  unfold execMgmtWrite
  repeat' with_reducible first
    | assumption | intro _ | apply State.atClk_follows | apply State.request_follows | apply State.writeWords_follows
    | apply Keeps.next

theorem execMgmtDownloadChunk_follows {peer : Nat} {seq : Nat} {off : Nat} {data : List Byte} {ok : Bool} {s : State} (hs : Follows origin s) :
    Keeps origin (execMgmtDownloadChunk peer seq off data ok s) := by
  unfold execMgmtDownloadChunk
  repeat' with_reducible first
    | assumption | intro _ | apply State.chunk_follows | apply State.request_follows | apply Keeps.next

theorem State.toSinks_follows {s : State} {bs : List Byte} (hs : Follows origin s) :
    Follows origin (State.toSinks s bs) := by
  unfold State.toSinks
  repeat' with_reducible first | assumption | intro _ | apply State.send_follows | apply Follows.foldl

theorem markSent_length (seq : Nat) (n : Nat) (q : List Event) : (markSent seq n q).length = q.length := by
  induction q generalizing n with
  | nil => cases n <;> rfl
  | cons e q ih =>
    cases n with
    | zero => rfl
    | succ n =>
      simp only [markSent]
      split <;> simp [ih]

theorem execReportDatagramSend_follows {at_ : Nat} {s0 : State} (hs : Follows origin s0) : Keeps origin (execReportDatagramSend at_ s0) := by
  unfold execReportDatagramSend
  refine Keeps.ite (fun _ => Keeps.next (State.atClk_follows hs)) fun _ => Keeps.next (State.toSinks_follows ?_)
  have h := State.atClk_follows (at_ := at_) hs
  exact { h with sound := ⟨h.sound.mem, Nat.le_trans (Nat.le_of_eq (markSent_length _ _ _)) h.sound.queue, h.sound.tick⟩ }

theorem execHeartbeatSend_follows {at_ : Nat} {s0 : State} (hs : Follows origin s0) :
    Keeps origin (execHeartbeatSend at_ s0) := by
  unfold execHeartbeatSend
  repeat' with_reducible first
    | assumption | intro _ | refine Follows.upd (State.atClk_follows ?_) rfl | apply State.toSinks_follows
    | apply Keeps.next | apply Keeps.ite

theorem execReportAckReceive_follows {sink seq : Nat} {s : State} (hs : Follows origin s) : Keeps origin (execReportAckReceive sink seq s) := by
  unfold execReportAckReceive
  refine Keeps.ite (fun _ => Keeps.next hs) fun _ => Keeps.next ?_
  exact { hs with sound := ⟨hs.sound.mem, Nat.le_trans (List.length_filter_le _ _) hs.sound.queue, hs.sound.tick⟩ }

theorem execReportResend_follows {at_ : Nat} {s0 : State} (hs : Follows origin s0) :
    Keeps origin (execReportResend at_ s0) := by
  unfold execReportResend
  repeat' with_reducible first
    | assumption | refine Follows.upd (State.atClk_follows ?_) rfl | apply State.toSinks_follows | apply Keeps.next
    | split | (extract_lets)

theorem State.endPhases_follows {s : State} {status : Nat} (hs : Follows origin s) :
    Follows origin (State.endPhases s status) := by
  unfold State.endPhases
  repeat' with_reducible first | assumption | intro _ | apply State.endRun_follows | apply Follows.foldl

theorem execLeaseLapse_follows {at_ : Nat} {s0 : State} (hs : Follows origin s0) : Keeps origin (execLeaseLapse at_ s0) := by
  unfold execLeaseLapse
  extract_lets s dog s1 loaded s2 s3 fab s4
  have h : Follows origin s := State.atClk_follows hs
  have h1 : Follows origin s1 := State.report_follows (Follows.upd h rfl)
  have h2 : Follows origin s2 := State.endPhases_follows (Follows.foldl h1 fun _ _ k => State.stopCtx_follows k)
  have h3 : Follows origin s3 := Follows.foldl h2 fun _ _ k => Follows.ite (fun _ => k) fun _ => State.modLed_follows k
  have h4 : Follows origin s4 := Follows.upd h3 rfl
  exact Keeps.ite (fun _ => Keeps.next h) fun _ =>
    Keeps.next (Follows.foldl h4 fun _ _ k => Follows.ite (fun _ => State.ckptEnd_follows k) fun _ => k)

end Sys2Proof.Machine
end

