-- ==== Sys2Proof/Laws/FollowsEdge.lean ====
section
/-! SUPPORT. Every operation of Machine/Edge.lean takes a state that follows a sound one to one that does (Laws/Follows.lean). -/

namespace Sys2Proof.Machine

variable {origin : State}

theorem State.edgeWrites_follows {s : State} (hs : Follows origin s) : Follows origin (State.edgeWrites s) := by
  unfold State.edgeWrites
  extract_lets g s1 s2 bt s3 s4
  have h1 : Follows origin s1 := Follows.ite (fun _ => Follows.upd hs rfl) fun _ => hs
  have h2 : Follows origin s2 := State.weltEdge_follows (State.edgePending_follows h1)
  have h3 : Follows origin s3 := Follows.upd h2 rfl
  have h4 : Follows origin s4 := State.digestEdge_follows h3
  exact State.optEdge_follows (State.throttleEdge_follows (State.devEdge_follows h4))

theorem State.edgeSegments_follows {s : State} (hs : Follows origin s) :
    Follows origin (State.edgeSegments s) := by
  unfold State.edgeSegments
  repeat' with_reducible first
    | assumption | apply State.residency_follows | apply State.overruns_follows | apply State.releaseCtx_follows
    | apply State.startEdge_follows | apply Follows.foldl

theorem State.edgeFrames_follows {s : State} (hs : Follows origin s) :
    Follows origin (State.edgeFrames s) := by
  unfold State.edgeFrames
  repeat' with_reducible first
    | assumption | intro _ | apply State.sendMarker_follows | apply State.sendBeacons_follows | apply Follows.foldl

theorem Tick.holdoverEdge_number (t : Tick) : t.holdoverEdge.number = t.number := by
  unfold Tick.holdoverEdge
  repeat' split
  all_goals rfl

theorem execTickEdge_follows {at_ work room : Nat} {bad ext : Bool} {s0 : State} (hs : Follows origin s0) :
    Keeps origin (execTickEdge at_ work room bad ext s0) := by
  unfold execTickEdge
  extract_lets s s1 s2 s3 s4
  have h1 : Follows origin s1 := State.countTick_follows (State.closeFrame_follows (State.atClk_follows hs))
  have h2 : Follows origin s2 := State.edgeWrites_follows (h1.ticked (by rw [Tick.holdoverEdge_number]; exact h1.sound.tick))
  have h3 : Follows origin s3 := State.edgeSegments_follows (State.feedForwardEdge_follows (State.governorClose_follows h2))
  have h4 : Follows origin s4 := State.quietTicks_follows (State.edgeFrames_follows h3)
  exact Keeps.ite (fun _ => Keeps.next (State.atClk_follows hs)) fun _ =>
    Keeps.next (State.readiness_follows (State.sampleFaultN_follows (State.updEdge_follows h4)))

end Sys2Proof.Machine
end

