-- ==== Sys2Proof/Laws/FollowsStep.lean ====
section
/-! SUPPORT. Every operation of Machine/Step.lean takes a state that follows a sound one to one that does (Laws/Follows.lean). -/

namespace Sys2Proof.Machine

variable {origin : State}

theorem State.idle_follows {s : State} (hs : Follows origin s) : Follows origin (State.idle s) :=
  { hs with sound := ⟨hs.sound.mem, hs.sound.queue, hs.sound.tick⟩, clk := Nat.le_succ_of_le hs.clk }

theorem State.popped_sound {s : State} {rest : List Instr} (h : Sound s) : Sound (State.popped s rest) :=
  ⟨h.mem, h.queue, h.tick⟩

end Sys2Proof.Machine
end

