-- ==== Sys2Proof/Laws/Frame.lean ====
section
/-! SUPPORT. What reporting an event, an access to memory and the link layer leave alone (Safety.lean). -/

namespace Sys2Proof.Machine

theorem Reported.refl (s : State) : Reported s s := rfl
theorem Reported.trans {s t u : State} (h : Reported s t) (k : Reported t u) : Reported s u := by
  unfold Reported at *
  rw [k, h]
theorem Reported.after {s t u : State} (k : Reported t u) (h : Reported s t) : Reported s u := h.trans k

theorem LinkOnly.refl (s : State) : LinkOnly s s := rfl
theorem LinkOnly.trans {s t u : State} (h : LinkOnly s t) (k : LinkOnly t u) : LinkOnly s u := by
  unfold LinkOnly at *
  rw [k, h]
theorem LinkOnly.after {s t u : State} (k : LinkOnly t u) (h : LinkOnly s t) : LinkOnly s u := h.trans k

theorem MemOnly.refl (s : State) : MemOnly s s := rfl
theorem MemOnly.trans {s t u : State} (h : MemOnly s t) (k : MemOnly t u) : MemOnly s u := by
  unfold MemOnly at *
  rw [k, h]
theorem MemOnly.after {s t u : State} (k : MemOnly t u) (h : MemOnly s t) : MemOnly s u := h.trans k

theorem Reported.link {s t : State} (h : Reported s t) : LinkOnly s t := by
  unfold Reported LinkOnly at *
  rw [h]

theorem Reported.mem {s t : State} (h : Reported s t) : MemOnly s t := by
  unfold Reported MemOnly at *
  rw [h]

/-- A fold of steps each of which is within a reflexive and transitive bound is within it. -/
theorem foldl_within {α : Type} {r : State → State → Prop} (refl : ∀ s, r s s) (trans : ∀ s t u, r s t → r t u → r s u)
    {f : State → α → State} (h : ∀ s a, r s (f s a)) (l : List α) (s : State) : r s (l.foldl f s) := by
  induction l generalizing s with
  | nil => exact refl s
  | cons a l ih => exact trans _ _ _ (h s a) (ih _)

/-- The same for a fold that carries the state beside other things. -/
theorem foldl_within_snd {α β : Type} {r : State → State → Prop} (refl : ∀ s, r s s) (trans : ∀ s t u, r s t → r t u → r s u)
    {f : β × State → α → β × State} (h : ∀ b a, r b.2 (f b a).2) (l : List α) (b : β × State) : r b.2 (l.foldl f b).2 := by
  induction l generalizing b with
  | nil => exact refl b.2
  | cons a l ih => exact trans _ _ _ (h b a) (ih _)

theorem State.interrupt_reported (s : State) (f : Nat) : Reported s (s.interrupt f) := by
  unfold State.interrupt; split <;> rfl

theorem State.signal_reported (s : State) : Reported s s.signal := by
  unfold State.signal
  split
  · exact foldl_within Reported.refl (fun _ _ _ => Reported.trans) (fun s f => s.interrupt_reported f) _ _
  · rfl

theorem State.report_reported (s : State) (sev src st g c l d : Nat) : Reported s (s.report sev src st g c l d) := by
  unfold State.report
  dsimp only
  split
  · exact Reported.trans (t := { s with dog := _ }) rfl (State.signal_reported _)
  · rfl

variable (s : State)

@[simp] theorem State.report_clk (a b c d e f g : Nat) : (s.report a b c d e f g).clk = s.clk := by
  rw [s.report_reported a b c d e f g]
@[simp] theorem State.report_freeCtr (a b c d e f g : Nat) : (s.report a b c d e f g).freeCtr = s.freeCtr := by
  rw [s.report_reported a b c d e f g]
@[simp] theorem State.report_pending (a b c d e f g : Nat) : (s.report a b c d e f g).pending = s.pending := by
  rw [s.report_reported a b c d e f g]
@[simp] theorem State.report_pairSeqs (a b c d e f g : Nat) : (s.report a b c d e f g).pairSeqs = s.pairSeqs := by
  rw [s.report_reported a b c d e f g]
@[simp] theorem State.report_latches (a b c d e f g : Nat) : (s.report a b c d e f g).latches = s.latches := by
  rw [s.report_reported a b c d e f g]
@[simp] theorem State.report_glb (a b c d e f g : Nat) : (s.report a b c d e f g).glb = s.glb := by
  rw [s.report_reported a b c d e f g]
@[simp] theorem State.report_weltUp (a b c d e f g : Nat) : (s.report a b c d e f g).weltUp = s.weltUp := by
  rw [s.report_reported a b c d e f g]
@[simp] theorem State.report_weltNext (a b c d e f g : Nat) : (s.report a b c d e f g).weltNext = s.weltNext := by
  rw [s.report_reported a b c d e f g]
@[simp] theorem State.report_tick (a b c d e f g : Nat) : (s.report a b c d e f g).tick = s.tick := by
  rw [s.report_reported a b c d e f g]
@[simp] theorem State.report_gov (a b c d e f g : Nat) : (s.report a b c d e f g).gov = s.gov := by
  rw [s.report_reported a b c d e f g]
@[simp] theorem State.report_starts (a b c d e f g : Nat) : (s.report a b c d e f g).starts = s.starts := by
  rw [s.report_reported a b c d e f g]
@[simp] theorem State.report_ariths (a b c d e f g : Nat) : (s.report a b c d e f g).ariths = s.ariths := by
  rw [s.report_reported a b c d e f g]
@[simp] theorem State.report_driftSel (a b c d e f g : Nat) : (s.report a b c d e f g).driftSel = s.driftSel := by
  rw [s.report_reported a b c d e f g]
@[simp] theorem State.report_drifts (a b c d e f g : Nat) : (s.report a b c d e f g).drifts = s.drifts := by
  rw [s.report_reported a b c d e f g]
@[simp] theorem State.report_memCtxs (a b c d e f g : Nat) : (s.report a b c d e f g).memCtxs = s.memCtxs := by
  rw [s.report_reported a b c d e f g]
@[simp] theorem State.report_census (a b c d e f g : Nat) : (s.report a b c d e f g).census = s.census := by
  rw [s.report_reported a b c d e f g]
@[simp] theorem State.report_loads (a b c d e f g : Nat) : (s.report a b c d e f g).loads = s.loads := by
  rw [s.report_reported a b c d e f g]
@[simp] theorem State.report_ctxRuns (a b c d e f g : Nat) : (s.report a b c d e f g).ctxRuns = s.ctxRuns := by
  rw [s.report_reported a b c d e f g]
@[simp] theorem State.report_parts (a b c d e f g : Nat) : (s.report a b c d e f g).parts = s.parts := by
  rw [s.report_reported a b c d e f g]
@[simp] theorem State.report_clus (a b c d e f g : Nat) : (s.report a b c d e f g).clus = s.clus := by
  rw [s.report_reported a b c d e f g]
@[simp] theorem State.report_chans (a b c d e f g : Nat) : (s.report a b c d e f g).chans = s.chans := by
  rw [s.report_reported a b c d e f g]
@[simp] theorem State.report_memc (a b c d e f g : Nat) : (s.report a b c d e f g).memc = s.memc := by
  rw [s.report_reported a b c d e f g]
@[simp] theorem State.report_mem (a b c d e f g : Nat) : (s.report a b c d e f g).mem = s.mem := by
  rw [s.report_reported a b c d e f g]
@[simp] theorem State.report_gran (a b c d e f g : Nat) : (s.report a b c d e f g).gran = s.gran := by
  rw [s.report_reported a b c d e f g]
@[simp] theorem State.report_ecc (a b c d e f g : Nat) : (s.report a b c d e f g).ecc = s.ecc := by
  rw [s.report_reported a b c d e f g]
@[simp] theorem State.report_sync (a b c d e f g : Nat) : (s.report a b c d e f g).sync = s.sync := by
  rw [s.report_reported a b c d e f g]
@[simp] theorem State.report_loader (a b c d e f g : Nat) : (s.report a b c d e f g).loader = s.loader := by
  rw [s.report_reported a b c d e f g]
@[simp] theorem State.report_partRegs (a b c d e f g : Nat) : (s.report a b c d e f g).partRegs = s.partRegs := by
  rw [s.report_reported a b c d e f g]
@[simp] theorem State.report_tags (a b c d e f g : Nat) : (s.report a b c d e f g).tags = s.tags := by
  rw [s.report_reported a b c d e f g]
@[simp] theorem State.report_ctxJobs (a b c d e f g : Nat) : (s.report a b c d e f g).ctxJobs = s.ctxJobs := by
  rw [s.report_reported a b c d e f g]
@[simp] theorem State.report_fab (a b c d e f g : Nat) : (s.report a b c d e f g).fab = s.fab := by
  rw [s.report_reported a b c d e f g]
@[simp] theorem State.report_packs (a b c d e f g : Nat) : (s.report a b c d e f g).packs = s.packs := by
  rw [s.report_reported a b c d e f g]
@[simp] theorem State.report_packCtx (a b c d e f g : Nat) : (s.report a b c d e f g).packCtx = s.packCtx := by
  rw [s.report_reported a b c d e f g]
@[simp] theorem State.report_usb (a b c d e f g : Nat) : (s.report a b c d e f g).usb = s.usb := by
  rw [s.report_reported a b c d e f g]
@[simp] theorem State.report_sb (a b c d e f g : Nat) : (s.report a b c d e f g).sb = s.sb := by
  rw [s.report_reported a b c d e f g]
@[simp] theorem State.report_stor (a b c d e f g : Nat) : (s.report a b c d e f g).stor = s.stor := by
  rw [s.report_reported a b c d e f g]
@[simp] theorem State.report_leds (a b c d e f g : Nat) : (s.report a b c d e f g).leds = s.leds := by
  rw [s.report_reported a b c d e f g]
@[simp] theorem State.report_ledRegs (a b c d e f g : Nat) : (s.report a b c d e f g).ledRegs = s.ledRegs := by
  rw [s.report_reported a b c d e f g]
@[simp] theorem State.report_ckpts (a b c d e f g : Nat) : (s.report a b c d e f g).ckpts = s.ckpts := by
  rw [s.report_reported a b c d e f g]
@[simp] theorem State.report_ckptRegs (a b c d e f g : Nat) : (s.report a b c d e f g).ckptRegs = s.ckptRegs := by
  rw [s.report_reported a b c d e f g]
@[simp] theorem State.report_opt (a b c d e f g : Nat) : (s.report a b c d e f g).opt = s.opt := by
  rw [s.report_reported a b c d e f g]
@[simp] theorem State.report_fuses (a b c d e f g : Nat) : (s.report a b c d e f g).fuses = s.fuses := by
  rw [s.report_reported a b c d e f g]
@[simp] theorem State.report_flash (a b c d e f g : Nat) : (s.report a b c d e f g).flash = s.flash := by
  rw [s.report_reported a b c d e f g]
@[simp] theorem State.report_boot (a b c d e f g : Nat) : (s.report a b c d e f g).boot = s.boot := by
  rw [s.report_reported a b c d e f g]
@[simp] theorem State.report_upd (a b c d e f g : Nat) : (s.report a b c d e f g).upd = s.upd := by
  rw [s.report_reported a b c d e f g]
@[simp] theorem State.report_mgmt (a b c d e f g : Nat) : (s.report a b c d e f g).mgmt = s.mgmt := by
  rw [s.report_reported a b c d e f g]
@[simp] theorem State.report_therm (a b c d e f g : Nat) : (s.report a b c d e f g).therm = s.therm := by
  rw [s.report_reported a b c d e f g]
@[simp] theorem State.report_meter (a b c d e f g : Nat) : (s.report a b c d e f g).meter = s.meter := by
  rw [s.report_reported a b c d e f g]
@[simp] theorem State.report_meterHub (a b c d e f g : Nat) : (s.report a b c d e f g).meterHub = s.meterHub := by
  rw [s.report_reported a b c d e f g]

/-! ### Accesses to memory -/

theorem State.report_mem' (a b c d e f g : Nat) : MemOnly s (s.report a b c d e f g) := (s.report_reported a b c d e f g).mem

theorem State.markBad_within (c : Nat) : MemOnly s (s.markBad c) := by
  unfold State.markBad; split <;> rfl

theorem State.memFault_within (ag : Agent) (st sp a : Nat) : MemOnly s (s.memFault ag st sp a) := by
  unfold State.memFault
  dsimp only
  refine MemOnly.trans ?_ (State.report_mem' _ _ _ _ _ _ _ _)
  split
  · refine MemOnly.trans ?_ (State.markBad_within _ _)
    split <;> rfl
  · split <;> rfl

theorem State.setGran_within (gk st : Nat) : MemOnly s (s.setGran gk st) := by
  unfold State.setGran
  dsimp only
  split <;> rfl

theorem State.clearGrans_within (lo hi : Nat) : MemOnly s (s.clearGrans lo hi) := by
  unfold State.clearGrans
  refine MemOnly.trans (t := { s with gran := Tab.eraseRange s.gran lo hi }) rfl ?_
  refine foldl_within MemOnly.refl (fun _ _ _ => MemOnly.trans) (fun t ch => ?_) _ _
  dsimp only
  split <;> rfl

theorem State.countCe_within (gk n : Nat) : MemOnly s (s.countCe gk n) := by
  unfold State.countCe
  repeat' split
  all_goals rfl

theorem State.poison_within (gk : Nat) : MemOnly s (s.poison gk) := by
  unfold State.poison
  dsimp only
  split
  · exact MemOnly.trans (s.setGran_within gk 3) rfl
  · exact MemOnly.trans (s.setGran_within gk 3) rfl

theorem State.readGran_within (gk : Nat) : MemOnly s (s.readGran gk).2 := by
  unfold State.readGran
  split
  · rfl
  · rfl
  · dsimp only
    split
    · rfl
    · exact State.report_mem' _ _ _ _ _ _ _ _
  · dsimp only
    split
    · exact s.poison_within gk
    · exact MemOnly.trans (s.countCe_within gk _) rfl

theorem State.cow_within (gk : Nat) : MemOnly s (s.cow gk) := by
  unfold State.cow
  split
  · rfl
  · dsimp only
    split
    · refine (State.setGran_within _ _ _).after ?_
      simp only [MemOnly, State.modCkpt]
    · rfl

theorem State.urge_within (gk : Nat) : MemOnly s (s.urge gk) := by
  unfold State.urge
  split <;> rfl

theorem State.writeGran_within (key : Nat) (bs : List Byte) : MemOnly s (s.writeGran key bs) := by
  unfold State.writeGran
  dsimp only
  refine MemOnly.trans (s.cow_within (granOf key)) ?_
  generalize s.cow (granOf key) = t
  repeat' split
  all_goals first
    | rfl
    | (refine (State.setGran_within _ _ _).after ?_; rfl)
    | (refine MemOnly.after (Reported.mem (State.report_reported _ _ _ _ _ _ _ _)) ?_; rfl)

theorem State.wallFault_within (ag : Agent) : MemOnly s (s.wallFault ag) := Reported.mem (State.report_reported _ _ _ _ _ _ _ _)

theorem State.touch_within (ag : Agent) (sp a n : Nat) : MemOnly s (s.touch ag sp a n).2 := by
  unfold State.touch
  refine foldl_within_snd (β := Nat) MemOnly.refl (fun _ _ _ => MemOnly.trans) (fun b pc => ?_) _ (0, s)
  split
  · rfl
  · split
    · exact State.memFault_within _ _ _ _ _
    · dsimp only
      split
      · exact State.wallFault_within _ _
      split
      · exact State.readGran_within _ _
      · exact MemOnly.trans (State.readGran_within _ _) (State.memFault_within _ _ _ _ _)

theorem State.readRange_within (ag : Agent) (sp a n : Nat) : MemOnly s (s.readRange ag sp a n).2.2 := by
  unfold State.readRange
  dsimp only
  split
  · exact s.touch_within ag sp a n
  · exact s.touch_within ag sp a n

theorem State.writeRange_within (ag : Agent) (sp a : Nat) (bs : List Byte) : MemOnly s (s.writeRange ag sp a bs).2 := by
  unfold State.writeRange
  refine foldl_within_snd (β := Nat) MemOnly.refl (fun _ _ _ => MemOnly.trans) (fun b pc => ?_) _ (0, s)
  split
  · rfl
  · split
    · exact State.memFault_within _ _ _ _ _
    · split
      · exact State.wallFault_within _ _
      · exact State.writeGran_within _ _ _

theorem State.rangeState_within (ag : Agent) (sp a n st : Nat) : MemOnly s (s.rangeState ag sp a n st).2 := by
  unfold State.rangeState
  refine foldl_within_snd (β := Nat) MemOnly.refl (fun _ _ _ => MemOnly.trans) (fun b pc => ?_) _ (0, s)
  split
  · rfl
  · split
    · exact State.memFault_within _ _ _ _ _
    · dsimp only
      split
      · exact State.wallFault_within _ _
      · exact MemOnly.trans (State.cow_within _ _) ((State.setGran_within _ _ _).after rfl)

theorem State.writeProg_within (ag : Agent) (p v : Nat) : MemOnly s (s.writeProg ag p v) := State.writeRange_within _ _ _ _ _

theorem State.playList_within (ag : Agent) (j n : Nat) : MemOnly s (s.playList ag j n).2.2 := by
  unfold State.playList
  dsimp only
  split
  · exact s.readRange_within _ _ _ _
  · split
    · exact MemOnly.trans (s.readRange_within _ _ _ _) (State.readRange_within _ _ _ _ _)
    · exact MemOnly.trans (s.readRange_within _ _ _ _) (State.readRange_within _ _ _ _ _)

theorem State.fetchRec_within (ag : Agent) (j n pos : Nat) : MemOnly s (s.fetchRec ag j n pos).2.2 := by
  unfold State.fetchRec
  dsimp only
  split
  · exact s.playList_within _ _ _
  · split
    · exact s.playList_within _ _ _
    · split
      · exact MemOnly.trans (s.playList_within _ _ _) (State.readRange_within _ _ _ _ _)
      · exact MemOnly.trans (s.playList_within _ _ _) (State.readRange_within _ _ _ _ _)

/-! ### The link layer -/

theorem State.send_link (m : Msg) : LinkOnly s (s.send m) := rfl

theorem State.portStatus_within (p st : Nat) : LinkOnly s (s.portStatus p st) := by
  refine (State.report_reported _ _ _ _ _ _ _ _).link.after ?_
  rfl

theorem State.pumpVc_within (p v : Nat) : LinkOnly s (s.pumpVc p v) := by
  unfold State.pumpVc
  refine foldl_within LinkOnly.refl (fun _ _ _ => LinkOnly.trans) (fun t c => ?_) _ _
  dsimp only
  split <;> rfl

theorem State.giveCell_within (p v : Nat) (c : Cell) : LinkOnly s (s.giveCell p v c) :=
  (State.pumpVc_within _ _ _).after rfl

theorem State.givePacket_within (p v : Nat) (k : Packet) : LinkOnly s (s.givePacket p v k) :=
  LinkOnly.trans (s.giveCell_within p v _)
    (foldl_within LinkOnly.refl (fun _ _ _ => LinkOnly.trans) (fun t i => t.giveCell_within p v (.payload i)) _ _)

theorem State.freeBufs_within (p v gen n : Nat) : LinkOnly s (s.freeBufs p v gen n) := by
  unfold State.freeBufs
  split
  · rfl
  · split <;> rfl

theorem State.takeVc0_within (p n : Nat) : LinkOnly s (s.takeVc0 p n) := by
  unfold State.takeVc0
  split
  · exact State.freeBufs_within _ _ _ _ _
  · rfl

theorem State.dropKept_within (p : Nat) : LinkOnly s (s.dropKept p) := by
  unfold State.dropKept
  dsimp only
  split
  · rfl
  · exact (State.portStatus_within _ _ _).after rfl

theorem State.portFailed_within (p : Nat) : LinkOnly s (s.portFailed p) :=
  (LinkOnly.trans (State.dropKept_within _ _) (State.portStatus_within _ _ _)).after rfl

theorem State.trained_within (p w serial digest : Nat) (ok : Bool) : LinkOnly s (s.trained p w serial digest ok) := by
  unfold State.trained
  dsimp only
  split
  · rfl
  · split
    · split
      · refine LinkOnly.after (t := State.portStatus _ _ _) rfl ?_
        refine (State.portStatus_within _ _ _).after ?_
        rfl
      · rfl
    · split
      · exact State.portFailed_within _ _
      · rfl

theorem State.takeReturns_within (f : Frame) : LinkOnly s (s.takeReturns f) :=
  (State.pumpVc_within _ _ _).after rfl

theorem State.replay_within (p v : Nat) : LinkOnly s (s.replay p v) := by
  unfold State.replay
  dsimp only
  split
  · rfl
  · split
    · exact (State.portStatus_within _ _ _).after rfl
    · exact (foldl_within LinkOnly.refl (fun _ _ _ => LinkOnly.trans) (fun t e => State.send_link t _) _ _).after rfl

theorem State.resend_within (p : Nat) : LinkOnly s (s.resend p) := by
  unfold State.resend
  refine foldl_within LinkOnly.refl (fun _ _ _ => LinkOnly.trans) (fun t v => ?_) _ _
  exact LinkOnly.trans (foldl_within LinkOnly.refl (fun _ _ _ => LinkOnly.trans) (fun t e => State.send_link t _) _ _) (State.pumpVc_within _ _ _)

/-- A byte of a granule belongs to it. -/
theorem granOf_granKey_add (gk i : Nat) (h : i < granSize gk) : granOf (granKey gk + i) = gk := by
  unfold granSize at h
  unfold granOf granKey
  unfold lineBase cmBase chanBytes rowsPerChan at *
  by_cases a : gk < 256 * 393216
  · rw [if_pos a] at h; rw [if_pos a, if_pos (by omega)]; omega
  · rw [if_neg a] at h; rw [if_neg a, if_neg (by omega)]; omega

/-- Setting a granule's state sets that one and no other. -/
theorem State.granState_setGran (s : State) (gk st q : Nat) (h0 : 0 < st) (h : st < 4) :
    (s.setGran gk st).granState q = if q = gk then st else s.granState q := by
  have e : (s.setGran gk st).gran = Tab.put s.gran gk (pairOf 2 0) (pairOf 2 st) := by
    unfold State.setGran; dsimp only; split <;> rfl
  have hp : pairOf 2 st ≠ pairOf 2 0 := by
    rcases (by omega : st = 1 ∨ st = 2 ∨ st = 3) with h | h | h <;> subst h <;> decide
  have e2 : (s.setGran gk st).granPair q = if q = gk then pairOf 2 st else s.granPair q := by
    unfold State.granPair; rw [e]; unfold Tab.put; rw [if_neg hp, Tab.get_set]
  unfold State.granState
  rw [e2]
  by_cases hq : q = gk
  · rw [if_pos hq, if_pos hq]
    rcases (by omega : st = 1 ∨ st = 2 ∨ st = 3) with h | h | h <;> subst h <;> decide
  · rw [if_neg hq, if_neg hq]

/-- Granule states are no part of the address map. -/
@[simp] theorem State.locOf_setGran (s : State) (gk st : Nat) (ag : Agent) (sp a : Nat) : (s.setGran gk st).locOf ag sp a = s.locOf ag sp a := by unfold State.setGran; dsimp only; split <;> rfl

@[simp] theorem State.setGran_mem (s : State) (gk st : Nat) : (s.setGran gk st).mem = s.mem := by unfold State.setGran; dsimp only; split <;> rfl
@[simp] theorem State.setGran_ecc (s : State) (gk st : Nat) : (s.setGran gk st).ecc = s.ecc := by unfold State.setGran; dsimp only; split <;> rfl

end Sys2Proof.Machine
end

