-- ==== Sys2Proof/Laws/State.lean ====
section
/-! SUPPORT. What each named update of State leaves and sets: one lemma per field per update, and what the updated table
holds. -/

namespace Sys2Proof.Machine

variable (s : State)

/-! ### State.atClk -/

@[simp] theorem State.atClk_clk (a : Nat) : (s.atClk a).clk = max s.clk a := rfl
@[simp] theorem State.atClk_freeCtr (a : Nat) : (s.atClk a).freeCtr = s.freeCtr := rfl
@[simp] theorem State.atClk_pending (a : Nat) : (s.atClk a).pending = s.pending := rfl
@[simp] theorem State.atClk_tx (a : Nat) : (s.atClk a).tx = s.tx := rfl
@[simp] theorem State.atClk_pairSeqs (a : Nat) : (s.atClk a).pairSeqs = s.pairSeqs := rfl
@[simp] theorem State.atClk_latches (a : Nat) : (s.atClk a).latches = s.latches := rfl
@[simp] theorem State.atClk_glb (a : Nat) : (s.atClk a).glb = s.glb := rfl
@[simp] theorem State.atClk_weltUp (a : Nat) : (s.atClk a).weltUp = s.weltUp := rfl
@[simp] theorem State.atClk_weltNext (a : Nat) : (s.atClk a).weltNext = s.weltNext := rfl
@[simp] theorem State.atClk_tick (a : Nat) : (s.atClk a).tick = s.tick := rfl
@[simp] theorem State.atClk_gov (a : Nat) : (s.atClk a).gov = s.gov := rfl
@[simp] theorem State.atClk_starts (a : Nat) : (s.atClk a).starts = s.starts := rfl
@[simp] theorem State.atClk_ariths (a : Nat) : (s.atClk a).ariths = s.ariths := rfl
@[simp] theorem State.atClk_driftSel (a : Nat) : (s.atClk a).driftSel = s.driftSel := rfl
@[simp] theorem State.atClk_drifts (a : Nat) : (s.atClk a).drifts = s.drifts := rfl
@[simp] theorem State.atClk_memCtxs (a : Nat) : (s.atClk a).memCtxs = s.memCtxs := rfl
@[simp] theorem State.atClk_census (a : Nat) : (s.atClk a).census = s.census := rfl
@[simp] theorem State.atClk_loads (a : Nat) : (s.atClk a).loads = s.loads := rfl
@[simp] theorem State.atClk_ctxRuns (a : Nat) : (s.atClk a).ctxRuns = s.ctxRuns := rfl
@[simp] theorem State.atClk_parts (a : Nat) : (s.atClk a).parts = s.parts := rfl
@[simp] theorem State.atClk_clus (a : Nat) : (s.atClk a).clus = s.clus := rfl
@[simp] theorem State.atClk_chans (a : Nat) : (s.atClk a).chans = s.chans := rfl
@[simp] theorem State.atClk_memc (a : Nat) : (s.atClk a).memc = s.memc := rfl
@[simp] theorem State.atClk_mem (a : Nat) : (s.atClk a).mem = s.mem := rfl
@[simp] theorem State.atClk_gran (a : Nat) : (s.atClk a).gran = s.gran := rfl
@[simp] theorem State.atClk_ecc (a : Nat) : (s.atClk a).ecc = s.ecc := rfl
@[simp] theorem State.atClk_sync (a : Nat) : (s.atClk a).sync = s.sync := rfl
@[simp] theorem State.atClk_loader (a : Nat) : (s.atClk a).loader = s.loader := rfl
@[simp] theorem State.atClk_partRegs (a : Nat) : (s.atClk a).partRegs = s.partRegs := rfl
@[simp] theorem State.atClk_dog (a : Nat) : (s.atClk a).dog = s.dog := rfl
@[simp] theorem State.atClk_tags (a : Nat) : (s.atClk a).tags = s.tags := rfl
@[simp] theorem State.atClk_ctxJobs (a : Nat) : (s.atClk a).ctxJobs = s.ctxJobs := rfl
@[simp] theorem State.atClk_fab (a : Nat) : (s.atClk a).fab = s.fab := rfl
@[simp] theorem State.atClk_packs (a : Nat) : (s.atClk a).packs = s.packs := rfl
@[simp] theorem State.atClk_packCtx (a : Nat) : (s.atClk a).packCtx = s.packCtx := rfl
@[simp] theorem State.atClk_host (a : Nat) : (s.atClk a).host = s.host := rfl
@[simp] theorem State.atClk_usb (a : Nat) : (s.atClk a).usb = s.usb := rfl
@[simp] theorem State.atClk_sb (a : Nat) : (s.atClk a).sb = s.sb := rfl
@[simp] theorem State.atClk_stor (a : Nat) : (s.atClk a).stor = s.stor := rfl
@[simp] theorem State.atClk_leds (a : Nat) : (s.atClk a).leds = s.leds := rfl
@[simp] theorem State.atClk_ledRegs (a : Nat) : (s.atClk a).ledRegs = s.ledRegs := rfl
@[simp] theorem State.atClk_ckpts (a : Nat) : (s.atClk a).ckpts = s.ckpts := rfl
@[simp] theorem State.atClk_ckptRegs (a : Nat) : (s.atClk a).ckptRegs = s.ckptRegs := rfl
@[simp] theorem State.atClk_opt (a : Nat) : (s.atClk a).opt = s.opt := rfl
@[simp] theorem State.atClk_fuses (a : Nat) : (s.atClk a).fuses = s.fuses := rfl
@[simp] theorem State.atClk_flash (a : Nat) : (s.atClk a).flash = s.flash := rfl
@[simp] theorem State.atClk_boot (a : Nat) : (s.atClk a).boot = s.boot := rfl
@[simp] theorem State.atClk_upd (a : Nat) : (s.atClk a).upd = s.upd := rfl
@[simp] theorem State.atClk_mgmt (a : Nat) : (s.atClk a).mgmt = s.mgmt := rfl
@[simp] theorem State.atClk_therm (a : Nat) : (s.atClk a).therm = s.therm := rfl
@[simp] theorem State.atClk_meter (a : Nat) : (s.atClk a).meter = s.meter := rfl
@[simp] theorem State.atClk_meterHub (a : Nat) : (s.atClk a).meterHub = s.meterHub := rfl

/-! ### State.send -/

@[simp] theorem State.send_clk (m : Msg) : (s.send m).clk = s.clk := rfl
@[simp] theorem State.send_freeCtr (m : Msg) : (s.send m).freeCtr = s.freeCtr := rfl
@[simp] theorem State.send_pending (m : Msg) : (s.send m).pending = s.pending := rfl
@[simp] theorem State.send_tx (m : Msg) : (s.send m).tx = s.tx ++ [m] := rfl
@[simp] theorem State.send_pairSeqs (m : Msg) : (s.send m).pairSeqs = s.pairSeqs := rfl
@[simp] theorem State.send_latches (m : Msg) : (s.send m).latches = s.latches := rfl
@[simp] theorem State.send_glb (m : Msg) : (s.send m).glb = s.glb := rfl
@[simp] theorem State.send_weltUp (m : Msg) : (s.send m).weltUp = s.weltUp := rfl
@[simp] theorem State.send_weltNext (m : Msg) : (s.send m).weltNext = s.weltNext := rfl
@[simp] theorem State.send_tick (m : Msg) : (s.send m).tick = s.tick := rfl
@[simp] theorem State.send_gov (m : Msg) : (s.send m).gov = s.gov := rfl
@[simp] theorem State.send_starts (m : Msg) : (s.send m).starts = s.starts := rfl
@[simp] theorem State.send_ariths (m : Msg) : (s.send m).ariths = s.ariths := rfl
@[simp] theorem State.send_driftSel (m : Msg) : (s.send m).driftSel = s.driftSel := rfl
@[simp] theorem State.send_drifts (m : Msg) : (s.send m).drifts = s.drifts := rfl
@[simp] theorem State.send_memCtxs (m : Msg) : (s.send m).memCtxs = s.memCtxs := rfl
@[simp] theorem State.send_census (m : Msg) : (s.send m).census = s.census := rfl
@[simp] theorem State.send_loads (m : Msg) : (s.send m).loads = s.loads := rfl
@[simp] theorem State.send_ctxRuns (m : Msg) : (s.send m).ctxRuns = s.ctxRuns := rfl
@[simp] theorem State.send_parts (m : Msg) : (s.send m).parts = s.parts := rfl
@[simp] theorem State.send_clus (m : Msg) : (s.send m).clus = s.clus := rfl
@[simp] theorem State.send_chans (m : Msg) : (s.send m).chans = s.chans := rfl
@[simp] theorem State.send_memc (m : Msg) : (s.send m).memc = s.memc := rfl
@[simp] theorem State.send_mem (m : Msg) : (s.send m).mem = s.mem := rfl
@[simp] theorem State.send_gran (m : Msg) : (s.send m).gran = s.gran := rfl
@[simp] theorem State.send_ecc (m : Msg) : (s.send m).ecc = s.ecc := rfl
@[simp] theorem State.send_sync (m : Msg) : (s.send m).sync = s.sync := rfl
@[simp] theorem State.send_loader (m : Msg) : (s.send m).loader = s.loader := rfl
@[simp] theorem State.send_partRegs (m : Msg) : (s.send m).partRegs = s.partRegs := rfl
@[simp] theorem State.send_dog (m : Msg) : (s.send m).dog = s.dog := rfl
@[simp] theorem State.send_tags (m : Msg) : (s.send m).tags = s.tags := rfl
@[simp] theorem State.send_ctxJobs (m : Msg) : (s.send m).ctxJobs = s.ctxJobs := rfl
@[simp] theorem State.send_fab (m : Msg) : (s.send m).fab = s.fab := rfl
@[simp] theorem State.send_packs (m : Msg) : (s.send m).packs = s.packs := rfl
@[simp] theorem State.send_packCtx (m : Msg) : (s.send m).packCtx = s.packCtx := rfl
@[simp] theorem State.send_host (m : Msg) : (s.send m).host = s.host := rfl
@[simp] theorem State.send_usb (m : Msg) : (s.send m).usb = s.usb := rfl
@[simp] theorem State.send_sb (m : Msg) : (s.send m).sb = s.sb := rfl
@[simp] theorem State.send_stor (m : Msg) : (s.send m).stor = s.stor := rfl
@[simp] theorem State.send_leds (m : Msg) : (s.send m).leds = s.leds := rfl
@[simp] theorem State.send_ledRegs (m : Msg) : (s.send m).ledRegs = s.ledRegs := rfl
@[simp] theorem State.send_ckpts (m : Msg) : (s.send m).ckpts = s.ckpts := rfl
@[simp] theorem State.send_ckptRegs (m : Msg) : (s.send m).ckptRegs = s.ckptRegs := rfl
@[simp] theorem State.send_opt (m : Msg) : (s.send m).opt = s.opt := rfl
@[simp] theorem State.send_fuses (m : Msg) : (s.send m).fuses = s.fuses := rfl
@[simp] theorem State.send_flash (m : Msg) : (s.send m).flash = s.flash := rfl
@[simp] theorem State.send_boot (m : Msg) : (s.send m).boot = s.boot := rfl
@[simp] theorem State.send_upd (m : Msg) : (s.send m).upd = s.upd := rfl
@[simp] theorem State.send_mgmt (m : Msg) : (s.send m).mgmt = s.mgmt := rfl
@[simp] theorem State.send_therm (m : Msg) : (s.send m).therm = s.therm := rfl
@[simp] theorem State.send_meter (m : Msg) : (s.send m).meter = s.meter := rfl
@[simp] theorem State.send_meterHub (m : Msg) : (s.send m).meterHub = s.meterHub := rfl

/-! ### State.setPart -/

@[simp] theorem State.setPart_clk (g : Nat) (p : Part) : (s.setPart g p).clk = s.clk := rfl
@[simp] theorem State.setPart_freeCtr (g : Nat) (p : Part) : (s.setPart g p).freeCtr = s.freeCtr := rfl
@[simp] theorem State.setPart_pending (g : Nat) (p : Part) : (s.setPart g p).pending = s.pending := rfl
@[simp] theorem State.setPart_tx (g : Nat) (p : Part) : (s.setPart g p).tx = s.tx := rfl
@[simp] theorem State.setPart_pairSeqs (g : Nat) (p : Part) : (s.setPart g p).pairSeqs = s.pairSeqs := rfl
@[simp] theorem State.setPart_latches (g : Nat) (p : Part) : (s.setPart g p).latches = s.latches := rfl
@[simp] theorem State.setPart_glb (g : Nat) (p : Part) : (s.setPart g p).glb = s.glb := rfl
@[simp] theorem State.setPart_weltUp (g : Nat) (p : Part) : (s.setPart g p).weltUp = s.weltUp := rfl
@[simp] theorem State.setPart_weltNext (g : Nat) (p : Part) : (s.setPart g p).weltNext = s.weltNext := rfl
@[simp] theorem State.setPart_tick (g : Nat) (p : Part) : (s.setPart g p).tick = s.tick := rfl
@[simp] theorem State.setPart_gov (g : Nat) (p : Part) : (s.setPart g p).gov = s.gov := rfl
@[simp] theorem State.setPart_starts (g : Nat) (p : Part) : (s.setPart g p).starts = s.starts := rfl
@[simp] theorem State.setPart_ariths (g : Nat) (p : Part) : (s.setPart g p).ariths = s.ariths := rfl
@[simp] theorem State.setPart_driftSel (g : Nat) (p : Part) : (s.setPart g p).driftSel = s.driftSel := rfl
@[simp] theorem State.setPart_drifts (g : Nat) (p : Part) : (s.setPart g p).drifts = s.drifts := rfl
@[simp] theorem State.setPart_memCtxs (g : Nat) (p : Part) : (s.setPart g p).memCtxs = s.memCtxs := rfl
@[simp] theorem State.setPart_census (g : Nat) (p : Part) : (s.setPart g p).census = s.census := rfl
@[simp] theorem State.setPart_loads (g : Nat) (p : Part) : (s.setPart g p).loads = s.loads := rfl
@[simp] theorem State.setPart_ctxRuns (g : Nat) (p : Part) : (s.setPart g p).ctxRuns = s.ctxRuns := rfl
@[simp] theorem State.setPart_parts (g : Nat) (p : Part) : (s.setPart g p).parts = Tab.set s.parts g p := rfl
@[simp] theorem State.setPart_clus (g : Nat) (p : Part) : (s.setPart g p).clus = s.clus := rfl
@[simp] theorem State.setPart_chans (g : Nat) (p : Part) : (s.setPart g p).chans = s.chans := rfl
@[simp] theorem State.setPart_memc (g : Nat) (p : Part) : (s.setPart g p).memc = s.memc := rfl
@[simp] theorem State.setPart_mem (g : Nat) (p : Part) : (s.setPart g p).mem = s.mem := rfl
@[simp] theorem State.setPart_gran (g : Nat) (p : Part) : (s.setPart g p).gran = s.gran := rfl
@[simp] theorem State.setPart_ecc (g : Nat) (p : Part) : (s.setPart g p).ecc = s.ecc := rfl
@[simp] theorem State.setPart_sync (g : Nat) (p : Part) : (s.setPart g p).sync = s.sync := rfl
@[simp] theorem State.setPart_loader (g : Nat) (p : Part) : (s.setPart g p).loader = s.loader := rfl
@[simp] theorem State.setPart_partRegs (g : Nat) (p : Part) : (s.setPart g p).partRegs = s.partRegs := rfl
@[simp] theorem State.setPart_dog (g : Nat) (p : Part) : (s.setPart g p).dog = s.dog := rfl
@[simp] theorem State.setPart_tags (g : Nat) (p : Part) : (s.setPart g p).tags = s.tags := rfl
@[simp] theorem State.setPart_ctxJobs (g : Nat) (p : Part) : (s.setPart g p).ctxJobs = s.ctxJobs := rfl
@[simp] theorem State.setPart_fab (g : Nat) (p : Part) : (s.setPart g p).fab = s.fab := rfl
@[simp] theorem State.setPart_packs (g : Nat) (p : Part) : (s.setPart g p).packs = s.packs := rfl
@[simp] theorem State.setPart_packCtx (g : Nat) (p : Part) : (s.setPart g p).packCtx = s.packCtx := rfl
@[simp] theorem State.setPart_host (g : Nat) (p : Part) : (s.setPart g p).host = s.host := rfl
@[simp] theorem State.setPart_usb (g : Nat) (p : Part) : (s.setPart g p).usb = s.usb := rfl
@[simp] theorem State.setPart_sb (g : Nat) (p : Part) : (s.setPart g p).sb = s.sb := rfl
@[simp] theorem State.setPart_stor (g : Nat) (p : Part) : (s.setPart g p).stor = s.stor := rfl
@[simp] theorem State.setPart_leds (g : Nat) (p : Part) : (s.setPart g p).leds = s.leds := rfl
@[simp] theorem State.setPart_ledRegs (g : Nat) (p : Part) : (s.setPart g p).ledRegs = s.ledRegs := rfl
@[simp] theorem State.setPart_ckpts (g : Nat) (p : Part) : (s.setPart g p).ckpts = s.ckpts := rfl
@[simp] theorem State.setPart_ckptRegs (g : Nat) (p : Part) : (s.setPart g p).ckptRegs = s.ckptRegs := rfl
@[simp] theorem State.setPart_opt (g : Nat) (p : Part) : (s.setPart g p).opt = s.opt := rfl
@[simp] theorem State.setPart_fuses (g : Nat) (p : Part) : (s.setPart g p).fuses = s.fuses := rfl
@[simp] theorem State.setPart_flash (g : Nat) (p : Part) : (s.setPart g p).flash = s.flash := rfl
@[simp] theorem State.setPart_boot (g : Nat) (p : Part) : (s.setPart g p).boot = s.boot := rfl
@[simp] theorem State.setPart_upd (g : Nat) (p : Part) : (s.setPart g p).upd = s.upd := rfl
@[simp] theorem State.setPart_mgmt (g : Nat) (p : Part) : (s.setPart g p).mgmt = s.mgmt := rfl
@[simp] theorem State.setPart_therm (g : Nat) (p : Part) : (s.setPart g p).therm = s.therm := rfl
@[simp] theorem State.setPart_meter (g : Nat) (p : Part) : (s.setPart g p).meter = s.meter := rfl
@[simp] theorem State.setPart_meterHub (g : Nat) (p : Part) : (s.setPart g p).meterHub = s.meterHub := rfl

/-! ### State.modCtl -/

@[simp] theorem State.modCtl_clk (g : Nat) (f : PartCtl → PartCtl) : (s.modCtl g f).clk = s.clk := rfl
@[simp] theorem State.modCtl_freeCtr (g : Nat) (f : PartCtl → PartCtl) : (s.modCtl g f).freeCtr = s.freeCtr := rfl
@[simp] theorem State.modCtl_pending (g : Nat) (f : PartCtl → PartCtl) : (s.modCtl g f).pending = s.pending := rfl
@[simp] theorem State.modCtl_tx (g : Nat) (f : PartCtl → PartCtl) : (s.modCtl g f).tx = s.tx := rfl
@[simp] theorem State.modCtl_pairSeqs (g : Nat) (f : PartCtl → PartCtl) : (s.modCtl g f).pairSeqs = s.pairSeqs := rfl
@[simp] theorem State.modCtl_latches (g : Nat) (f : PartCtl → PartCtl) : (s.modCtl g f).latches = s.latches := rfl
@[simp] theorem State.modCtl_glb (g : Nat) (f : PartCtl → PartCtl) : (s.modCtl g f).glb = s.glb := rfl
@[simp] theorem State.modCtl_weltUp (g : Nat) (f : PartCtl → PartCtl) : (s.modCtl g f).weltUp = s.weltUp := rfl
@[simp] theorem State.modCtl_weltNext (g : Nat) (f : PartCtl → PartCtl) : (s.modCtl g f).weltNext = s.weltNext := rfl
@[simp] theorem State.modCtl_tick (g : Nat) (f : PartCtl → PartCtl) : (s.modCtl g f).tick = s.tick := rfl
@[simp] theorem State.modCtl_gov (g : Nat) (f : PartCtl → PartCtl) : (s.modCtl g f).gov = s.gov := rfl
@[simp] theorem State.modCtl_starts (g : Nat) (f : PartCtl → PartCtl) : (s.modCtl g f).starts = s.starts := rfl
@[simp] theorem State.modCtl_ariths (g : Nat) (f : PartCtl → PartCtl) : (s.modCtl g f).ariths = s.ariths := rfl
@[simp] theorem State.modCtl_driftSel (g : Nat) (f : PartCtl → PartCtl) : (s.modCtl g f).driftSel = s.driftSel := rfl
@[simp] theorem State.modCtl_drifts (g : Nat) (f : PartCtl → PartCtl) : (s.modCtl g f).drifts = s.drifts := rfl
@[simp] theorem State.modCtl_memCtxs (g : Nat) (f : PartCtl → PartCtl) : (s.modCtl g f).memCtxs = s.memCtxs := rfl
@[simp] theorem State.modCtl_census (g : Nat) (f : PartCtl → PartCtl) : (s.modCtl g f).census = s.census := rfl
@[simp] theorem State.modCtl_loads (g : Nat) (f : PartCtl → PartCtl) : (s.modCtl g f).loads = s.loads := rfl
@[simp] theorem State.modCtl_ctxRuns (g : Nat) (f : PartCtl → PartCtl) : (s.modCtl g f).ctxRuns = s.ctxRuns := rfl
@[simp] theorem State.modCtl_clus (g : Nat) (f : PartCtl → PartCtl) : (s.modCtl g f).clus = s.clus := rfl
@[simp] theorem State.modCtl_chans (g : Nat) (f : PartCtl → PartCtl) : (s.modCtl g f).chans = s.chans := rfl
@[simp] theorem State.modCtl_memc (g : Nat) (f : PartCtl → PartCtl) : (s.modCtl g f).memc = s.memc := rfl
@[simp] theorem State.modCtl_mem (g : Nat) (f : PartCtl → PartCtl) : (s.modCtl g f).mem = s.mem := rfl
@[simp] theorem State.modCtl_gran (g : Nat) (f : PartCtl → PartCtl) : (s.modCtl g f).gran = s.gran := rfl
@[simp] theorem State.modCtl_ecc (g : Nat) (f : PartCtl → PartCtl) : (s.modCtl g f).ecc = s.ecc := rfl
@[simp] theorem State.modCtl_sync (g : Nat) (f : PartCtl → PartCtl) : (s.modCtl g f).sync = s.sync := rfl
@[simp] theorem State.modCtl_loader (g : Nat) (f : PartCtl → PartCtl) : (s.modCtl g f).loader = s.loader := rfl
@[simp] theorem State.modCtl_partRegs (g : Nat) (f : PartCtl → PartCtl) : (s.modCtl g f).partRegs = s.partRegs := rfl
@[simp] theorem State.modCtl_dog (g : Nat) (f : PartCtl → PartCtl) : (s.modCtl g f).dog = s.dog := rfl
@[simp] theorem State.modCtl_tags (g : Nat) (f : PartCtl → PartCtl) : (s.modCtl g f).tags = s.tags := rfl
@[simp] theorem State.modCtl_ctxJobs (g : Nat) (f : PartCtl → PartCtl) : (s.modCtl g f).ctxJobs = s.ctxJobs := rfl
@[simp] theorem State.modCtl_fab (g : Nat) (f : PartCtl → PartCtl) : (s.modCtl g f).fab = s.fab := rfl
@[simp] theorem State.modCtl_packs (g : Nat) (f : PartCtl → PartCtl) : (s.modCtl g f).packs = s.packs := rfl
@[simp] theorem State.modCtl_packCtx (g : Nat) (f : PartCtl → PartCtl) : (s.modCtl g f).packCtx = s.packCtx := rfl
@[simp] theorem State.modCtl_host (g : Nat) (f : PartCtl → PartCtl) : (s.modCtl g f).host = s.host := rfl
@[simp] theorem State.modCtl_usb (g : Nat) (f : PartCtl → PartCtl) : (s.modCtl g f).usb = s.usb := rfl
@[simp] theorem State.modCtl_sb (g : Nat) (f : PartCtl → PartCtl) : (s.modCtl g f).sb = s.sb := rfl
@[simp] theorem State.modCtl_stor (g : Nat) (f : PartCtl → PartCtl) : (s.modCtl g f).stor = s.stor := rfl
@[simp] theorem State.modCtl_leds (g : Nat) (f : PartCtl → PartCtl) : (s.modCtl g f).leds = s.leds := rfl
@[simp] theorem State.modCtl_ledRegs (g : Nat) (f : PartCtl → PartCtl) : (s.modCtl g f).ledRegs = s.ledRegs := rfl
@[simp] theorem State.modCtl_ckpts (g : Nat) (f : PartCtl → PartCtl) : (s.modCtl g f).ckpts = s.ckpts := rfl
@[simp] theorem State.modCtl_ckptRegs (g : Nat) (f : PartCtl → PartCtl) : (s.modCtl g f).ckptRegs = s.ckptRegs := rfl
@[simp] theorem State.modCtl_opt (g : Nat) (f : PartCtl → PartCtl) : (s.modCtl g f).opt = s.opt := rfl
@[simp] theorem State.modCtl_fuses (g : Nat) (f : PartCtl → PartCtl) : (s.modCtl g f).fuses = s.fuses := rfl
@[simp] theorem State.modCtl_flash (g : Nat) (f : PartCtl → PartCtl) : (s.modCtl g f).flash = s.flash := rfl
@[simp] theorem State.modCtl_boot (g : Nat) (f : PartCtl → PartCtl) : (s.modCtl g f).boot = s.boot := rfl
@[simp] theorem State.modCtl_upd (g : Nat) (f : PartCtl → PartCtl) : (s.modCtl g f).upd = s.upd := rfl
@[simp] theorem State.modCtl_mgmt (g : Nat) (f : PartCtl → PartCtl) : (s.modCtl g f).mgmt = s.mgmt := rfl
@[simp] theorem State.modCtl_therm (g : Nat) (f : PartCtl → PartCtl) : (s.modCtl g f).therm = s.therm := rfl
@[simp] theorem State.modCtl_meter (g : Nat) (f : PartCtl → PartCtl) : (s.modCtl g f).meter = s.meter := rfl
@[simp] theorem State.modCtl_meterHub (g : Nat) (f : PartCtl → PartCtl) : (s.modCtl g f).meterHub = s.meterHub := rfl

/-! ### State.modMon -/

@[simp] theorem State.modMon_clk (g : Nat) (f : PartMon → PartMon) : (s.modMon g f).clk = s.clk := rfl
@[simp] theorem State.modMon_freeCtr (g : Nat) (f : PartMon → PartMon) : (s.modMon g f).freeCtr = s.freeCtr := rfl
@[simp] theorem State.modMon_pending (g : Nat) (f : PartMon → PartMon) : (s.modMon g f).pending = s.pending := rfl
@[simp] theorem State.modMon_tx (g : Nat) (f : PartMon → PartMon) : (s.modMon g f).tx = s.tx := rfl
@[simp] theorem State.modMon_pairSeqs (g : Nat) (f : PartMon → PartMon) : (s.modMon g f).pairSeqs = s.pairSeqs := rfl
@[simp] theorem State.modMon_latches (g : Nat) (f : PartMon → PartMon) : (s.modMon g f).latches = s.latches := rfl
@[simp] theorem State.modMon_glb (g : Nat) (f : PartMon → PartMon) : (s.modMon g f).glb = s.glb := rfl
@[simp] theorem State.modMon_weltUp (g : Nat) (f : PartMon → PartMon) : (s.modMon g f).weltUp = s.weltUp := rfl
@[simp] theorem State.modMon_weltNext (g : Nat) (f : PartMon → PartMon) : (s.modMon g f).weltNext = s.weltNext := rfl
@[simp] theorem State.modMon_tick (g : Nat) (f : PartMon → PartMon) : (s.modMon g f).tick = s.tick := rfl
@[simp] theorem State.modMon_gov (g : Nat) (f : PartMon → PartMon) : (s.modMon g f).gov = s.gov := rfl
@[simp] theorem State.modMon_starts (g : Nat) (f : PartMon → PartMon) : (s.modMon g f).starts = s.starts := rfl
@[simp] theorem State.modMon_ariths (g : Nat) (f : PartMon → PartMon) : (s.modMon g f).ariths = s.ariths := rfl
@[simp] theorem State.modMon_driftSel (g : Nat) (f : PartMon → PartMon) : (s.modMon g f).driftSel = s.driftSel := rfl
@[simp] theorem State.modMon_drifts (g : Nat) (f : PartMon → PartMon) : (s.modMon g f).drifts = s.drifts := rfl
@[simp] theorem State.modMon_memCtxs (g : Nat) (f : PartMon → PartMon) : (s.modMon g f).memCtxs = s.memCtxs := rfl
@[simp] theorem State.modMon_census (g : Nat) (f : PartMon → PartMon) : (s.modMon g f).census = s.census := rfl
@[simp] theorem State.modMon_loads (g : Nat) (f : PartMon → PartMon) : (s.modMon g f).loads = s.loads := rfl
@[simp] theorem State.modMon_ctxRuns (g : Nat) (f : PartMon → PartMon) : (s.modMon g f).ctxRuns = s.ctxRuns := rfl
@[simp] theorem State.modMon_clus (g : Nat) (f : PartMon → PartMon) : (s.modMon g f).clus = s.clus := rfl
@[simp] theorem State.modMon_chans (g : Nat) (f : PartMon → PartMon) : (s.modMon g f).chans = s.chans := rfl
@[simp] theorem State.modMon_memc (g : Nat) (f : PartMon → PartMon) : (s.modMon g f).memc = s.memc := rfl
@[simp] theorem State.modMon_mem (g : Nat) (f : PartMon → PartMon) : (s.modMon g f).mem = s.mem := rfl
@[simp] theorem State.modMon_gran (g : Nat) (f : PartMon → PartMon) : (s.modMon g f).gran = s.gran := rfl
@[simp] theorem State.modMon_ecc (g : Nat) (f : PartMon → PartMon) : (s.modMon g f).ecc = s.ecc := rfl
@[simp] theorem State.modMon_sync (g : Nat) (f : PartMon → PartMon) : (s.modMon g f).sync = s.sync := rfl
@[simp] theorem State.modMon_loader (g : Nat) (f : PartMon → PartMon) : (s.modMon g f).loader = s.loader := rfl
@[simp] theorem State.modMon_partRegs (g : Nat) (f : PartMon → PartMon) : (s.modMon g f).partRegs = s.partRegs := rfl
@[simp] theorem State.modMon_dog (g : Nat) (f : PartMon → PartMon) : (s.modMon g f).dog = s.dog := rfl
@[simp] theorem State.modMon_tags (g : Nat) (f : PartMon → PartMon) : (s.modMon g f).tags = s.tags := rfl
@[simp] theorem State.modMon_ctxJobs (g : Nat) (f : PartMon → PartMon) : (s.modMon g f).ctxJobs = s.ctxJobs := rfl
@[simp] theorem State.modMon_fab (g : Nat) (f : PartMon → PartMon) : (s.modMon g f).fab = s.fab := rfl
@[simp] theorem State.modMon_packs (g : Nat) (f : PartMon → PartMon) : (s.modMon g f).packs = s.packs := rfl
@[simp] theorem State.modMon_packCtx (g : Nat) (f : PartMon → PartMon) : (s.modMon g f).packCtx = s.packCtx := rfl
@[simp] theorem State.modMon_host (g : Nat) (f : PartMon → PartMon) : (s.modMon g f).host = s.host := rfl
@[simp] theorem State.modMon_usb (g : Nat) (f : PartMon → PartMon) : (s.modMon g f).usb = s.usb := rfl
@[simp] theorem State.modMon_sb (g : Nat) (f : PartMon → PartMon) : (s.modMon g f).sb = s.sb := rfl
@[simp] theorem State.modMon_stor (g : Nat) (f : PartMon → PartMon) : (s.modMon g f).stor = s.stor := rfl
@[simp] theorem State.modMon_leds (g : Nat) (f : PartMon → PartMon) : (s.modMon g f).leds = s.leds := rfl
@[simp] theorem State.modMon_ledRegs (g : Nat) (f : PartMon → PartMon) : (s.modMon g f).ledRegs = s.ledRegs := rfl
@[simp] theorem State.modMon_ckpts (g : Nat) (f : PartMon → PartMon) : (s.modMon g f).ckpts = s.ckpts := rfl
@[simp] theorem State.modMon_ckptRegs (g : Nat) (f : PartMon → PartMon) : (s.modMon g f).ckptRegs = s.ckptRegs := rfl
@[simp] theorem State.modMon_opt (g : Nat) (f : PartMon → PartMon) : (s.modMon g f).opt = s.opt := rfl
@[simp] theorem State.modMon_fuses (g : Nat) (f : PartMon → PartMon) : (s.modMon g f).fuses = s.fuses := rfl
@[simp] theorem State.modMon_flash (g : Nat) (f : PartMon → PartMon) : (s.modMon g f).flash = s.flash := rfl
@[simp] theorem State.modMon_boot (g : Nat) (f : PartMon → PartMon) : (s.modMon g f).boot = s.boot := rfl
@[simp] theorem State.modMon_upd (g : Nat) (f : PartMon → PartMon) : (s.modMon g f).upd = s.upd := rfl
@[simp] theorem State.modMon_mgmt (g : Nat) (f : PartMon → PartMon) : (s.modMon g f).mgmt = s.mgmt := rfl
@[simp] theorem State.modMon_therm (g : Nat) (f : PartMon → PartMon) : (s.modMon g f).therm = s.therm := rfl
@[simp] theorem State.modMon_meter (g : Nat) (f : PartMon → PartMon) : (s.modMon g f).meter = s.meter := rfl
@[simp] theorem State.modMon_meterHub (g : Nat) (f : PartMon → PartMon) : (s.modMon g f).meterHub = s.meterHub := rfl

/-! ### State.modSync -/

@[simp] theorem State.modSync_clk (g : Nat) (f : PartSync → PartSync) : (s.modSync g f).clk = s.clk := rfl
@[simp] theorem State.modSync_freeCtr (g : Nat) (f : PartSync → PartSync) : (s.modSync g f).freeCtr = s.freeCtr := rfl
@[simp] theorem State.modSync_pending (g : Nat) (f : PartSync → PartSync) : (s.modSync g f).pending = s.pending := rfl
@[simp] theorem State.modSync_tx (g : Nat) (f : PartSync → PartSync) : (s.modSync g f).tx = s.tx := rfl
@[simp] theorem State.modSync_pairSeqs (g : Nat) (f : PartSync → PartSync) : (s.modSync g f).pairSeqs = s.pairSeqs := rfl
@[simp] theorem State.modSync_latches (g : Nat) (f : PartSync → PartSync) : (s.modSync g f).latches = s.latches := rfl
@[simp] theorem State.modSync_glb (g : Nat) (f : PartSync → PartSync) : (s.modSync g f).glb = s.glb := rfl
@[simp] theorem State.modSync_weltUp (g : Nat) (f : PartSync → PartSync) : (s.modSync g f).weltUp = s.weltUp := rfl
@[simp] theorem State.modSync_weltNext (g : Nat) (f : PartSync → PartSync) : (s.modSync g f).weltNext = s.weltNext := rfl
@[simp] theorem State.modSync_tick (g : Nat) (f : PartSync → PartSync) : (s.modSync g f).tick = s.tick := rfl
@[simp] theorem State.modSync_gov (g : Nat) (f : PartSync → PartSync) : (s.modSync g f).gov = s.gov := rfl
@[simp] theorem State.modSync_starts (g : Nat) (f : PartSync → PartSync) : (s.modSync g f).starts = s.starts := rfl
@[simp] theorem State.modSync_ariths (g : Nat) (f : PartSync → PartSync) : (s.modSync g f).ariths = s.ariths := rfl
@[simp] theorem State.modSync_driftSel (g : Nat) (f : PartSync → PartSync) : (s.modSync g f).driftSel = s.driftSel := rfl
@[simp] theorem State.modSync_drifts (g : Nat) (f : PartSync → PartSync) : (s.modSync g f).drifts = s.drifts := rfl
@[simp] theorem State.modSync_memCtxs (g : Nat) (f : PartSync → PartSync) : (s.modSync g f).memCtxs = s.memCtxs := rfl
@[simp] theorem State.modSync_census (g : Nat) (f : PartSync → PartSync) : (s.modSync g f).census = s.census := rfl
@[simp] theorem State.modSync_loads (g : Nat) (f : PartSync → PartSync) : (s.modSync g f).loads = s.loads := rfl
@[simp] theorem State.modSync_ctxRuns (g : Nat) (f : PartSync → PartSync) : (s.modSync g f).ctxRuns = s.ctxRuns := rfl
@[simp] theorem State.modSync_clus (g : Nat) (f : PartSync → PartSync) : (s.modSync g f).clus = s.clus := rfl
@[simp] theorem State.modSync_chans (g : Nat) (f : PartSync → PartSync) : (s.modSync g f).chans = s.chans := rfl
@[simp] theorem State.modSync_memc (g : Nat) (f : PartSync → PartSync) : (s.modSync g f).memc = s.memc := rfl
@[simp] theorem State.modSync_mem (g : Nat) (f : PartSync → PartSync) : (s.modSync g f).mem = s.mem := rfl
@[simp] theorem State.modSync_gran (g : Nat) (f : PartSync → PartSync) : (s.modSync g f).gran = s.gran := rfl
@[simp] theorem State.modSync_ecc (g : Nat) (f : PartSync → PartSync) : (s.modSync g f).ecc = s.ecc := rfl
@[simp] theorem State.modSync_sync (g : Nat) (f : PartSync → PartSync) : (s.modSync g f).sync = s.sync := rfl
@[simp] theorem State.modSync_loader (g : Nat) (f : PartSync → PartSync) : (s.modSync g f).loader = s.loader := rfl
@[simp] theorem State.modSync_partRegs (g : Nat) (f : PartSync → PartSync) : (s.modSync g f).partRegs = s.partRegs := rfl
@[simp] theorem State.modSync_dog (g : Nat) (f : PartSync → PartSync) : (s.modSync g f).dog = s.dog := rfl
@[simp] theorem State.modSync_tags (g : Nat) (f : PartSync → PartSync) : (s.modSync g f).tags = s.tags := rfl
@[simp] theorem State.modSync_ctxJobs (g : Nat) (f : PartSync → PartSync) : (s.modSync g f).ctxJobs = s.ctxJobs := rfl
@[simp] theorem State.modSync_fab (g : Nat) (f : PartSync → PartSync) : (s.modSync g f).fab = s.fab := rfl
@[simp] theorem State.modSync_packs (g : Nat) (f : PartSync → PartSync) : (s.modSync g f).packs = s.packs := rfl
@[simp] theorem State.modSync_packCtx (g : Nat) (f : PartSync → PartSync) : (s.modSync g f).packCtx = s.packCtx := rfl
@[simp] theorem State.modSync_host (g : Nat) (f : PartSync → PartSync) : (s.modSync g f).host = s.host := rfl
@[simp] theorem State.modSync_usb (g : Nat) (f : PartSync → PartSync) : (s.modSync g f).usb = s.usb := rfl
@[simp] theorem State.modSync_sb (g : Nat) (f : PartSync → PartSync) : (s.modSync g f).sb = s.sb := rfl
@[simp] theorem State.modSync_stor (g : Nat) (f : PartSync → PartSync) : (s.modSync g f).stor = s.stor := rfl
@[simp] theorem State.modSync_leds (g : Nat) (f : PartSync → PartSync) : (s.modSync g f).leds = s.leds := rfl
@[simp] theorem State.modSync_ledRegs (g : Nat) (f : PartSync → PartSync) : (s.modSync g f).ledRegs = s.ledRegs := rfl
@[simp] theorem State.modSync_ckpts (g : Nat) (f : PartSync → PartSync) : (s.modSync g f).ckpts = s.ckpts := rfl
@[simp] theorem State.modSync_ckptRegs (g : Nat) (f : PartSync → PartSync) : (s.modSync g f).ckptRegs = s.ckptRegs := rfl
@[simp] theorem State.modSync_opt (g : Nat) (f : PartSync → PartSync) : (s.modSync g f).opt = s.opt := rfl
@[simp] theorem State.modSync_fuses (g : Nat) (f : PartSync → PartSync) : (s.modSync g f).fuses = s.fuses := rfl
@[simp] theorem State.modSync_flash (g : Nat) (f : PartSync → PartSync) : (s.modSync g f).flash = s.flash := rfl
@[simp] theorem State.modSync_boot (g : Nat) (f : PartSync → PartSync) : (s.modSync g f).boot = s.boot := rfl
@[simp] theorem State.modSync_upd (g : Nat) (f : PartSync → PartSync) : (s.modSync g f).upd = s.upd := rfl
@[simp] theorem State.modSync_mgmt (g : Nat) (f : PartSync → PartSync) : (s.modSync g f).mgmt = s.mgmt := rfl
@[simp] theorem State.modSync_therm (g : Nat) (f : PartSync → PartSync) : (s.modSync g f).therm = s.therm := rfl
@[simp] theorem State.modSync_meter (g : Nat) (f : PartSync → PartSync) : (s.modSync g f).meter = s.meter := rfl
@[simp] theorem State.modSync_meterHub (g : Nat) (f : PartSync → PartSync) : (s.modSync g f).meterHub = s.meterHub := rfl

/-! ### State.setClu -/

@[simp] theorem State.setClu_clk (k : Nat) (c : Clu) : (s.setClu k c).clk = s.clk := rfl
@[simp] theorem State.setClu_freeCtr (k : Nat) (c : Clu) : (s.setClu k c).freeCtr = s.freeCtr := rfl
@[simp] theorem State.setClu_pending (k : Nat) (c : Clu) : (s.setClu k c).pending = s.pending := rfl
@[simp] theorem State.setClu_tx (k : Nat) (c : Clu) : (s.setClu k c).tx = s.tx := rfl
@[simp] theorem State.setClu_pairSeqs (k : Nat) (c : Clu) : (s.setClu k c).pairSeqs = s.pairSeqs := rfl
@[simp] theorem State.setClu_latches (k : Nat) (c : Clu) : (s.setClu k c).latches = s.latches := rfl
@[simp] theorem State.setClu_glb (k : Nat) (c : Clu) : (s.setClu k c).glb = s.glb := rfl
@[simp] theorem State.setClu_weltUp (k : Nat) (c : Clu) : (s.setClu k c).weltUp = s.weltUp := rfl
@[simp] theorem State.setClu_weltNext (k : Nat) (c : Clu) : (s.setClu k c).weltNext = s.weltNext := rfl
@[simp] theorem State.setClu_tick (k : Nat) (c : Clu) : (s.setClu k c).tick = s.tick := rfl
@[simp] theorem State.setClu_gov (k : Nat) (c : Clu) : (s.setClu k c).gov = s.gov := rfl
@[simp] theorem State.setClu_starts (k : Nat) (c : Clu) : (s.setClu k c).starts = s.starts := rfl
@[simp] theorem State.setClu_ariths (k : Nat) (c : Clu) : (s.setClu k c).ariths = s.ariths := rfl
@[simp] theorem State.setClu_driftSel (k : Nat) (c : Clu) : (s.setClu k c).driftSel = s.driftSel := rfl
@[simp] theorem State.setClu_drifts (k : Nat) (c : Clu) : (s.setClu k c).drifts = s.drifts := rfl
@[simp] theorem State.setClu_memCtxs (k : Nat) (c : Clu) : (s.setClu k c).memCtxs = s.memCtxs := rfl
@[simp] theorem State.setClu_census (k : Nat) (c : Clu) : (s.setClu k c).census = s.census := rfl
@[simp] theorem State.setClu_loads (k : Nat) (c : Clu) : (s.setClu k c).loads = s.loads := rfl
@[simp] theorem State.setClu_ctxRuns (k : Nat) (c : Clu) : (s.setClu k c).ctxRuns = s.ctxRuns := rfl
@[simp] theorem State.setClu_parts (k : Nat) (c : Clu) : (s.setClu k c).parts = s.parts := rfl
@[simp] theorem State.setClu_clus (k : Nat) (c : Clu) : (s.setClu k c).clus = Tab.set s.clus k c := rfl
@[simp] theorem State.setClu_chans (k : Nat) (c : Clu) : (s.setClu k c).chans = s.chans := rfl
@[simp] theorem State.setClu_memc (k : Nat) (c : Clu) : (s.setClu k c).memc = s.memc := rfl
@[simp] theorem State.setClu_mem (k : Nat) (c : Clu) : (s.setClu k c).mem = s.mem := rfl
@[simp] theorem State.setClu_gran (k : Nat) (c : Clu) : (s.setClu k c).gran = s.gran := rfl
@[simp] theorem State.setClu_ecc (k : Nat) (c : Clu) : (s.setClu k c).ecc = s.ecc := rfl
@[simp] theorem State.setClu_sync (k : Nat) (c : Clu) : (s.setClu k c).sync = s.sync := rfl
@[simp] theorem State.setClu_loader (k : Nat) (c : Clu) : (s.setClu k c).loader = s.loader := rfl
@[simp] theorem State.setClu_partRegs (k : Nat) (c : Clu) : (s.setClu k c).partRegs = s.partRegs := rfl
@[simp] theorem State.setClu_dog (k : Nat) (c : Clu) : (s.setClu k c).dog = s.dog := rfl
@[simp] theorem State.setClu_tags (k : Nat) (c : Clu) : (s.setClu k c).tags = s.tags := rfl
@[simp] theorem State.setClu_ctxJobs (k : Nat) (c : Clu) : (s.setClu k c).ctxJobs = s.ctxJobs := rfl
@[simp] theorem State.setClu_fab (k : Nat) (c : Clu) : (s.setClu k c).fab = s.fab := rfl
@[simp] theorem State.setClu_packs (k : Nat) (c : Clu) : (s.setClu k c).packs = s.packs := rfl
@[simp] theorem State.setClu_packCtx (k : Nat) (c : Clu) : (s.setClu k c).packCtx = s.packCtx := rfl
@[simp] theorem State.setClu_host (k : Nat) (c : Clu) : (s.setClu k c).host = s.host := rfl
@[simp] theorem State.setClu_usb (k : Nat) (c : Clu) : (s.setClu k c).usb = s.usb := rfl
@[simp] theorem State.setClu_sb (k : Nat) (c : Clu) : (s.setClu k c).sb = s.sb := rfl
@[simp] theorem State.setClu_stor (k : Nat) (c : Clu) : (s.setClu k c).stor = s.stor := rfl
@[simp] theorem State.setClu_leds (k : Nat) (c : Clu) : (s.setClu k c).leds = s.leds := rfl
@[simp] theorem State.setClu_ledRegs (k : Nat) (c : Clu) : (s.setClu k c).ledRegs = s.ledRegs := rfl
@[simp] theorem State.setClu_ckpts (k : Nat) (c : Clu) : (s.setClu k c).ckpts = s.ckpts := rfl
@[simp] theorem State.setClu_ckptRegs (k : Nat) (c : Clu) : (s.setClu k c).ckptRegs = s.ckptRegs := rfl
@[simp] theorem State.setClu_opt (k : Nat) (c : Clu) : (s.setClu k c).opt = s.opt := rfl
@[simp] theorem State.setClu_fuses (k : Nat) (c : Clu) : (s.setClu k c).fuses = s.fuses := rfl
@[simp] theorem State.setClu_flash (k : Nat) (c : Clu) : (s.setClu k c).flash = s.flash := rfl
@[simp] theorem State.setClu_boot (k : Nat) (c : Clu) : (s.setClu k c).boot = s.boot := rfl
@[simp] theorem State.setClu_upd (k : Nat) (c : Clu) : (s.setClu k c).upd = s.upd := rfl
@[simp] theorem State.setClu_mgmt (k : Nat) (c : Clu) : (s.setClu k c).mgmt = s.mgmt := rfl
@[simp] theorem State.setClu_therm (k : Nat) (c : Clu) : (s.setClu k c).therm = s.therm := rfl
@[simp] theorem State.setClu_meter (k : Nat) (c : Clu) : (s.setClu k c).meter = s.meter := rfl
@[simp] theorem State.setClu_meterHub (k : Nat) (c : Clu) : (s.setClu k c).meterHub = s.meterHub := rfl

/-! ### State.modClu -/

@[simp] theorem State.modClu_clk (k : Nat) (f : Clu → Clu) : (s.modClu k f).clk = s.clk := rfl
@[simp] theorem State.modClu_freeCtr (k : Nat) (f : Clu → Clu) : (s.modClu k f).freeCtr = s.freeCtr := rfl
@[simp] theorem State.modClu_pending (k : Nat) (f : Clu → Clu) : (s.modClu k f).pending = s.pending := rfl
@[simp] theorem State.modClu_tx (k : Nat) (f : Clu → Clu) : (s.modClu k f).tx = s.tx := rfl
@[simp] theorem State.modClu_pairSeqs (k : Nat) (f : Clu → Clu) : (s.modClu k f).pairSeqs = s.pairSeqs := rfl
@[simp] theorem State.modClu_latches (k : Nat) (f : Clu → Clu) : (s.modClu k f).latches = s.latches := rfl
@[simp] theorem State.modClu_glb (k : Nat) (f : Clu → Clu) : (s.modClu k f).glb = s.glb := rfl
@[simp] theorem State.modClu_weltUp (k : Nat) (f : Clu → Clu) : (s.modClu k f).weltUp = s.weltUp := rfl
@[simp] theorem State.modClu_weltNext (k : Nat) (f : Clu → Clu) : (s.modClu k f).weltNext = s.weltNext := rfl
@[simp] theorem State.modClu_tick (k : Nat) (f : Clu → Clu) : (s.modClu k f).tick = s.tick := rfl
@[simp] theorem State.modClu_gov (k : Nat) (f : Clu → Clu) : (s.modClu k f).gov = s.gov := rfl
@[simp] theorem State.modClu_starts (k : Nat) (f : Clu → Clu) : (s.modClu k f).starts = s.starts := rfl
@[simp] theorem State.modClu_ariths (k : Nat) (f : Clu → Clu) : (s.modClu k f).ariths = s.ariths := rfl
@[simp] theorem State.modClu_driftSel (k : Nat) (f : Clu → Clu) : (s.modClu k f).driftSel = s.driftSel := rfl
@[simp] theorem State.modClu_drifts (k : Nat) (f : Clu → Clu) : (s.modClu k f).drifts = s.drifts := rfl
@[simp] theorem State.modClu_memCtxs (k : Nat) (f : Clu → Clu) : (s.modClu k f).memCtxs = s.memCtxs := rfl
@[simp] theorem State.modClu_census (k : Nat) (f : Clu → Clu) : (s.modClu k f).census = s.census := rfl
@[simp] theorem State.modClu_loads (k : Nat) (f : Clu → Clu) : (s.modClu k f).loads = s.loads := rfl
@[simp] theorem State.modClu_ctxRuns (k : Nat) (f : Clu → Clu) : (s.modClu k f).ctxRuns = s.ctxRuns := rfl
@[simp] theorem State.modClu_parts (k : Nat) (f : Clu → Clu) : (s.modClu k f).parts = s.parts := rfl
@[simp] theorem State.modClu_chans (k : Nat) (f : Clu → Clu) : (s.modClu k f).chans = s.chans := rfl
@[simp] theorem State.modClu_memc (k : Nat) (f : Clu → Clu) : (s.modClu k f).memc = s.memc := rfl
@[simp] theorem State.modClu_mem (k : Nat) (f : Clu → Clu) : (s.modClu k f).mem = s.mem := rfl
@[simp] theorem State.modClu_gran (k : Nat) (f : Clu → Clu) : (s.modClu k f).gran = s.gran := rfl
@[simp] theorem State.modClu_ecc (k : Nat) (f : Clu → Clu) : (s.modClu k f).ecc = s.ecc := rfl
@[simp] theorem State.modClu_sync (k : Nat) (f : Clu → Clu) : (s.modClu k f).sync = s.sync := rfl
@[simp] theorem State.modClu_loader (k : Nat) (f : Clu → Clu) : (s.modClu k f).loader = s.loader := rfl
@[simp] theorem State.modClu_partRegs (k : Nat) (f : Clu → Clu) : (s.modClu k f).partRegs = s.partRegs := rfl
@[simp] theorem State.modClu_dog (k : Nat) (f : Clu → Clu) : (s.modClu k f).dog = s.dog := rfl
@[simp] theorem State.modClu_tags (k : Nat) (f : Clu → Clu) : (s.modClu k f).tags = s.tags := rfl
@[simp] theorem State.modClu_ctxJobs (k : Nat) (f : Clu → Clu) : (s.modClu k f).ctxJobs = s.ctxJobs := rfl
@[simp] theorem State.modClu_fab (k : Nat) (f : Clu → Clu) : (s.modClu k f).fab = s.fab := rfl
@[simp] theorem State.modClu_packs (k : Nat) (f : Clu → Clu) : (s.modClu k f).packs = s.packs := rfl
@[simp] theorem State.modClu_packCtx (k : Nat) (f : Clu → Clu) : (s.modClu k f).packCtx = s.packCtx := rfl
@[simp] theorem State.modClu_host (k : Nat) (f : Clu → Clu) : (s.modClu k f).host = s.host := rfl
@[simp] theorem State.modClu_usb (k : Nat) (f : Clu → Clu) : (s.modClu k f).usb = s.usb := rfl
@[simp] theorem State.modClu_sb (k : Nat) (f : Clu → Clu) : (s.modClu k f).sb = s.sb := rfl
@[simp] theorem State.modClu_stor (k : Nat) (f : Clu → Clu) : (s.modClu k f).stor = s.stor := rfl
@[simp] theorem State.modClu_leds (k : Nat) (f : Clu → Clu) : (s.modClu k f).leds = s.leds := rfl
@[simp] theorem State.modClu_ledRegs (k : Nat) (f : Clu → Clu) : (s.modClu k f).ledRegs = s.ledRegs := rfl
@[simp] theorem State.modClu_ckpts (k : Nat) (f : Clu → Clu) : (s.modClu k f).ckpts = s.ckpts := rfl
@[simp] theorem State.modClu_ckptRegs (k : Nat) (f : Clu → Clu) : (s.modClu k f).ckptRegs = s.ckptRegs := rfl
@[simp] theorem State.modClu_opt (k : Nat) (f : Clu → Clu) : (s.modClu k f).opt = s.opt := rfl
@[simp] theorem State.modClu_fuses (k : Nat) (f : Clu → Clu) : (s.modClu k f).fuses = s.fuses := rfl
@[simp] theorem State.modClu_flash (k : Nat) (f : Clu → Clu) : (s.modClu k f).flash = s.flash := rfl
@[simp] theorem State.modClu_boot (k : Nat) (f : Clu → Clu) : (s.modClu k f).boot = s.boot := rfl
@[simp] theorem State.modClu_upd (k : Nat) (f : Clu → Clu) : (s.modClu k f).upd = s.upd := rfl
@[simp] theorem State.modClu_mgmt (k : Nat) (f : Clu → Clu) : (s.modClu k f).mgmt = s.mgmt := rfl
@[simp] theorem State.modClu_therm (k : Nat) (f : Clu → Clu) : (s.modClu k f).therm = s.therm := rfl
@[simp] theorem State.modClu_meter (k : Nat) (f : Clu → Clu) : (s.modClu k f).meter = s.meter := rfl
@[simp] theorem State.modClu_meterHub (k : Nat) (f : Clu → Clu) : (s.modClu k f).meterHub = s.meterHub := rfl

/-! ### State.modChan -/

@[simp] theorem State.modChan_clk (k : Nat) (f : Chan → Chan) : (s.modChan k f).clk = s.clk := rfl
@[simp] theorem State.modChan_freeCtr (k : Nat) (f : Chan → Chan) : (s.modChan k f).freeCtr = s.freeCtr := rfl
@[simp] theorem State.modChan_pending (k : Nat) (f : Chan → Chan) : (s.modChan k f).pending = s.pending := rfl
@[simp] theorem State.modChan_tx (k : Nat) (f : Chan → Chan) : (s.modChan k f).tx = s.tx := rfl
@[simp] theorem State.modChan_pairSeqs (k : Nat) (f : Chan → Chan) : (s.modChan k f).pairSeqs = s.pairSeqs := rfl
@[simp] theorem State.modChan_latches (k : Nat) (f : Chan → Chan) : (s.modChan k f).latches = s.latches := rfl
@[simp] theorem State.modChan_glb (k : Nat) (f : Chan → Chan) : (s.modChan k f).glb = s.glb := rfl
@[simp] theorem State.modChan_weltUp (k : Nat) (f : Chan → Chan) : (s.modChan k f).weltUp = s.weltUp := rfl
@[simp] theorem State.modChan_weltNext (k : Nat) (f : Chan → Chan) : (s.modChan k f).weltNext = s.weltNext := rfl
@[simp] theorem State.modChan_tick (k : Nat) (f : Chan → Chan) : (s.modChan k f).tick = s.tick := rfl
@[simp] theorem State.modChan_gov (k : Nat) (f : Chan → Chan) : (s.modChan k f).gov = s.gov := rfl
@[simp] theorem State.modChan_starts (k : Nat) (f : Chan → Chan) : (s.modChan k f).starts = s.starts := rfl
@[simp] theorem State.modChan_ariths (k : Nat) (f : Chan → Chan) : (s.modChan k f).ariths = s.ariths := rfl
@[simp] theorem State.modChan_driftSel (k : Nat) (f : Chan → Chan) : (s.modChan k f).driftSel = s.driftSel := rfl
@[simp] theorem State.modChan_drifts (k : Nat) (f : Chan → Chan) : (s.modChan k f).drifts = s.drifts := rfl
@[simp] theorem State.modChan_memCtxs (k : Nat) (f : Chan → Chan) : (s.modChan k f).memCtxs = s.memCtxs := rfl
@[simp] theorem State.modChan_census (k : Nat) (f : Chan → Chan) : (s.modChan k f).census = s.census := rfl
@[simp] theorem State.modChan_loads (k : Nat) (f : Chan → Chan) : (s.modChan k f).loads = s.loads := rfl
@[simp] theorem State.modChan_ctxRuns (k : Nat) (f : Chan → Chan) : (s.modChan k f).ctxRuns = s.ctxRuns := rfl
@[simp] theorem State.modChan_parts (k : Nat) (f : Chan → Chan) : (s.modChan k f).parts = s.parts := rfl
@[simp] theorem State.modChan_clus (k : Nat) (f : Chan → Chan) : (s.modChan k f).clus = s.clus := rfl
@[simp] theorem State.modChan_memc (k : Nat) (f : Chan → Chan) : (s.modChan k f).memc = s.memc := rfl
@[simp] theorem State.modChan_mem (k : Nat) (f : Chan → Chan) : (s.modChan k f).mem = s.mem := rfl
@[simp] theorem State.modChan_gran (k : Nat) (f : Chan → Chan) : (s.modChan k f).gran = s.gran := rfl
@[simp] theorem State.modChan_ecc (k : Nat) (f : Chan → Chan) : (s.modChan k f).ecc = s.ecc := rfl
@[simp] theorem State.modChan_sync (k : Nat) (f : Chan → Chan) : (s.modChan k f).sync = s.sync := rfl
@[simp] theorem State.modChan_loader (k : Nat) (f : Chan → Chan) : (s.modChan k f).loader = s.loader := rfl
@[simp] theorem State.modChan_partRegs (k : Nat) (f : Chan → Chan) : (s.modChan k f).partRegs = s.partRegs := rfl
@[simp] theorem State.modChan_dog (k : Nat) (f : Chan → Chan) : (s.modChan k f).dog = s.dog := rfl
@[simp] theorem State.modChan_tags (k : Nat) (f : Chan → Chan) : (s.modChan k f).tags = s.tags := rfl
@[simp] theorem State.modChan_ctxJobs (k : Nat) (f : Chan → Chan) : (s.modChan k f).ctxJobs = s.ctxJobs := rfl
@[simp] theorem State.modChan_fab (k : Nat) (f : Chan → Chan) : (s.modChan k f).fab = s.fab := rfl
@[simp] theorem State.modChan_packs (k : Nat) (f : Chan → Chan) : (s.modChan k f).packs = s.packs := rfl
@[simp] theorem State.modChan_packCtx (k : Nat) (f : Chan → Chan) : (s.modChan k f).packCtx = s.packCtx := rfl
@[simp] theorem State.modChan_host (k : Nat) (f : Chan → Chan) : (s.modChan k f).host = s.host := rfl
@[simp] theorem State.modChan_usb (k : Nat) (f : Chan → Chan) : (s.modChan k f).usb = s.usb := rfl
@[simp] theorem State.modChan_sb (k : Nat) (f : Chan → Chan) : (s.modChan k f).sb = s.sb := rfl
@[simp] theorem State.modChan_stor (k : Nat) (f : Chan → Chan) : (s.modChan k f).stor = s.stor := rfl
@[simp] theorem State.modChan_leds (k : Nat) (f : Chan → Chan) : (s.modChan k f).leds = s.leds := rfl
@[simp] theorem State.modChan_ledRegs (k : Nat) (f : Chan → Chan) : (s.modChan k f).ledRegs = s.ledRegs := rfl
@[simp] theorem State.modChan_ckpts (k : Nat) (f : Chan → Chan) : (s.modChan k f).ckpts = s.ckpts := rfl
@[simp] theorem State.modChan_ckptRegs (k : Nat) (f : Chan → Chan) : (s.modChan k f).ckptRegs = s.ckptRegs := rfl
@[simp] theorem State.modChan_opt (k : Nat) (f : Chan → Chan) : (s.modChan k f).opt = s.opt := rfl
@[simp] theorem State.modChan_fuses (k : Nat) (f : Chan → Chan) : (s.modChan k f).fuses = s.fuses := rfl
@[simp] theorem State.modChan_flash (k : Nat) (f : Chan → Chan) : (s.modChan k f).flash = s.flash := rfl
@[simp] theorem State.modChan_boot (k : Nat) (f : Chan → Chan) : (s.modChan k f).boot = s.boot := rfl
@[simp] theorem State.modChan_upd (k : Nat) (f : Chan → Chan) : (s.modChan k f).upd = s.upd := rfl
@[simp] theorem State.modChan_mgmt (k : Nat) (f : Chan → Chan) : (s.modChan k f).mgmt = s.mgmt := rfl
@[simp] theorem State.modChan_therm (k : Nat) (f : Chan → Chan) : (s.modChan k f).therm = s.therm := rfl
@[simp] theorem State.modChan_meter (k : Nat) (f : Chan → Chan) : (s.modChan k f).meter = s.meter := rfl
@[simp] theorem State.modChan_meterHub (k : Nat) (f : Chan → Chan) : (s.modChan k f).meterHub = s.meterHub := rfl

/-! ### State.modRun -/

@[simp] theorem State.modRun_clk (c : Nat) (f : CtxRun → CtxRun) : (s.modRun c f).clk = s.clk := rfl
@[simp] theorem State.modRun_freeCtr (c : Nat) (f : CtxRun → CtxRun) : (s.modRun c f).freeCtr = s.freeCtr := rfl
@[simp] theorem State.modRun_pending (c : Nat) (f : CtxRun → CtxRun) : (s.modRun c f).pending = s.pending := rfl
@[simp] theorem State.modRun_tx (c : Nat) (f : CtxRun → CtxRun) : (s.modRun c f).tx = s.tx := rfl
@[simp] theorem State.modRun_pairSeqs (c : Nat) (f : CtxRun → CtxRun) : (s.modRun c f).pairSeqs = s.pairSeqs := rfl
@[simp] theorem State.modRun_latches (c : Nat) (f : CtxRun → CtxRun) : (s.modRun c f).latches = s.latches := rfl
@[simp] theorem State.modRun_glb (c : Nat) (f : CtxRun → CtxRun) : (s.modRun c f).glb = s.glb := rfl
@[simp] theorem State.modRun_weltUp (c : Nat) (f : CtxRun → CtxRun) : (s.modRun c f).weltUp = s.weltUp := rfl
@[simp] theorem State.modRun_weltNext (c : Nat) (f : CtxRun → CtxRun) : (s.modRun c f).weltNext = s.weltNext := rfl
@[simp] theorem State.modRun_tick (c : Nat) (f : CtxRun → CtxRun) : (s.modRun c f).tick = s.tick := rfl
@[simp] theorem State.modRun_gov (c : Nat) (f : CtxRun → CtxRun) : (s.modRun c f).gov = s.gov := rfl
@[simp] theorem State.modRun_starts (c : Nat) (f : CtxRun → CtxRun) : (s.modRun c f).starts = s.starts := rfl
@[simp] theorem State.modRun_ariths (c : Nat) (f : CtxRun → CtxRun) : (s.modRun c f).ariths = s.ariths := rfl
@[simp] theorem State.modRun_driftSel (c : Nat) (f : CtxRun → CtxRun) : (s.modRun c f).driftSel = s.driftSel := rfl
@[simp] theorem State.modRun_drifts (c : Nat) (f : CtxRun → CtxRun) : (s.modRun c f).drifts = s.drifts := rfl
@[simp] theorem State.modRun_memCtxs (c : Nat) (f : CtxRun → CtxRun) : (s.modRun c f).memCtxs = s.memCtxs := rfl
@[simp] theorem State.modRun_census (c : Nat) (f : CtxRun → CtxRun) : (s.modRun c f).census = s.census := rfl
@[simp] theorem State.modRun_loads (c : Nat) (f : CtxRun → CtxRun) : (s.modRun c f).loads = s.loads := rfl
@[simp] theorem State.modRun_parts (c : Nat) (f : CtxRun → CtxRun) : (s.modRun c f).parts = s.parts := rfl
@[simp] theorem State.modRun_clus (c : Nat) (f : CtxRun → CtxRun) : (s.modRun c f).clus = s.clus := rfl
@[simp] theorem State.modRun_chans (c : Nat) (f : CtxRun → CtxRun) : (s.modRun c f).chans = s.chans := rfl
@[simp] theorem State.modRun_memc (c : Nat) (f : CtxRun → CtxRun) : (s.modRun c f).memc = s.memc := rfl
@[simp] theorem State.modRun_mem (c : Nat) (f : CtxRun → CtxRun) : (s.modRun c f).mem = s.mem := rfl
@[simp] theorem State.modRun_gran (c : Nat) (f : CtxRun → CtxRun) : (s.modRun c f).gran = s.gran := rfl
@[simp] theorem State.modRun_ecc (c : Nat) (f : CtxRun → CtxRun) : (s.modRun c f).ecc = s.ecc := rfl
@[simp] theorem State.modRun_sync (c : Nat) (f : CtxRun → CtxRun) : (s.modRun c f).sync = s.sync := rfl
@[simp] theorem State.modRun_loader (c : Nat) (f : CtxRun → CtxRun) : (s.modRun c f).loader = s.loader := rfl
@[simp] theorem State.modRun_partRegs (c : Nat) (f : CtxRun → CtxRun) : (s.modRun c f).partRegs = s.partRegs := rfl
@[simp] theorem State.modRun_dog (c : Nat) (f : CtxRun → CtxRun) : (s.modRun c f).dog = s.dog := rfl
@[simp] theorem State.modRun_tags (c : Nat) (f : CtxRun → CtxRun) : (s.modRun c f).tags = s.tags := rfl
@[simp] theorem State.modRun_ctxJobs (c : Nat) (f : CtxRun → CtxRun) : (s.modRun c f).ctxJobs = s.ctxJobs := rfl
@[simp] theorem State.modRun_fab (c : Nat) (f : CtxRun → CtxRun) : (s.modRun c f).fab = s.fab := rfl
@[simp] theorem State.modRun_packs (c : Nat) (f : CtxRun → CtxRun) : (s.modRun c f).packs = s.packs := rfl
@[simp] theorem State.modRun_packCtx (c : Nat) (f : CtxRun → CtxRun) : (s.modRun c f).packCtx = s.packCtx := rfl
@[simp] theorem State.modRun_host (c : Nat) (f : CtxRun → CtxRun) : (s.modRun c f).host = s.host := rfl
@[simp] theorem State.modRun_usb (c : Nat) (f : CtxRun → CtxRun) : (s.modRun c f).usb = s.usb := rfl
@[simp] theorem State.modRun_sb (c : Nat) (f : CtxRun → CtxRun) : (s.modRun c f).sb = s.sb := rfl
@[simp] theorem State.modRun_stor (c : Nat) (f : CtxRun → CtxRun) : (s.modRun c f).stor = s.stor := rfl
@[simp] theorem State.modRun_leds (c : Nat) (f : CtxRun → CtxRun) : (s.modRun c f).leds = s.leds := rfl
@[simp] theorem State.modRun_ledRegs (c : Nat) (f : CtxRun → CtxRun) : (s.modRun c f).ledRegs = s.ledRegs := rfl
@[simp] theorem State.modRun_ckpts (c : Nat) (f : CtxRun → CtxRun) : (s.modRun c f).ckpts = s.ckpts := rfl
@[simp] theorem State.modRun_ckptRegs (c : Nat) (f : CtxRun → CtxRun) : (s.modRun c f).ckptRegs = s.ckptRegs := rfl
@[simp] theorem State.modRun_opt (c : Nat) (f : CtxRun → CtxRun) : (s.modRun c f).opt = s.opt := rfl
@[simp] theorem State.modRun_fuses (c : Nat) (f : CtxRun → CtxRun) : (s.modRun c f).fuses = s.fuses := rfl
@[simp] theorem State.modRun_flash (c : Nat) (f : CtxRun → CtxRun) : (s.modRun c f).flash = s.flash := rfl
@[simp] theorem State.modRun_boot (c : Nat) (f : CtxRun → CtxRun) : (s.modRun c f).boot = s.boot := rfl
@[simp] theorem State.modRun_upd (c : Nat) (f : CtxRun → CtxRun) : (s.modRun c f).upd = s.upd := rfl
@[simp] theorem State.modRun_mgmt (c : Nat) (f : CtxRun → CtxRun) : (s.modRun c f).mgmt = s.mgmt := rfl
@[simp] theorem State.modRun_therm (c : Nat) (f : CtxRun → CtxRun) : (s.modRun c f).therm = s.therm := rfl
@[simp] theorem State.modRun_meter (c : Nat) (f : CtxRun → CtxRun) : (s.modRun c f).meter = s.meter := rfl
@[simp] theorem State.modRun_meterHub (c : Nat) (f : CtxRun → CtxRun) : (s.modRun c f).meterHub = s.meterHub := rfl

/-! ### State.modStart -/

@[simp] theorem State.modStart_clk (c : Nat) (f : Start → Start) : (s.modStart c f).clk = s.clk := rfl
@[simp] theorem State.modStart_freeCtr (c : Nat) (f : Start → Start) : (s.modStart c f).freeCtr = s.freeCtr := rfl
@[simp] theorem State.modStart_pending (c : Nat) (f : Start → Start) : (s.modStart c f).pending = s.pending := rfl
@[simp] theorem State.modStart_tx (c : Nat) (f : Start → Start) : (s.modStart c f).tx = s.tx := rfl
@[simp] theorem State.modStart_pairSeqs (c : Nat) (f : Start → Start) : (s.modStart c f).pairSeqs = s.pairSeqs := rfl
@[simp] theorem State.modStart_latches (c : Nat) (f : Start → Start) : (s.modStart c f).latches = s.latches := rfl
@[simp] theorem State.modStart_glb (c : Nat) (f : Start → Start) : (s.modStart c f).glb = s.glb := rfl
@[simp] theorem State.modStart_weltUp (c : Nat) (f : Start → Start) : (s.modStart c f).weltUp = s.weltUp := rfl
@[simp] theorem State.modStart_weltNext (c : Nat) (f : Start → Start) : (s.modStart c f).weltNext = s.weltNext := rfl
@[simp] theorem State.modStart_tick (c : Nat) (f : Start → Start) : (s.modStart c f).tick = s.tick := rfl
@[simp] theorem State.modStart_gov (c : Nat) (f : Start → Start) : (s.modStart c f).gov = s.gov := rfl
@[simp] theorem State.modStart_ariths (c : Nat) (f : Start → Start) : (s.modStart c f).ariths = s.ariths := rfl
@[simp] theorem State.modStart_driftSel (c : Nat) (f : Start → Start) : (s.modStart c f).driftSel = s.driftSel := rfl
@[simp] theorem State.modStart_drifts (c : Nat) (f : Start → Start) : (s.modStart c f).drifts = s.drifts := rfl
@[simp] theorem State.modStart_memCtxs (c : Nat) (f : Start → Start) : (s.modStart c f).memCtxs = s.memCtxs := rfl
@[simp] theorem State.modStart_census (c : Nat) (f : Start → Start) : (s.modStart c f).census = s.census := rfl
@[simp] theorem State.modStart_loads (c : Nat) (f : Start → Start) : (s.modStart c f).loads = s.loads := rfl
@[simp] theorem State.modStart_ctxRuns (c : Nat) (f : Start → Start) : (s.modStart c f).ctxRuns = s.ctxRuns := rfl
@[simp] theorem State.modStart_parts (c : Nat) (f : Start → Start) : (s.modStart c f).parts = s.parts := rfl
@[simp] theorem State.modStart_clus (c : Nat) (f : Start → Start) : (s.modStart c f).clus = s.clus := rfl
@[simp] theorem State.modStart_chans (c : Nat) (f : Start → Start) : (s.modStart c f).chans = s.chans := rfl
@[simp] theorem State.modStart_memc (c : Nat) (f : Start → Start) : (s.modStart c f).memc = s.memc := rfl
@[simp] theorem State.modStart_mem (c : Nat) (f : Start → Start) : (s.modStart c f).mem = s.mem := rfl
@[simp] theorem State.modStart_gran (c : Nat) (f : Start → Start) : (s.modStart c f).gran = s.gran := rfl
@[simp] theorem State.modStart_ecc (c : Nat) (f : Start → Start) : (s.modStart c f).ecc = s.ecc := rfl
@[simp] theorem State.modStart_sync (c : Nat) (f : Start → Start) : (s.modStart c f).sync = s.sync := rfl
@[simp] theorem State.modStart_loader (c : Nat) (f : Start → Start) : (s.modStart c f).loader = s.loader := rfl
@[simp] theorem State.modStart_partRegs (c : Nat) (f : Start → Start) : (s.modStart c f).partRegs = s.partRegs := rfl
@[simp] theorem State.modStart_dog (c : Nat) (f : Start → Start) : (s.modStart c f).dog = s.dog := rfl
@[simp] theorem State.modStart_tags (c : Nat) (f : Start → Start) : (s.modStart c f).tags = s.tags := rfl
@[simp] theorem State.modStart_ctxJobs (c : Nat) (f : Start → Start) : (s.modStart c f).ctxJobs = s.ctxJobs := rfl
@[simp] theorem State.modStart_fab (c : Nat) (f : Start → Start) : (s.modStart c f).fab = s.fab := rfl
@[simp] theorem State.modStart_packs (c : Nat) (f : Start → Start) : (s.modStart c f).packs = s.packs := rfl
@[simp] theorem State.modStart_packCtx (c : Nat) (f : Start → Start) : (s.modStart c f).packCtx = s.packCtx := rfl
@[simp] theorem State.modStart_host (c : Nat) (f : Start → Start) : (s.modStart c f).host = s.host := rfl
@[simp] theorem State.modStart_usb (c : Nat) (f : Start → Start) : (s.modStart c f).usb = s.usb := rfl
@[simp] theorem State.modStart_sb (c : Nat) (f : Start → Start) : (s.modStart c f).sb = s.sb := rfl
@[simp] theorem State.modStart_stor (c : Nat) (f : Start → Start) : (s.modStart c f).stor = s.stor := rfl
@[simp] theorem State.modStart_leds (c : Nat) (f : Start → Start) : (s.modStart c f).leds = s.leds := rfl
@[simp] theorem State.modStart_ledRegs (c : Nat) (f : Start → Start) : (s.modStart c f).ledRegs = s.ledRegs := rfl
@[simp] theorem State.modStart_ckpts (c : Nat) (f : Start → Start) : (s.modStart c f).ckpts = s.ckpts := rfl
@[simp] theorem State.modStart_ckptRegs (c : Nat) (f : Start → Start) : (s.modStart c f).ckptRegs = s.ckptRegs := rfl
@[simp] theorem State.modStart_opt (c : Nat) (f : Start → Start) : (s.modStart c f).opt = s.opt := rfl
@[simp] theorem State.modStart_fuses (c : Nat) (f : Start → Start) : (s.modStart c f).fuses = s.fuses := rfl
@[simp] theorem State.modStart_flash (c : Nat) (f : Start → Start) : (s.modStart c f).flash = s.flash := rfl
@[simp] theorem State.modStart_boot (c : Nat) (f : Start → Start) : (s.modStart c f).boot = s.boot := rfl
@[simp] theorem State.modStart_upd (c : Nat) (f : Start → Start) : (s.modStart c f).upd = s.upd := rfl
@[simp] theorem State.modStart_mgmt (c : Nat) (f : Start → Start) : (s.modStart c f).mgmt = s.mgmt := rfl
@[simp] theorem State.modStart_therm (c : Nat) (f : Start → Start) : (s.modStart c f).therm = s.therm := rfl
@[simp] theorem State.modStart_meter (c : Nat) (f : Start → Start) : (s.modStart c f).meter = s.meter := rfl
@[simp] theorem State.modStart_meterHub (c : Nat) (f : Start → Start) : (s.modStart c f).meterHub = s.meterHub := rfl

/-! ### State.modArith -/

@[simp] theorem State.modArith_clk (c : Nat) (f : Arith → Arith) : (s.modArith c f).clk = s.clk := rfl
@[simp] theorem State.modArith_freeCtr (c : Nat) (f : Arith → Arith) : (s.modArith c f).freeCtr = s.freeCtr := rfl
@[simp] theorem State.modArith_pending (c : Nat) (f : Arith → Arith) : (s.modArith c f).pending = s.pending := rfl
@[simp] theorem State.modArith_tx (c : Nat) (f : Arith → Arith) : (s.modArith c f).tx = s.tx := rfl
@[simp] theorem State.modArith_pairSeqs (c : Nat) (f : Arith → Arith) : (s.modArith c f).pairSeqs = s.pairSeqs := rfl
@[simp] theorem State.modArith_latches (c : Nat) (f : Arith → Arith) : (s.modArith c f).latches = s.latches := rfl
@[simp] theorem State.modArith_glb (c : Nat) (f : Arith → Arith) : (s.modArith c f).glb = s.glb := rfl
@[simp] theorem State.modArith_weltUp (c : Nat) (f : Arith → Arith) : (s.modArith c f).weltUp = s.weltUp := rfl
@[simp] theorem State.modArith_weltNext (c : Nat) (f : Arith → Arith) : (s.modArith c f).weltNext = s.weltNext := rfl
@[simp] theorem State.modArith_tick (c : Nat) (f : Arith → Arith) : (s.modArith c f).tick = s.tick := rfl
@[simp] theorem State.modArith_gov (c : Nat) (f : Arith → Arith) : (s.modArith c f).gov = s.gov := rfl
@[simp] theorem State.modArith_starts (c : Nat) (f : Arith → Arith) : (s.modArith c f).starts = s.starts := rfl
@[simp] theorem State.modArith_driftSel (c : Nat) (f : Arith → Arith) : (s.modArith c f).driftSel = s.driftSel := rfl
@[simp] theorem State.modArith_drifts (c : Nat) (f : Arith → Arith) : (s.modArith c f).drifts = s.drifts := rfl
@[simp] theorem State.modArith_memCtxs (c : Nat) (f : Arith → Arith) : (s.modArith c f).memCtxs = s.memCtxs := rfl
@[simp] theorem State.modArith_census (c : Nat) (f : Arith → Arith) : (s.modArith c f).census = s.census := rfl
@[simp] theorem State.modArith_loads (c : Nat) (f : Arith → Arith) : (s.modArith c f).loads = s.loads := rfl
@[simp] theorem State.modArith_ctxRuns (c : Nat) (f : Arith → Arith) : (s.modArith c f).ctxRuns = s.ctxRuns := rfl
@[simp] theorem State.modArith_parts (c : Nat) (f : Arith → Arith) : (s.modArith c f).parts = s.parts := rfl
@[simp] theorem State.modArith_clus (c : Nat) (f : Arith → Arith) : (s.modArith c f).clus = s.clus := rfl
@[simp] theorem State.modArith_chans (c : Nat) (f : Arith → Arith) : (s.modArith c f).chans = s.chans := rfl
@[simp] theorem State.modArith_memc (c : Nat) (f : Arith → Arith) : (s.modArith c f).memc = s.memc := rfl
@[simp] theorem State.modArith_mem (c : Nat) (f : Arith → Arith) : (s.modArith c f).mem = s.mem := rfl
@[simp] theorem State.modArith_gran (c : Nat) (f : Arith → Arith) : (s.modArith c f).gran = s.gran := rfl
@[simp] theorem State.modArith_ecc (c : Nat) (f : Arith → Arith) : (s.modArith c f).ecc = s.ecc := rfl
@[simp] theorem State.modArith_sync (c : Nat) (f : Arith → Arith) : (s.modArith c f).sync = s.sync := rfl
@[simp] theorem State.modArith_loader (c : Nat) (f : Arith → Arith) : (s.modArith c f).loader = s.loader := rfl
@[simp] theorem State.modArith_partRegs (c : Nat) (f : Arith → Arith) : (s.modArith c f).partRegs = s.partRegs := rfl
@[simp] theorem State.modArith_dog (c : Nat) (f : Arith → Arith) : (s.modArith c f).dog = s.dog := rfl
@[simp] theorem State.modArith_tags (c : Nat) (f : Arith → Arith) : (s.modArith c f).tags = s.tags := rfl
@[simp] theorem State.modArith_ctxJobs (c : Nat) (f : Arith → Arith) : (s.modArith c f).ctxJobs = s.ctxJobs := rfl
@[simp] theorem State.modArith_fab (c : Nat) (f : Arith → Arith) : (s.modArith c f).fab = s.fab := rfl
@[simp] theorem State.modArith_packs (c : Nat) (f : Arith → Arith) : (s.modArith c f).packs = s.packs := rfl
@[simp] theorem State.modArith_packCtx (c : Nat) (f : Arith → Arith) : (s.modArith c f).packCtx = s.packCtx := rfl
@[simp] theorem State.modArith_host (c : Nat) (f : Arith → Arith) : (s.modArith c f).host = s.host := rfl
@[simp] theorem State.modArith_usb (c : Nat) (f : Arith → Arith) : (s.modArith c f).usb = s.usb := rfl
@[simp] theorem State.modArith_sb (c : Nat) (f : Arith → Arith) : (s.modArith c f).sb = s.sb := rfl
@[simp] theorem State.modArith_stor (c : Nat) (f : Arith → Arith) : (s.modArith c f).stor = s.stor := rfl
@[simp] theorem State.modArith_leds (c : Nat) (f : Arith → Arith) : (s.modArith c f).leds = s.leds := rfl
@[simp] theorem State.modArith_ledRegs (c : Nat) (f : Arith → Arith) : (s.modArith c f).ledRegs = s.ledRegs := rfl
@[simp] theorem State.modArith_ckpts (c : Nat) (f : Arith → Arith) : (s.modArith c f).ckpts = s.ckpts := rfl
@[simp] theorem State.modArith_ckptRegs (c : Nat) (f : Arith → Arith) : (s.modArith c f).ckptRegs = s.ckptRegs := rfl
@[simp] theorem State.modArith_opt (c : Nat) (f : Arith → Arith) : (s.modArith c f).opt = s.opt := rfl
@[simp] theorem State.modArith_fuses (c : Nat) (f : Arith → Arith) : (s.modArith c f).fuses = s.fuses := rfl
@[simp] theorem State.modArith_flash (c : Nat) (f : Arith → Arith) : (s.modArith c f).flash = s.flash := rfl
@[simp] theorem State.modArith_boot (c : Nat) (f : Arith → Arith) : (s.modArith c f).boot = s.boot := rfl
@[simp] theorem State.modArith_upd (c : Nat) (f : Arith → Arith) : (s.modArith c f).upd = s.upd := rfl
@[simp] theorem State.modArith_mgmt (c : Nat) (f : Arith → Arith) : (s.modArith c f).mgmt = s.mgmt := rfl
@[simp] theorem State.modArith_therm (c : Nat) (f : Arith → Arith) : (s.modArith c f).therm = s.therm := rfl
@[simp] theorem State.modArith_meter (c : Nat) (f : Arith → Arith) : (s.modArith c f).meter = s.meter := rfl
@[simp] theorem State.modArith_meterHub (c : Nat) (f : Arith → Arith) : (s.modArith c f).meterHub = s.meterHub := rfl

/-! ### State.modLoad -/

@[simp] theorem State.modLoad_clk (c : Nat) (f : LoadCtx → LoadCtx) : (s.modLoad c f).clk = s.clk := rfl
@[simp] theorem State.modLoad_freeCtr (c : Nat) (f : LoadCtx → LoadCtx) : (s.modLoad c f).freeCtr = s.freeCtr := rfl
@[simp] theorem State.modLoad_pending (c : Nat) (f : LoadCtx → LoadCtx) : (s.modLoad c f).pending = s.pending := rfl
@[simp] theorem State.modLoad_tx (c : Nat) (f : LoadCtx → LoadCtx) : (s.modLoad c f).tx = s.tx := rfl
@[simp] theorem State.modLoad_pairSeqs (c : Nat) (f : LoadCtx → LoadCtx) : (s.modLoad c f).pairSeqs = s.pairSeqs := rfl
@[simp] theorem State.modLoad_latches (c : Nat) (f : LoadCtx → LoadCtx) : (s.modLoad c f).latches = s.latches := rfl
@[simp] theorem State.modLoad_glb (c : Nat) (f : LoadCtx → LoadCtx) : (s.modLoad c f).glb = s.glb := rfl
@[simp] theorem State.modLoad_weltUp (c : Nat) (f : LoadCtx → LoadCtx) : (s.modLoad c f).weltUp = s.weltUp := rfl
@[simp] theorem State.modLoad_weltNext (c : Nat) (f : LoadCtx → LoadCtx) : (s.modLoad c f).weltNext = s.weltNext := rfl
@[simp] theorem State.modLoad_tick (c : Nat) (f : LoadCtx → LoadCtx) : (s.modLoad c f).tick = s.tick := rfl
@[simp] theorem State.modLoad_gov (c : Nat) (f : LoadCtx → LoadCtx) : (s.modLoad c f).gov = s.gov := rfl
@[simp] theorem State.modLoad_starts (c : Nat) (f : LoadCtx → LoadCtx) : (s.modLoad c f).starts = s.starts := rfl
@[simp] theorem State.modLoad_ariths (c : Nat) (f : LoadCtx → LoadCtx) : (s.modLoad c f).ariths = s.ariths := rfl
@[simp] theorem State.modLoad_driftSel (c : Nat) (f : LoadCtx → LoadCtx) : (s.modLoad c f).driftSel = s.driftSel := rfl
@[simp] theorem State.modLoad_drifts (c : Nat) (f : LoadCtx → LoadCtx) : (s.modLoad c f).drifts = s.drifts := rfl
@[simp] theorem State.modLoad_memCtxs (c : Nat) (f : LoadCtx → LoadCtx) : (s.modLoad c f).memCtxs = s.memCtxs := rfl
@[simp] theorem State.modLoad_census (c : Nat) (f : LoadCtx → LoadCtx) : (s.modLoad c f).census = s.census := rfl
@[simp] theorem State.modLoad_ctxRuns (c : Nat) (f : LoadCtx → LoadCtx) : (s.modLoad c f).ctxRuns = s.ctxRuns := rfl
@[simp] theorem State.modLoad_parts (c : Nat) (f : LoadCtx → LoadCtx) : (s.modLoad c f).parts = s.parts := rfl
@[simp] theorem State.modLoad_clus (c : Nat) (f : LoadCtx → LoadCtx) : (s.modLoad c f).clus = s.clus := rfl
@[simp] theorem State.modLoad_chans (c : Nat) (f : LoadCtx → LoadCtx) : (s.modLoad c f).chans = s.chans := rfl
@[simp] theorem State.modLoad_memc (c : Nat) (f : LoadCtx → LoadCtx) : (s.modLoad c f).memc = s.memc := rfl
@[simp] theorem State.modLoad_mem (c : Nat) (f : LoadCtx → LoadCtx) : (s.modLoad c f).mem = s.mem := rfl
@[simp] theorem State.modLoad_gran (c : Nat) (f : LoadCtx → LoadCtx) : (s.modLoad c f).gran = s.gran := rfl
@[simp] theorem State.modLoad_ecc (c : Nat) (f : LoadCtx → LoadCtx) : (s.modLoad c f).ecc = s.ecc := rfl
@[simp] theorem State.modLoad_sync (c : Nat) (f : LoadCtx → LoadCtx) : (s.modLoad c f).sync = s.sync := rfl
@[simp] theorem State.modLoad_loader (c : Nat) (f : LoadCtx → LoadCtx) : (s.modLoad c f).loader = s.loader := rfl
@[simp] theorem State.modLoad_partRegs (c : Nat) (f : LoadCtx → LoadCtx) : (s.modLoad c f).partRegs = s.partRegs := rfl
@[simp] theorem State.modLoad_dog (c : Nat) (f : LoadCtx → LoadCtx) : (s.modLoad c f).dog = s.dog := rfl
@[simp] theorem State.modLoad_tags (c : Nat) (f : LoadCtx → LoadCtx) : (s.modLoad c f).tags = s.tags := rfl
@[simp] theorem State.modLoad_ctxJobs (c : Nat) (f : LoadCtx → LoadCtx) : (s.modLoad c f).ctxJobs = s.ctxJobs := rfl
@[simp] theorem State.modLoad_fab (c : Nat) (f : LoadCtx → LoadCtx) : (s.modLoad c f).fab = s.fab := rfl
@[simp] theorem State.modLoad_packs (c : Nat) (f : LoadCtx → LoadCtx) : (s.modLoad c f).packs = s.packs := rfl
@[simp] theorem State.modLoad_packCtx (c : Nat) (f : LoadCtx → LoadCtx) : (s.modLoad c f).packCtx = s.packCtx := rfl
@[simp] theorem State.modLoad_host (c : Nat) (f : LoadCtx → LoadCtx) : (s.modLoad c f).host = s.host := rfl
@[simp] theorem State.modLoad_usb (c : Nat) (f : LoadCtx → LoadCtx) : (s.modLoad c f).usb = s.usb := rfl
@[simp] theorem State.modLoad_sb (c : Nat) (f : LoadCtx → LoadCtx) : (s.modLoad c f).sb = s.sb := rfl
@[simp] theorem State.modLoad_stor (c : Nat) (f : LoadCtx → LoadCtx) : (s.modLoad c f).stor = s.stor := rfl
@[simp] theorem State.modLoad_leds (c : Nat) (f : LoadCtx → LoadCtx) : (s.modLoad c f).leds = s.leds := rfl
@[simp] theorem State.modLoad_ledRegs (c : Nat) (f : LoadCtx → LoadCtx) : (s.modLoad c f).ledRegs = s.ledRegs := rfl
@[simp] theorem State.modLoad_ckpts (c : Nat) (f : LoadCtx → LoadCtx) : (s.modLoad c f).ckpts = s.ckpts := rfl
@[simp] theorem State.modLoad_ckptRegs (c : Nat) (f : LoadCtx → LoadCtx) : (s.modLoad c f).ckptRegs = s.ckptRegs := rfl
@[simp] theorem State.modLoad_opt (c : Nat) (f : LoadCtx → LoadCtx) : (s.modLoad c f).opt = s.opt := rfl
@[simp] theorem State.modLoad_fuses (c : Nat) (f : LoadCtx → LoadCtx) : (s.modLoad c f).fuses = s.fuses := rfl
@[simp] theorem State.modLoad_flash (c : Nat) (f : LoadCtx → LoadCtx) : (s.modLoad c f).flash = s.flash := rfl
@[simp] theorem State.modLoad_boot (c : Nat) (f : LoadCtx → LoadCtx) : (s.modLoad c f).boot = s.boot := rfl
@[simp] theorem State.modLoad_upd (c : Nat) (f : LoadCtx → LoadCtx) : (s.modLoad c f).upd = s.upd := rfl
@[simp] theorem State.modLoad_mgmt (c : Nat) (f : LoadCtx → LoadCtx) : (s.modLoad c f).mgmt = s.mgmt := rfl
@[simp] theorem State.modLoad_therm (c : Nat) (f : LoadCtx → LoadCtx) : (s.modLoad c f).therm = s.therm := rfl
@[simp] theorem State.modLoad_meter (c : Nat) (f : LoadCtx → LoadCtx) : (s.modLoad c f).meter = s.meter := rfl
@[simp] theorem State.modLoad_meterHub (c : Nat) (f : LoadCtx → LoadCtx) : (s.modLoad c f).meterHub = s.meterHub := rfl

/-! ### State.modMemCtx -/

@[simp] theorem State.modMemCtx_clk (c : Nat) (f : MemCtx → MemCtx) : (s.modMemCtx c f).clk = s.clk := rfl
@[simp] theorem State.modMemCtx_freeCtr (c : Nat) (f : MemCtx → MemCtx) : (s.modMemCtx c f).freeCtr = s.freeCtr := rfl
@[simp] theorem State.modMemCtx_pending (c : Nat) (f : MemCtx → MemCtx) : (s.modMemCtx c f).pending = s.pending := rfl
@[simp] theorem State.modMemCtx_tx (c : Nat) (f : MemCtx → MemCtx) : (s.modMemCtx c f).tx = s.tx := rfl
@[simp] theorem State.modMemCtx_pairSeqs (c : Nat) (f : MemCtx → MemCtx) : (s.modMemCtx c f).pairSeqs = s.pairSeqs := rfl
@[simp] theorem State.modMemCtx_latches (c : Nat) (f : MemCtx → MemCtx) : (s.modMemCtx c f).latches = s.latches := rfl
@[simp] theorem State.modMemCtx_glb (c : Nat) (f : MemCtx → MemCtx) : (s.modMemCtx c f).glb = s.glb := rfl
@[simp] theorem State.modMemCtx_weltUp (c : Nat) (f : MemCtx → MemCtx) : (s.modMemCtx c f).weltUp = s.weltUp := rfl
@[simp] theorem State.modMemCtx_weltNext (c : Nat) (f : MemCtx → MemCtx) : (s.modMemCtx c f).weltNext = s.weltNext := rfl
@[simp] theorem State.modMemCtx_tick (c : Nat) (f : MemCtx → MemCtx) : (s.modMemCtx c f).tick = s.tick := rfl
@[simp] theorem State.modMemCtx_gov (c : Nat) (f : MemCtx → MemCtx) : (s.modMemCtx c f).gov = s.gov := rfl
@[simp] theorem State.modMemCtx_starts (c : Nat) (f : MemCtx → MemCtx) : (s.modMemCtx c f).starts = s.starts := rfl
@[simp] theorem State.modMemCtx_ariths (c : Nat) (f : MemCtx → MemCtx) : (s.modMemCtx c f).ariths = s.ariths := rfl
@[simp] theorem State.modMemCtx_driftSel (c : Nat) (f : MemCtx → MemCtx) : (s.modMemCtx c f).driftSel = s.driftSel := rfl
@[simp] theorem State.modMemCtx_drifts (c : Nat) (f : MemCtx → MemCtx) : (s.modMemCtx c f).drifts = s.drifts := rfl
@[simp] theorem State.modMemCtx_census (c : Nat) (f : MemCtx → MemCtx) : (s.modMemCtx c f).census = s.census := rfl
@[simp] theorem State.modMemCtx_loads (c : Nat) (f : MemCtx → MemCtx) : (s.modMemCtx c f).loads = s.loads := rfl
@[simp] theorem State.modMemCtx_ctxRuns (c : Nat) (f : MemCtx → MemCtx) : (s.modMemCtx c f).ctxRuns = s.ctxRuns := rfl
@[simp] theorem State.modMemCtx_parts (c : Nat) (f : MemCtx → MemCtx) : (s.modMemCtx c f).parts = s.parts := rfl
@[simp] theorem State.modMemCtx_clus (c : Nat) (f : MemCtx → MemCtx) : (s.modMemCtx c f).clus = s.clus := rfl
@[simp] theorem State.modMemCtx_chans (c : Nat) (f : MemCtx → MemCtx) : (s.modMemCtx c f).chans = s.chans := rfl
@[simp] theorem State.modMemCtx_memc (c : Nat) (f : MemCtx → MemCtx) : (s.modMemCtx c f).memc = s.memc := rfl
@[simp] theorem State.modMemCtx_mem (c : Nat) (f : MemCtx → MemCtx) : (s.modMemCtx c f).mem = s.mem := rfl
@[simp] theorem State.modMemCtx_gran (c : Nat) (f : MemCtx → MemCtx) : (s.modMemCtx c f).gran = s.gran := rfl
@[simp] theorem State.modMemCtx_ecc (c : Nat) (f : MemCtx → MemCtx) : (s.modMemCtx c f).ecc = s.ecc := rfl
@[simp] theorem State.modMemCtx_sync (c : Nat) (f : MemCtx → MemCtx) : (s.modMemCtx c f).sync = s.sync := rfl
@[simp] theorem State.modMemCtx_loader (c : Nat) (f : MemCtx → MemCtx) : (s.modMemCtx c f).loader = s.loader := rfl
@[simp] theorem State.modMemCtx_partRegs (c : Nat) (f : MemCtx → MemCtx) : (s.modMemCtx c f).partRegs = s.partRegs := rfl
@[simp] theorem State.modMemCtx_dog (c : Nat) (f : MemCtx → MemCtx) : (s.modMemCtx c f).dog = s.dog := rfl
@[simp] theorem State.modMemCtx_tags (c : Nat) (f : MemCtx → MemCtx) : (s.modMemCtx c f).tags = s.tags := rfl
@[simp] theorem State.modMemCtx_ctxJobs (c : Nat) (f : MemCtx → MemCtx) : (s.modMemCtx c f).ctxJobs = s.ctxJobs := rfl
@[simp] theorem State.modMemCtx_fab (c : Nat) (f : MemCtx → MemCtx) : (s.modMemCtx c f).fab = s.fab := rfl
@[simp] theorem State.modMemCtx_packs (c : Nat) (f : MemCtx → MemCtx) : (s.modMemCtx c f).packs = s.packs := rfl
@[simp] theorem State.modMemCtx_packCtx (c : Nat) (f : MemCtx → MemCtx) : (s.modMemCtx c f).packCtx = s.packCtx := rfl
@[simp] theorem State.modMemCtx_host (c : Nat) (f : MemCtx → MemCtx) : (s.modMemCtx c f).host = s.host := rfl
@[simp] theorem State.modMemCtx_usb (c : Nat) (f : MemCtx → MemCtx) : (s.modMemCtx c f).usb = s.usb := rfl
@[simp] theorem State.modMemCtx_sb (c : Nat) (f : MemCtx → MemCtx) : (s.modMemCtx c f).sb = s.sb := rfl
@[simp] theorem State.modMemCtx_stor (c : Nat) (f : MemCtx → MemCtx) : (s.modMemCtx c f).stor = s.stor := rfl
@[simp] theorem State.modMemCtx_leds (c : Nat) (f : MemCtx → MemCtx) : (s.modMemCtx c f).leds = s.leds := rfl
@[simp] theorem State.modMemCtx_ledRegs (c : Nat) (f : MemCtx → MemCtx) : (s.modMemCtx c f).ledRegs = s.ledRegs := rfl
@[simp] theorem State.modMemCtx_ckpts (c : Nat) (f : MemCtx → MemCtx) : (s.modMemCtx c f).ckpts = s.ckpts := rfl
@[simp] theorem State.modMemCtx_ckptRegs (c : Nat) (f : MemCtx → MemCtx) : (s.modMemCtx c f).ckptRegs = s.ckptRegs := rfl
@[simp] theorem State.modMemCtx_opt (c : Nat) (f : MemCtx → MemCtx) : (s.modMemCtx c f).opt = s.opt := rfl
@[simp] theorem State.modMemCtx_fuses (c : Nat) (f : MemCtx → MemCtx) : (s.modMemCtx c f).fuses = s.fuses := rfl
@[simp] theorem State.modMemCtx_flash (c : Nat) (f : MemCtx → MemCtx) : (s.modMemCtx c f).flash = s.flash := rfl
@[simp] theorem State.modMemCtx_boot (c : Nat) (f : MemCtx → MemCtx) : (s.modMemCtx c f).boot = s.boot := rfl
@[simp] theorem State.modMemCtx_upd (c : Nat) (f : MemCtx → MemCtx) : (s.modMemCtx c f).upd = s.upd := rfl
@[simp] theorem State.modMemCtx_mgmt (c : Nat) (f : MemCtx → MemCtx) : (s.modMemCtx c f).mgmt = s.mgmt := rfl
@[simp] theorem State.modMemCtx_therm (c : Nat) (f : MemCtx → MemCtx) : (s.modMemCtx c f).therm = s.therm := rfl
@[simp] theorem State.modMemCtx_meter (c : Nat) (f : MemCtx → MemCtx) : (s.modMemCtx c f).meter = s.meter := rfl
@[simp] theorem State.modMemCtx_meterHub (c : Nat) (f : MemCtx → MemCtx) : (s.modMemCtx c f).meterHub = s.meterHub := rfl

/-! ### State.modCens -/

@[simp] theorem State.modCens_clk (c : Nat) (f : Census → Census) : (s.modCens c f).clk = s.clk := rfl
@[simp] theorem State.modCens_freeCtr (c : Nat) (f : Census → Census) : (s.modCens c f).freeCtr = s.freeCtr := rfl
@[simp] theorem State.modCens_pending (c : Nat) (f : Census → Census) : (s.modCens c f).pending = s.pending := rfl
@[simp] theorem State.modCens_tx (c : Nat) (f : Census → Census) : (s.modCens c f).tx = s.tx := rfl
@[simp] theorem State.modCens_pairSeqs (c : Nat) (f : Census → Census) : (s.modCens c f).pairSeqs = s.pairSeqs := rfl
@[simp] theorem State.modCens_latches (c : Nat) (f : Census → Census) : (s.modCens c f).latches = s.latches := rfl
@[simp] theorem State.modCens_glb (c : Nat) (f : Census → Census) : (s.modCens c f).glb = s.glb := rfl
@[simp] theorem State.modCens_weltUp (c : Nat) (f : Census → Census) : (s.modCens c f).weltUp = s.weltUp := rfl
@[simp] theorem State.modCens_weltNext (c : Nat) (f : Census → Census) : (s.modCens c f).weltNext = s.weltNext := rfl
@[simp] theorem State.modCens_tick (c : Nat) (f : Census → Census) : (s.modCens c f).tick = s.tick := rfl
@[simp] theorem State.modCens_gov (c : Nat) (f : Census → Census) : (s.modCens c f).gov = s.gov := rfl
@[simp] theorem State.modCens_starts (c : Nat) (f : Census → Census) : (s.modCens c f).starts = s.starts := rfl
@[simp] theorem State.modCens_ariths (c : Nat) (f : Census → Census) : (s.modCens c f).ariths = s.ariths := rfl
@[simp] theorem State.modCens_driftSel (c : Nat) (f : Census → Census) : (s.modCens c f).driftSel = s.driftSel := rfl
@[simp] theorem State.modCens_drifts (c : Nat) (f : Census → Census) : (s.modCens c f).drifts = s.drifts := rfl
@[simp] theorem State.modCens_memCtxs (c : Nat) (f : Census → Census) : (s.modCens c f).memCtxs = s.memCtxs := rfl
@[simp] theorem State.modCens_loads (c : Nat) (f : Census → Census) : (s.modCens c f).loads = s.loads := rfl
@[simp] theorem State.modCens_ctxRuns (c : Nat) (f : Census → Census) : (s.modCens c f).ctxRuns = s.ctxRuns := rfl
@[simp] theorem State.modCens_parts (c : Nat) (f : Census → Census) : (s.modCens c f).parts = s.parts := rfl
@[simp] theorem State.modCens_clus (c : Nat) (f : Census → Census) : (s.modCens c f).clus = s.clus := rfl
@[simp] theorem State.modCens_chans (c : Nat) (f : Census → Census) : (s.modCens c f).chans = s.chans := rfl
@[simp] theorem State.modCens_memc (c : Nat) (f : Census → Census) : (s.modCens c f).memc = s.memc := rfl
@[simp] theorem State.modCens_mem (c : Nat) (f : Census → Census) : (s.modCens c f).mem = s.mem := rfl
@[simp] theorem State.modCens_gran (c : Nat) (f : Census → Census) : (s.modCens c f).gran = s.gran := rfl
@[simp] theorem State.modCens_ecc (c : Nat) (f : Census → Census) : (s.modCens c f).ecc = s.ecc := rfl
@[simp] theorem State.modCens_sync (c : Nat) (f : Census → Census) : (s.modCens c f).sync = s.sync := rfl
@[simp] theorem State.modCens_loader (c : Nat) (f : Census → Census) : (s.modCens c f).loader = s.loader := rfl
@[simp] theorem State.modCens_partRegs (c : Nat) (f : Census → Census) : (s.modCens c f).partRegs = s.partRegs := rfl
@[simp] theorem State.modCens_dog (c : Nat) (f : Census → Census) : (s.modCens c f).dog = s.dog := rfl
@[simp] theorem State.modCens_tags (c : Nat) (f : Census → Census) : (s.modCens c f).tags = s.tags := rfl
@[simp] theorem State.modCens_ctxJobs (c : Nat) (f : Census → Census) : (s.modCens c f).ctxJobs = s.ctxJobs := rfl
@[simp] theorem State.modCens_fab (c : Nat) (f : Census → Census) : (s.modCens c f).fab = s.fab := rfl
@[simp] theorem State.modCens_packs (c : Nat) (f : Census → Census) : (s.modCens c f).packs = s.packs := rfl
@[simp] theorem State.modCens_packCtx (c : Nat) (f : Census → Census) : (s.modCens c f).packCtx = s.packCtx := rfl
@[simp] theorem State.modCens_host (c : Nat) (f : Census → Census) : (s.modCens c f).host = s.host := rfl
@[simp] theorem State.modCens_usb (c : Nat) (f : Census → Census) : (s.modCens c f).usb = s.usb := rfl
@[simp] theorem State.modCens_sb (c : Nat) (f : Census → Census) : (s.modCens c f).sb = s.sb := rfl
@[simp] theorem State.modCens_stor (c : Nat) (f : Census → Census) : (s.modCens c f).stor = s.stor := rfl
@[simp] theorem State.modCens_leds (c : Nat) (f : Census → Census) : (s.modCens c f).leds = s.leds := rfl
@[simp] theorem State.modCens_ledRegs (c : Nat) (f : Census → Census) : (s.modCens c f).ledRegs = s.ledRegs := rfl
@[simp] theorem State.modCens_ckpts (c : Nat) (f : Census → Census) : (s.modCens c f).ckpts = s.ckpts := rfl
@[simp] theorem State.modCens_ckptRegs (c : Nat) (f : Census → Census) : (s.modCens c f).ckptRegs = s.ckptRegs := rfl
@[simp] theorem State.modCens_opt (c : Nat) (f : Census → Census) : (s.modCens c f).opt = s.opt := rfl
@[simp] theorem State.modCens_fuses (c : Nat) (f : Census → Census) : (s.modCens c f).fuses = s.fuses := rfl
@[simp] theorem State.modCens_flash (c : Nat) (f : Census → Census) : (s.modCens c f).flash = s.flash := rfl
@[simp] theorem State.modCens_boot (c : Nat) (f : Census → Census) : (s.modCens c f).boot = s.boot := rfl
@[simp] theorem State.modCens_upd (c : Nat) (f : Census → Census) : (s.modCens c f).upd = s.upd := rfl
@[simp] theorem State.modCens_mgmt (c : Nat) (f : Census → Census) : (s.modCens c f).mgmt = s.mgmt := rfl
@[simp] theorem State.modCens_therm (c : Nat) (f : Census → Census) : (s.modCens c f).therm = s.therm := rfl
@[simp] theorem State.modCens_meter (c : Nat) (f : Census → Census) : (s.modCens c f).meter = s.meter := rfl
@[simp] theorem State.modCens_meterHub (c : Nat) (f : Census → Census) : (s.modCens c f).meterHub = s.meterHub := rfl

/-! ### State.modDrift -/

@[simp] theorem State.modDrift_clk (c i : Nat) (f : Drift → Drift) : (s.modDrift c i f).clk = s.clk := rfl
@[simp] theorem State.modDrift_freeCtr (c i : Nat) (f : Drift → Drift) : (s.modDrift c i f).freeCtr = s.freeCtr := rfl
@[simp] theorem State.modDrift_pending (c i : Nat) (f : Drift → Drift) : (s.modDrift c i f).pending = s.pending := rfl
@[simp] theorem State.modDrift_tx (c i : Nat) (f : Drift → Drift) : (s.modDrift c i f).tx = s.tx := rfl
@[simp] theorem State.modDrift_pairSeqs (c i : Nat) (f : Drift → Drift) : (s.modDrift c i f).pairSeqs = s.pairSeqs := rfl
@[simp] theorem State.modDrift_latches (c i : Nat) (f : Drift → Drift) : (s.modDrift c i f).latches = s.latches := rfl
@[simp] theorem State.modDrift_glb (c i : Nat) (f : Drift → Drift) : (s.modDrift c i f).glb = s.glb := rfl
@[simp] theorem State.modDrift_weltUp (c i : Nat) (f : Drift → Drift) : (s.modDrift c i f).weltUp = s.weltUp := rfl
@[simp] theorem State.modDrift_weltNext (c i : Nat) (f : Drift → Drift) : (s.modDrift c i f).weltNext = s.weltNext := rfl
@[simp] theorem State.modDrift_tick (c i : Nat) (f : Drift → Drift) : (s.modDrift c i f).tick = s.tick := rfl
@[simp] theorem State.modDrift_gov (c i : Nat) (f : Drift → Drift) : (s.modDrift c i f).gov = s.gov := rfl
@[simp] theorem State.modDrift_starts (c i : Nat) (f : Drift → Drift) : (s.modDrift c i f).starts = s.starts := rfl
@[simp] theorem State.modDrift_ariths (c i : Nat) (f : Drift → Drift) : (s.modDrift c i f).ariths = s.ariths := rfl
@[simp] theorem State.modDrift_driftSel (c i : Nat) (f : Drift → Drift) : (s.modDrift c i f).driftSel = s.driftSel := rfl
@[simp] theorem State.modDrift_memCtxs (c i : Nat) (f : Drift → Drift) : (s.modDrift c i f).memCtxs = s.memCtxs := rfl
@[simp] theorem State.modDrift_census (c i : Nat) (f : Drift → Drift) : (s.modDrift c i f).census = s.census := rfl
@[simp] theorem State.modDrift_loads (c i : Nat) (f : Drift → Drift) : (s.modDrift c i f).loads = s.loads := rfl
@[simp] theorem State.modDrift_ctxRuns (c i : Nat) (f : Drift → Drift) : (s.modDrift c i f).ctxRuns = s.ctxRuns := rfl
@[simp] theorem State.modDrift_parts (c i : Nat) (f : Drift → Drift) : (s.modDrift c i f).parts = s.parts := rfl
@[simp] theorem State.modDrift_clus (c i : Nat) (f : Drift → Drift) : (s.modDrift c i f).clus = s.clus := rfl
@[simp] theorem State.modDrift_chans (c i : Nat) (f : Drift → Drift) : (s.modDrift c i f).chans = s.chans := rfl
@[simp] theorem State.modDrift_memc (c i : Nat) (f : Drift → Drift) : (s.modDrift c i f).memc = s.memc := rfl
@[simp] theorem State.modDrift_mem (c i : Nat) (f : Drift → Drift) : (s.modDrift c i f).mem = s.mem := rfl
@[simp] theorem State.modDrift_gran (c i : Nat) (f : Drift → Drift) : (s.modDrift c i f).gran = s.gran := rfl
@[simp] theorem State.modDrift_ecc (c i : Nat) (f : Drift → Drift) : (s.modDrift c i f).ecc = s.ecc := rfl
@[simp] theorem State.modDrift_sync (c i : Nat) (f : Drift → Drift) : (s.modDrift c i f).sync = s.sync := rfl
@[simp] theorem State.modDrift_loader (c i : Nat) (f : Drift → Drift) : (s.modDrift c i f).loader = s.loader := rfl
@[simp] theorem State.modDrift_partRegs (c i : Nat) (f : Drift → Drift) : (s.modDrift c i f).partRegs = s.partRegs := rfl
@[simp] theorem State.modDrift_dog (c i : Nat) (f : Drift → Drift) : (s.modDrift c i f).dog = s.dog := rfl
@[simp] theorem State.modDrift_tags (c i : Nat) (f : Drift → Drift) : (s.modDrift c i f).tags = s.tags := rfl
@[simp] theorem State.modDrift_ctxJobs (c i : Nat) (f : Drift → Drift) : (s.modDrift c i f).ctxJobs = s.ctxJobs := rfl
@[simp] theorem State.modDrift_fab (c i : Nat) (f : Drift → Drift) : (s.modDrift c i f).fab = s.fab := rfl
@[simp] theorem State.modDrift_packs (c i : Nat) (f : Drift → Drift) : (s.modDrift c i f).packs = s.packs := rfl
@[simp] theorem State.modDrift_packCtx (c i : Nat) (f : Drift → Drift) : (s.modDrift c i f).packCtx = s.packCtx := rfl
@[simp] theorem State.modDrift_host (c i : Nat) (f : Drift → Drift) : (s.modDrift c i f).host = s.host := rfl
@[simp] theorem State.modDrift_usb (c i : Nat) (f : Drift → Drift) : (s.modDrift c i f).usb = s.usb := rfl
@[simp] theorem State.modDrift_sb (c i : Nat) (f : Drift → Drift) : (s.modDrift c i f).sb = s.sb := rfl
@[simp] theorem State.modDrift_stor (c i : Nat) (f : Drift → Drift) : (s.modDrift c i f).stor = s.stor := rfl
@[simp] theorem State.modDrift_leds (c i : Nat) (f : Drift → Drift) : (s.modDrift c i f).leds = s.leds := rfl
@[simp] theorem State.modDrift_ledRegs (c i : Nat) (f : Drift → Drift) : (s.modDrift c i f).ledRegs = s.ledRegs := rfl
@[simp] theorem State.modDrift_ckpts (c i : Nat) (f : Drift → Drift) : (s.modDrift c i f).ckpts = s.ckpts := rfl
@[simp] theorem State.modDrift_ckptRegs (c i : Nat) (f : Drift → Drift) : (s.modDrift c i f).ckptRegs = s.ckptRegs := rfl
@[simp] theorem State.modDrift_opt (c i : Nat) (f : Drift → Drift) : (s.modDrift c i f).opt = s.opt := rfl
@[simp] theorem State.modDrift_fuses (c i : Nat) (f : Drift → Drift) : (s.modDrift c i f).fuses = s.fuses := rfl
@[simp] theorem State.modDrift_flash (c i : Nat) (f : Drift → Drift) : (s.modDrift c i f).flash = s.flash := rfl
@[simp] theorem State.modDrift_boot (c i : Nat) (f : Drift → Drift) : (s.modDrift c i f).boot = s.boot := rfl
@[simp] theorem State.modDrift_upd (c i : Nat) (f : Drift → Drift) : (s.modDrift c i f).upd = s.upd := rfl
@[simp] theorem State.modDrift_mgmt (c i : Nat) (f : Drift → Drift) : (s.modDrift c i f).mgmt = s.mgmt := rfl
@[simp] theorem State.modDrift_therm (c i : Nat) (f : Drift → Drift) : (s.modDrift c i f).therm = s.therm := rfl
@[simp] theorem State.modDrift_meter (c i : Nat) (f : Drift → Drift) : (s.modDrift c i f).meter = s.meter := rfl
@[simp] theorem State.modDrift_meterHub (c i : Nat) (f : Drift → Drift) : (s.modDrift c i f).meterHub = s.meterHub := rfl

/-! ### State.modLed -/

@[simp] theorem State.modLed_clk (c : Nat) (f : Led → Led) : (s.modLed c f).clk = s.clk := rfl
@[simp] theorem State.modLed_freeCtr (c : Nat) (f : Led → Led) : (s.modLed c f).freeCtr = s.freeCtr := rfl
@[simp] theorem State.modLed_pending (c : Nat) (f : Led → Led) : (s.modLed c f).pending = s.pending := rfl
@[simp] theorem State.modLed_tx (c : Nat) (f : Led → Led) : (s.modLed c f).tx = s.tx := rfl
@[simp] theorem State.modLed_pairSeqs (c : Nat) (f : Led → Led) : (s.modLed c f).pairSeqs = s.pairSeqs := rfl
@[simp] theorem State.modLed_latches (c : Nat) (f : Led → Led) : (s.modLed c f).latches = s.latches := rfl
@[simp] theorem State.modLed_glb (c : Nat) (f : Led → Led) : (s.modLed c f).glb = s.glb := rfl
@[simp] theorem State.modLed_weltUp (c : Nat) (f : Led → Led) : (s.modLed c f).weltUp = s.weltUp := rfl
@[simp] theorem State.modLed_weltNext (c : Nat) (f : Led → Led) : (s.modLed c f).weltNext = s.weltNext := rfl
@[simp] theorem State.modLed_tick (c : Nat) (f : Led → Led) : (s.modLed c f).tick = s.tick := rfl
@[simp] theorem State.modLed_gov (c : Nat) (f : Led → Led) : (s.modLed c f).gov = s.gov := rfl
@[simp] theorem State.modLed_starts (c : Nat) (f : Led → Led) : (s.modLed c f).starts = s.starts := rfl
@[simp] theorem State.modLed_ariths (c : Nat) (f : Led → Led) : (s.modLed c f).ariths = s.ariths := rfl
@[simp] theorem State.modLed_driftSel (c : Nat) (f : Led → Led) : (s.modLed c f).driftSel = s.driftSel := rfl
@[simp] theorem State.modLed_drifts (c : Nat) (f : Led → Led) : (s.modLed c f).drifts = s.drifts := rfl
@[simp] theorem State.modLed_memCtxs (c : Nat) (f : Led → Led) : (s.modLed c f).memCtxs = s.memCtxs := rfl
@[simp] theorem State.modLed_census (c : Nat) (f : Led → Led) : (s.modLed c f).census = s.census := rfl
@[simp] theorem State.modLed_loads (c : Nat) (f : Led → Led) : (s.modLed c f).loads = s.loads := rfl
@[simp] theorem State.modLed_ctxRuns (c : Nat) (f : Led → Led) : (s.modLed c f).ctxRuns = s.ctxRuns := rfl
@[simp] theorem State.modLed_parts (c : Nat) (f : Led → Led) : (s.modLed c f).parts = s.parts := rfl
@[simp] theorem State.modLed_clus (c : Nat) (f : Led → Led) : (s.modLed c f).clus = s.clus := rfl
@[simp] theorem State.modLed_chans (c : Nat) (f : Led → Led) : (s.modLed c f).chans = s.chans := rfl
@[simp] theorem State.modLed_memc (c : Nat) (f : Led → Led) : (s.modLed c f).memc = s.memc := rfl
@[simp] theorem State.modLed_mem (c : Nat) (f : Led → Led) : (s.modLed c f).mem = s.mem := rfl
@[simp] theorem State.modLed_gran (c : Nat) (f : Led → Led) : (s.modLed c f).gran = s.gran := rfl
@[simp] theorem State.modLed_ecc (c : Nat) (f : Led → Led) : (s.modLed c f).ecc = s.ecc := rfl
@[simp] theorem State.modLed_sync (c : Nat) (f : Led → Led) : (s.modLed c f).sync = s.sync := rfl
@[simp] theorem State.modLed_loader (c : Nat) (f : Led → Led) : (s.modLed c f).loader = s.loader := rfl
@[simp] theorem State.modLed_partRegs (c : Nat) (f : Led → Led) : (s.modLed c f).partRegs = s.partRegs := rfl
@[simp] theorem State.modLed_dog (c : Nat) (f : Led → Led) : (s.modLed c f).dog = s.dog := rfl
@[simp] theorem State.modLed_tags (c : Nat) (f : Led → Led) : (s.modLed c f).tags = s.tags := rfl
@[simp] theorem State.modLed_ctxJobs (c : Nat) (f : Led → Led) : (s.modLed c f).ctxJobs = s.ctxJobs := rfl
@[simp] theorem State.modLed_fab (c : Nat) (f : Led → Led) : (s.modLed c f).fab = s.fab := rfl
@[simp] theorem State.modLed_packs (c : Nat) (f : Led → Led) : (s.modLed c f).packs = s.packs := rfl
@[simp] theorem State.modLed_packCtx (c : Nat) (f : Led → Led) : (s.modLed c f).packCtx = s.packCtx := rfl
@[simp] theorem State.modLed_host (c : Nat) (f : Led → Led) : (s.modLed c f).host = s.host := rfl
@[simp] theorem State.modLed_usb (c : Nat) (f : Led → Led) : (s.modLed c f).usb = s.usb := rfl
@[simp] theorem State.modLed_sb (c : Nat) (f : Led → Led) : (s.modLed c f).sb = s.sb := rfl
@[simp] theorem State.modLed_stor (c : Nat) (f : Led → Led) : (s.modLed c f).stor = s.stor := rfl
@[simp] theorem State.modLed_ledRegs (c : Nat) (f : Led → Led) : (s.modLed c f).ledRegs = s.ledRegs := rfl
@[simp] theorem State.modLed_ckpts (c : Nat) (f : Led → Led) : (s.modLed c f).ckpts = s.ckpts := rfl
@[simp] theorem State.modLed_ckptRegs (c : Nat) (f : Led → Led) : (s.modLed c f).ckptRegs = s.ckptRegs := rfl
@[simp] theorem State.modLed_opt (c : Nat) (f : Led → Led) : (s.modLed c f).opt = s.opt := rfl
@[simp] theorem State.modLed_fuses (c : Nat) (f : Led → Led) : (s.modLed c f).fuses = s.fuses := rfl
@[simp] theorem State.modLed_flash (c : Nat) (f : Led → Led) : (s.modLed c f).flash = s.flash := rfl
@[simp] theorem State.modLed_boot (c : Nat) (f : Led → Led) : (s.modLed c f).boot = s.boot := rfl
@[simp] theorem State.modLed_upd (c : Nat) (f : Led → Led) : (s.modLed c f).upd = s.upd := rfl
@[simp] theorem State.modLed_mgmt (c : Nat) (f : Led → Led) : (s.modLed c f).mgmt = s.mgmt := rfl
@[simp] theorem State.modLed_therm (c : Nat) (f : Led → Led) : (s.modLed c f).therm = s.therm := rfl
@[simp] theorem State.modLed_meter (c : Nat) (f : Led → Led) : (s.modLed c f).meter = s.meter := rfl
@[simp] theorem State.modLed_meterHub (c : Nat) (f : Led → Led) : (s.modLed c f).meterHub = s.meterHub := rfl

/-! ### State.modCkpt -/

@[simp] theorem State.modCkpt_clk (c : Nat) (f : Ckpt → Ckpt) : (s.modCkpt c f).clk = s.clk := rfl
@[simp] theorem State.modCkpt_freeCtr (c : Nat) (f : Ckpt → Ckpt) : (s.modCkpt c f).freeCtr = s.freeCtr := rfl
@[simp] theorem State.modCkpt_pending (c : Nat) (f : Ckpt → Ckpt) : (s.modCkpt c f).pending = s.pending := rfl
@[simp] theorem State.modCkpt_tx (c : Nat) (f : Ckpt → Ckpt) : (s.modCkpt c f).tx = s.tx := rfl
@[simp] theorem State.modCkpt_pairSeqs (c : Nat) (f : Ckpt → Ckpt) : (s.modCkpt c f).pairSeqs = s.pairSeqs := rfl
@[simp] theorem State.modCkpt_latches (c : Nat) (f : Ckpt → Ckpt) : (s.modCkpt c f).latches = s.latches := rfl
@[simp] theorem State.modCkpt_glb (c : Nat) (f : Ckpt → Ckpt) : (s.modCkpt c f).glb = s.glb := rfl
@[simp] theorem State.modCkpt_weltUp (c : Nat) (f : Ckpt → Ckpt) : (s.modCkpt c f).weltUp = s.weltUp := rfl
@[simp] theorem State.modCkpt_weltNext (c : Nat) (f : Ckpt → Ckpt) : (s.modCkpt c f).weltNext = s.weltNext := rfl
@[simp] theorem State.modCkpt_tick (c : Nat) (f : Ckpt → Ckpt) : (s.modCkpt c f).tick = s.tick := rfl
@[simp] theorem State.modCkpt_gov (c : Nat) (f : Ckpt → Ckpt) : (s.modCkpt c f).gov = s.gov := rfl
@[simp] theorem State.modCkpt_starts (c : Nat) (f : Ckpt → Ckpt) : (s.modCkpt c f).starts = s.starts := rfl
@[simp] theorem State.modCkpt_ariths (c : Nat) (f : Ckpt → Ckpt) : (s.modCkpt c f).ariths = s.ariths := rfl
@[simp] theorem State.modCkpt_driftSel (c : Nat) (f : Ckpt → Ckpt) : (s.modCkpt c f).driftSel = s.driftSel := rfl
@[simp] theorem State.modCkpt_drifts (c : Nat) (f : Ckpt → Ckpt) : (s.modCkpt c f).drifts = s.drifts := rfl
@[simp] theorem State.modCkpt_memCtxs (c : Nat) (f : Ckpt → Ckpt) : (s.modCkpt c f).memCtxs = s.memCtxs := rfl
@[simp] theorem State.modCkpt_census (c : Nat) (f : Ckpt → Ckpt) : (s.modCkpt c f).census = s.census := rfl
@[simp] theorem State.modCkpt_loads (c : Nat) (f : Ckpt → Ckpt) : (s.modCkpt c f).loads = s.loads := rfl
@[simp] theorem State.modCkpt_ctxRuns (c : Nat) (f : Ckpt → Ckpt) : (s.modCkpt c f).ctxRuns = s.ctxRuns := rfl
@[simp] theorem State.modCkpt_parts (c : Nat) (f : Ckpt → Ckpt) : (s.modCkpt c f).parts = s.parts := rfl
@[simp] theorem State.modCkpt_clus (c : Nat) (f : Ckpt → Ckpt) : (s.modCkpt c f).clus = s.clus := rfl
@[simp] theorem State.modCkpt_chans (c : Nat) (f : Ckpt → Ckpt) : (s.modCkpt c f).chans = s.chans := rfl
@[simp] theorem State.modCkpt_memc (c : Nat) (f : Ckpt → Ckpt) : (s.modCkpt c f).memc = s.memc := rfl
@[simp] theorem State.modCkpt_mem (c : Nat) (f : Ckpt → Ckpt) : (s.modCkpt c f).mem = s.mem := rfl
@[simp] theorem State.modCkpt_gran (c : Nat) (f : Ckpt → Ckpt) : (s.modCkpt c f).gran = s.gran := rfl
@[simp] theorem State.modCkpt_ecc (c : Nat) (f : Ckpt → Ckpt) : (s.modCkpt c f).ecc = s.ecc := rfl
@[simp] theorem State.modCkpt_sync (c : Nat) (f : Ckpt → Ckpt) : (s.modCkpt c f).sync = s.sync := rfl
@[simp] theorem State.modCkpt_loader (c : Nat) (f : Ckpt → Ckpt) : (s.modCkpt c f).loader = s.loader := rfl
@[simp] theorem State.modCkpt_partRegs (c : Nat) (f : Ckpt → Ckpt) : (s.modCkpt c f).partRegs = s.partRegs := rfl
@[simp] theorem State.modCkpt_dog (c : Nat) (f : Ckpt → Ckpt) : (s.modCkpt c f).dog = s.dog := rfl
@[simp] theorem State.modCkpt_tags (c : Nat) (f : Ckpt → Ckpt) : (s.modCkpt c f).tags = s.tags := rfl
@[simp] theorem State.modCkpt_ctxJobs (c : Nat) (f : Ckpt → Ckpt) : (s.modCkpt c f).ctxJobs = s.ctxJobs := rfl
@[simp] theorem State.modCkpt_fab (c : Nat) (f : Ckpt → Ckpt) : (s.modCkpt c f).fab = s.fab := rfl
@[simp] theorem State.modCkpt_packs (c : Nat) (f : Ckpt → Ckpt) : (s.modCkpt c f).packs = s.packs := rfl
@[simp] theorem State.modCkpt_packCtx (c : Nat) (f : Ckpt → Ckpt) : (s.modCkpt c f).packCtx = s.packCtx := rfl
@[simp] theorem State.modCkpt_host (c : Nat) (f : Ckpt → Ckpt) : (s.modCkpt c f).host = s.host := rfl
@[simp] theorem State.modCkpt_usb (c : Nat) (f : Ckpt → Ckpt) : (s.modCkpt c f).usb = s.usb := rfl
@[simp] theorem State.modCkpt_sb (c : Nat) (f : Ckpt → Ckpt) : (s.modCkpt c f).sb = s.sb := rfl
@[simp] theorem State.modCkpt_stor (c : Nat) (f : Ckpt → Ckpt) : (s.modCkpt c f).stor = s.stor := rfl
@[simp] theorem State.modCkpt_leds (c : Nat) (f : Ckpt → Ckpt) : (s.modCkpt c f).leds = s.leds := rfl
@[simp] theorem State.modCkpt_ledRegs (c : Nat) (f : Ckpt → Ckpt) : (s.modCkpt c f).ledRegs = s.ledRegs := rfl
@[simp] theorem State.modCkpt_ckptRegs (c : Nat) (f : Ckpt → Ckpt) : (s.modCkpt c f).ckptRegs = s.ckptRegs := rfl
@[simp] theorem State.modCkpt_opt (c : Nat) (f : Ckpt → Ckpt) : (s.modCkpt c f).opt = s.opt := rfl
@[simp] theorem State.modCkpt_fuses (c : Nat) (f : Ckpt → Ckpt) : (s.modCkpt c f).fuses = s.fuses := rfl
@[simp] theorem State.modCkpt_flash (c : Nat) (f : Ckpt → Ckpt) : (s.modCkpt c f).flash = s.flash := rfl
@[simp] theorem State.modCkpt_boot (c : Nat) (f : Ckpt → Ckpt) : (s.modCkpt c f).boot = s.boot := rfl
@[simp] theorem State.modCkpt_upd (c : Nat) (f : Ckpt → Ckpt) : (s.modCkpt c f).upd = s.upd := rfl
@[simp] theorem State.modCkpt_mgmt (c : Nat) (f : Ckpt → Ckpt) : (s.modCkpt c f).mgmt = s.mgmt := rfl
@[simp] theorem State.modCkpt_therm (c : Nat) (f : Ckpt → Ckpt) : (s.modCkpt c f).therm = s.therm := rfl
@[simp] theorem State.modCkpt_meter (c : Nat) (f : Ckpt → Ckpt) : (s.modCkpt c f).meter = s.meter := rfl
@[simp] theorem State.modCkpt_meterHub (c : Nat) (f : Ckpt → Ckpt) : (s.modCkpt c f).meterHub = s.meterHub := rfl

/-! ### State.modFn -/

@[simp] theorem State.modFn_clk (i : Nat) (f : HostFn → HostFn) : (s.modFn i f).clk = s.clk := rfl
@[simp] theorem State.modFn_freeCtr (i : Nat) (f : HostFn → HostFn) : (s.modFn i f).freeCtr = s.freeCtr := rfl
@[simp] theorem State.modFn_pending (i : Nat) (f : HostFn → HostFn) : (s.modFn i f).pending = s.pending := rfl
@[simp] theorem State.modFn_tx (i : Nat) (f : HostFn → HostFn) : (s.modFn i f).tx = s.tx := rfl
@[simp] theorem State.modFn_pairSeqs (i : Nat) (f : HostFn → HostFn) : (s.modFn i f).pairSeqs = s.pairSeqs := rfl
@[simp] theorem State.modFn_latches (i : Nat) (f : HostFn → HostFn) : (s.modFn i f).latches = s.latches := rfl
@[simp] theorem State.modFn_glb (i : Nat) (f : HostFn → HostFn) : (s.modFn i f).glb = s.glb := rfl
@[simp] theorem State.modFn_weltUp (i : Nat) (f : HostFn → HostFn) : (s.modFn i f).weltUp = s.weltUp := rfl
@[simp] theorem State.modFn_weltNext (i : Nat) (f : HostFn → HostFn) : (s.modFn i f).weltNext = s.weltNext := rfl
@[simp] theorem State.modFn_tick (i : Nat) (f : HostFn → HostFn) : (s.modFn i f).tick = s.tick := rfl
@[simp] theorem State.modFn_gov (i : Nat) (f : HostFn → HostFn) : (s.modFn i f).gov = s.gov := rfl
@[simp] theorem State.modFn_starts (i : Nat) (f : HostFn → HostFn) : (s.modFn i f).starts = s.starts := rfl
@[simp] theorem State.modFn_ariths (i : Nat) (f : HostFn → HostFn) : (s.modFn i f).ariths = s.ariths := rfl
@[simp] theorem State.modFn_driftSel (i : Nat) (f : HostFn → HostFn) : (s.modFn i f).driftSel = s.driftSel := rfl
@[simp] theorem State.modFn_drifts (i : Nat) (f : HostFn → HostFn) : (s.modFn i f).drifts = s.drifts := rfl
@[simp] theorem State.modFn_memCtxs (i : Nat) (f : HostFn → HostFn) : (s.modFn i f).memCtxs = s.memCtxs := rfl
@[simp] theorem State.modFn_census (i : Nat) (f : HostFn → HostFn) : (s.modFn i f).census = s.census := rfl
@[simp] theorem State.modFn_loads (i : Nat) (f : HostFn → HostFn) : (s.modFn i f).loads = s.loads := rfl
@[simp] theorem State.modFn_ctxRuns (i : Nat) (f : HostFn → HostFn) : (s.modFn i f).ctxRuns = s.ctxRuns := rfl
@[simp] theorem State.modFn_parts (i : Nat) (f : HostFn → HostFn) : (s.modFn i f).parts = s.parts := rfl
@[simp] theorem State.modFn_clus (i : Nat) (f : HostFn → HostFn) : (s.modFn i f).clus = s.clus := rfl
@[simp] theorem State.modFn_chans (i : Nat) (f : HostFn → HostFn) : (s.modFn i f).chans = s.chans := rfl
@[simp] theorem State.modFn_memc (i : Nat) (f : HostFn → HostFn) : (s.modFn i f).memc = s.memc := rfl
@[simp] theorem State.modFn_mem (i : Nat) (f : HostFn → HostFn) : (s.modFn i f).mem = s.mem := rfl
@[simp] theorem State.modFn_gran (i : Nat) (f : HostFn → HostFn) : (s.modFn i f).gran = s.gran := rfl
@[simp] theorem State.modFn_ecc (i : Nat) (f : HostFn → HostFn) : (s.modFn i f).ecc = s.ecc := rfl
@[simp] theorem State.modFn_sync (i : Nat) (f : HostFn → HostFn) : (s.modFn i f).sync = s.sync := rfl
@[simp] theorem State.modFn_loader (i : Nat) (f : HostFn → HostFn) : (s.modFn i f).loader = s.loader := rfl
@[simp] theorem State.modFn_partRegs (i : Nat) (f : HostFn → HostFn) : (s.modFn i f).partRegs = s.partRegs := rfl
@[simp] theorem State.modFn_dog (i : Nat) (f : HostFn → HostFn) : (s.modFn i f).dog = s.dog := rfl
@[simp] theorem State.modFn_tags (i : Nat) (f : HostFn → HostFn) : (s.modFn i f).tags = s.tags := rfl
@[simp] theorem State.modFn_ctxJobs (i : Nat) (f : HostFn → HostFn) : (s.modFn i f).ctxJobs = s.ctxJobs := rfl
@[simp] theorem State.modFn_fab (i : Nat) (f : HostFn → HostFn) : (s.modFn i f).fab = s.fab := rfl
@[simp] theorem State.modFn_packs (i : Nat) (f : HostFn → HostFn) : (s.modFn i f).packs = s.packs := rfl
@[simp] theorem State.modFn_packCtx (i : Nat) (f : HostFn → HostFn) : (s.modFn i f).packCtx = s.packCtx := rfl
@[simp] theorem State.modFn_usb (i : Nat) (f : HostFn → HostFn) : (s.modFn i f).usb = s.usb := rfl
@[simp] theorem State.modFn_sb (i : Nat) (f : HostFn → HostFn) : (s.modFn i f).sb = s.sb := rfl
@[simp] theorem State.modFn_stor (i : Nat) (f : HostFn → HostFn) : (s.modFn i f).stor = s.stor := rfl
@[simp] theorem State.modFn_leds (i : Nat) (f : HostFn → HostFn) : (s.modFn i f).leds = s.leds := rfl
@[simp] theorem State.modFn_ledRegs (i : Nat) (f : HostFn → HostFn) : (s.modFn i f).ledRegs = s.ledRegs := rfl
@[simp] theorem State.modFn_ckpts (i : Nat) (f : HostFn → HostFn) : (s.modFn i f).ckpts = s.ckpts := rfl
@[simp] theorem State.modFn_ckptRegs (i : Nat) (f : HostFn → HostFn) : (s.modFn i f).ckptRegs = s.ckptRegs := rfl
@[simp] theorem State.modFn_opt (i : Nat) (f : HostFn → HostFn) : (s.modFn i f).opt = s.opt := rfl
@[simp] theorem State.modFn_fuses (i : Nat) (f : HostFn → HostFn) : (s.modFn i f).fuses = s.fuses := rfl
@[simp] theorem State.modFn_flash (i : Nat) (f : HostFn → HostFn) : (s.modFn i f).flash = s.flash := rfl
@[simp] theorem State.modFn_boot (i : Nat) (f : HostFn → HostFn) : (s.modFn i f).boot = s.boot := rfl
@[simp] theorem State.modFn_upd (i : Nat) (f : HostFn → HostFn) : (s.modFn i f).upd = s.upd := rfl
@[simp] theorem State.modFn_mgmt (i : Nat) (f : HostFn → HostFn) : (s.modFn i f).mgmt = s.mgmt := rfl
@[simp] theorem State.modFn_therm (i : Nat) (f : HostFn → HostFn) : (s.modFn i f).therm = s.therm := rfl
@[simp] theorem State.modFn_meter (i : Nat) (f : HostFn → HostFn) : (s.modFn i f).meter = s.meter := rfl
@[simp] theorem State.modFn_meterHub (i : Nat) (f : HostFn → HostFn) : (s.modFn i f).meterHub = s.meterHub := rfl

/-! ### State.idle -/

@[simp] theorem State.idle_clk : (s.idle).clk = s.clk + 1 := rfl
@[simp] theorem State.idle_freeCtr : (s.idle).freeCtr = s.freeCtr := rfl
@[simp] theorem State.idle_pending : (s.idle).pending = s.pending := rfl
@[simp] theorem State.idle_tx : (s.idle).tx = s.tx := rfl
@[simp] theorem State.idle_pairSeqs : (s.idle).pairSeqs = s.pairSeqs := rfl
@[simp] theorem State.idle_latches : (s.idle).latches = s.latches := rfl
@[simp] theorem State.idle_glb : (s.idle).glb = s.glb := rfl
@[simp] theorem State.idle_weltUp : (s.idle).weltUp = s.weltUp := rfl
@[simp] theorem State.idle_weltNext : (s.idle).weltNext = s.weltNext := rfl
@[simp] theorem State.idle_tick : (s.idle).tick = s.tick := rfl
@[simp] theorem State.idle_gov : (s.idle).gov = s.gov := rfl
@[simp] theorem State.idle_starts : (s.idle).starts = s.starts := rfl
@[simp] theorem State.idle_ariths : (s.idle).ariths = s.ariths := rfl
@[simp] theorem State.idle_driftSel : (s.idle).driftSel = s.driftSel := rfl
@[simp] theorem State.idle_drifts : (s.idle).drifts = s.drifts := rfl
@[simp] theorem State.idle_memCtxs : (s.idle).memCtxs = s.memCtxs := rfl
@[simp] theorem State.idle_census : (s.idle).census = s.census := rfl
@[simp] theorem State.idle_loads : (s.idle).loads = s.loads := rfl
@[simp] theorem State.idle_ctxRuns : (s.idle).ctxRuns = s.ctxRuns := rfl
@[simp] theorem State.idle_parts : (s.idle).parts = s.parts := rfl
@[simp] theorem State.idle_clus : (s.idle).clus = s.clus := rfl
@[simp] theorem State.idle_chans : (s.idle).chans = s.chans := rfl
@[simp] theorem State.idle_memc : (s.idle).memc = s.memc := rfl
@[simp] theorem State.idle_mem : (s.idle).mem = s.mem := rfl
@[simp] theorem State.idle_gran : (s.idle).gran = s.gran := rfl
@[simp] theorem State.idle_ecc : (s.idle).ecc = s.ecc := rfl
@[simp] theorem State.idle_sync : (s.idle).sync = s.sync := rfl
@[simp] theorem State.idle_loader : (s.idle).loader = s.loader := rfl
@[simp] theorem State.idle_partRegs : (s.idle).partRegs = s.partRegs := rfl
@[simp] theorem State.idle_dog : (s.idle).dog = s.dog := rfl
@[simp] theorem State.idle_tags : (s.idle).tags = s.tags := rfl
@[simp] theorem State.idle_ctxJobs : (s.idle).ctxJobs = s.ctxJobs := rfl
@[simp] theorem State.idle_fab : (s.idle).fab = s.fab := rfl
@[simp] theorem State.idle_packs : (s.idle).packs = s.packs := rfl
@[simp] theorem State.idle_packCtx : (s.idle).packCtx = s.packCtx := rfl
@[simp] theorem State.idle_host : (s.idle).host = s.host := rfl
@[simp] theorem State.idle_usb : (s.idle).usb = s.usb := rfl
@[simp] theorem State.idle_sb : (s.idle).sb = s.sb := rfl
@[simp] theorem State.idle_stor : (s.idle).stor = s.stor := rfl
@[simp] theorem State.idle_leds : (s.idle).leds = s.leds := rfl
@[simp] theorem State.idle_ledRegs : (s.idle).ledRegs = s.ledRegs := rfl
@[simp] theorem State.idle_ckpts : (s.idle).ckpts = s.ckpts := rfl
@[simp] theorem State.idle_ckptRegs : (s.idle).ckptRegs = s.ckptRegs := rfl
@[simp] theorem State.idle_opt : (s.idle).opt = s.opt := rfl
@[simp] theorem State.idle_fuses : (s.idle).fuses = s.fuses := rfl
@[simp] theorem State.idle_flash : (s.idle).flash = s.flash := rfl
@[simp] theorem State.idle_boot : (s.idle).boot = s.boot := rfl
@[simp] theorem State.idle_upd : (s.idle).upd = s.upd := rfl
@[simp] theorem State.idle_mgmt : (s.idle).mgmt = s.mgmt := rfl
@[simp] theorem State.idle_therm : (s.idle).therm = s.therm := rfl
@[simp] theorem State.idle_meter : (s.idle).meter = s.meter := rfl
@[simp] theorem State.idle_meterHub : (s.idle).meterHub = s.meterHub := rfl

/-! ### State.popped -/

@[simp] theorem State.popped_clk (q : List Instr) : (s.popped q).clk = s.clk := rfl
@[simp] theorem State.popped_freeCtr (q : List Instr) : (s.popped q).freeCtr = s.freeCtr := rfl
@[simp] theorem State.popped_pending (q : List Instr) : (s.popped q).pending = q := rfl
@[simp] theorem State.popped_tx (q : List Instr) : (s.popped q).tx = s.tx := rfl
@[simp] theorem State.popped_pairSeqs (q : List Instr) : (s.popped q).pairSeqs = s.pairSeqs := rfl
@[simp] theorem State.popped_latches (q : List Instr) : (s.popped q).latches = s.latches := rfl
@[simp] theorem State.popped_glb (q : List Instr) : (s.popped q).glb = s.glb := rfl
@[simp] theorem State.popped_weltUp (q : List Instr) : (s.popped q).weltUp = s.weltUp := rfl
@[simp] theorem State.popped_weltNext (q : List Instr) : (s.popped q).weltNext = s.weltNext := rfl
@[simp] theorem State.popped_tick (q : List Instr) : (s.popped q).tick = s.tick := rfl
@[simp] theorem State.popped_gov (q : List Instr) : (s.popped q).gov = s.gov := rfl
@[simp] theorem State.popped_starts (q : List Instr) : (s.popped q).starts = s.starts := rfl
@[simp] theorem State.popped_ariths (q : List Instr) : (s.popped q).ariths = s.ariths := rfl
@[simp] theorem State.popped_driftSel (q : List Instr) : (s.popped q).driftSel = s.driftSel := rfl
@[simp] theorem State.popped_drifts (q : List Instr) : (s.popped q).drifts = s.drifts := rfl
@[simp] theorem State.popped_memCtxs (q : List Instr) : (s.popped q).memCtxs = s.memCtxs := rfl
@[simp] theorem State.popped_census (q : List Instr) : (s.popped q).census = s.census := rfl
@[simp] theorem State.popped_loads (q : List Instr) : (s.popped q).loads = s.loads := rfl
@[simp] theorem State.popped_ctxRuns (q : List Instr) : (s.popped q).ctxRuns = s.ctxRuns := rfl
@[simp] theorem State.popped_parts (q : List Instr) : (s.popped q).parts = s.parts := rfl
@[simp] theorem State.popped_clus (q : List Instr) : (s.popped q).clus = s.clus := rfl
@[simp] theorem State.popped_chans (q : List Instr) : (s.popped q).chans = s.chans := rfl
@[simp] theorem State.popped_memc (q : List Instr) : (s.popped q).memc = s.memc := rfl
@[simp] theorem State.popped_mem (q : List Instr) : (s.popped q).mem = s.mem := rfl
@[simp] theorem State.popped_gran (q : List Instr) : (s.popped q).gran = s.gran := rfl
@[simp] theorem State.popped_ecc (q : List Instr) : (s.popped q).ecc = s.ecc := rfl
@[simp] theorem State.popped_sync (q : List Instr) : (s.popped q).sync = s.sync := rfl
@[simp] theorem State.popped_loader (q : List Instr) : (s.popped q).loader = s.loader := rfl
@[simp] theorem State.popped_partRegs (q : List Instr) : (s.popped q).partRegs = s.partRegs := rfl
@[simp] theorem State.popped_dog (q : List Instr) : (s.popped q).dog = s.dog := rfl
@[simp] theorem State.popped_tags (q : List Instr) : (s.popped q).tags = s.tags := rfl
@[simp] theorem State.popped_ctxJobs (q : List Instr) : (s.popped q).ctxJobs = s.ctxJobs := rfl
@[simp] theorem State.popped_fab (q : List Instr) : (s.popped q).fab = s.fab := rfl
@[simp] theorem State.popped_packs (q : List Instr) : (s.popped q).packs = s.packs := rfl
@[simp] theorem State.popped_packCtx (q : List Instr) : (s.popped q).packCtx = s.packCtx := rfl
@[simp] theorem State.popped_host (q : List Instr) : (s.popped q).host = s.host := rfl
@[simp] theorem State.popped_usb (q : List Instr) : (s.popped q).usb = s.usb := rfl
@[simp] theorem State.popped_sb (q : List Instr) : (s.popped q).sb = s.sb := rfl
@[simp] theorem State.popped_stor (q : List Instr) : (s.popped q).stor = s.stor := rfl
@[simp] theorem State.popped_leds (q : List Instr) : (s.popped q).leds = s.leds := rfl
@[simp] theorem State.popped_ledRegs (q : List Instr) : (s.popped q).ledRegs = s.ledRegs := rfl
@[simp] theorem State.popped_ckpts (q : List Instr) : (s.popped q).ckpts = s.ckpts := rfl
@[simp] theorem State.popped_ckptRegs (q : List Instr) : (s.popped q).ckptRegs = s.ckptRegs := rfl
@[simp] theorem State.popped_opt (q : List Instr) : (s.popped q).opt = s.opt := rfl
@[simp] theorem State.popped_fuses (q : List Instr) : (s.popped q).fuses = s.fuses := rfl
@[simp] theorem State.popped_flash (q : List Instr) : (s.popped q).flash = s.flash := rfl
@[simp] theorem State.popped_boot (q : List Instr) : (s.popped q).boot = s.boot := rfl
@[simp] theorem State.popped_upd (q : List Instr) : (s.popped q).upd = s.upd := rfl
@[simp] theorem State.popped_mgmt (q : List Instr) : (s.popped q).mgmt = s.mgmt := rfl
@[simp] theorem State.popped_therm (q : List Instr) : (s.popped q).therm = s.therm := rfl
@[simp] theorem State.popped_meter (q : List Instr) : (s.popped q).meter = s.meter := rfl
@[simp] theorem State.popped_meterHub (q : List Instr) : (s.popped q).meterHub = s.meterHub := rfl

/-! ### What an updated table holds -/

@[simp] theorem State.modChan_chan_same (k : Nat) (f : Chan → Chan) : (s.modChan k f).chan k = f (s.chan k) := Tab.get_set_same _ _ _ _

theorem State.modChan_chan_other (k j : Nat) (f : Chan → Chan) (h : j ≠ k) : (s.modChan k f).chan j = s.chan j := Tab.get_set_other _ _ _ _ _ h

@[simp] theorem State.modRun_run_same (c : Nat) (f : CtxRun → CtxRun) : (s.modRun c f).run c = f (s.run c) := Tab.get_set_same _ _ _ _

theorem State.modRun_run_other (c j : Nat) (f : CtxRun → CtxRun) (h : j ≠ c) : (s.modRun c f).run j = s.run j := Tab.get_set_other _ _ _ _ _ h

@[simp] theorem State.modStart_start_same (c : Nat) (f : Start → Start) : (s.modStart c f).start c = f (s.start c) := Tab.get_set_same _ _ _ _

theorem State.modStart_start_other (c j : Nat) (f : Start → Start) (h : j ≠ c) : (s.modStart c f).start j = s.start j := Tab.get_set_other _ _ _ _ _ h

@[simp] theorem State.modArith_arith_same (c : Nat) (f : Arith → Arith) : (s.modArith c f).arith c = f (s.arith c) := Tab.get_set_same _ _ _ _

theorem State.modArith_arith_other (c j : Nat) (f : Arith → Arith) (h : j ≠ c) : (s.modArith c f).arith j = s.arith j := Tab.get_set_other _ _ _ _ _ h

@[simp] theorem State.modLoad_load_same (c : Nat) (f : LoadCtx → LoadCtx) : (s.modLoad c f).load c = f (s.load c) := Tab.get_set_same _ _ _ _

theorem State.modLoad_load_other (c j : Nat) (f : LoadCtx → LoadCtx) (h : j ≠ c) : (s.modLoad c f).load j = s.load j := Tab.get_set_other _ _ _ _ _ h

@[simp] theorem State.modMemCtx_memCtx_same (c : Nat) (f : MemCtx → MemCtx) : (s.modMemCtx c f).memCtx c = f (s.memCtx c) := Tab.get_set_same _ _ _ _

theorem State.modMemCtx_memCtx_other (c j : Nat) (f : MemCtx → MemCtx) (h : j ≠ c) : (s.modMemCtx c f).memCtx j = s.memCtx j := Tab.get_set_other _ _ _ _ _ h

@[simp] theorem State.modCens_cens_same (c : Nat) (f : Census → Census) : (s.modCens c f).cens c = f (s.cens c) := Tab.get_set_same _ _ _ _

theorem State.modCens_cens_other (c j : Nat) (f : Census → Census) (h : j ≠ c) : (s.modCens c f).cens j = s.cens j := Tab.get_set_other _ _ _ _ _ h

@[simp] theorem State.modLed_led_same (c : Nat) (f : Led → Led) : (s.modLed c f).led c = f (s.led c) := Tab.get_set_same _ _ _ _

theorem State.modLed_led_other (c j : Nat) (f : Led → Led) (h : j ≠ c) : (s.modLed c f).led j = s.led j := Tab.get_set_other _ _ _ _ _ h

@[simp] theorem State.modCkpt_ckpt_same (c : Nat) (f : Ckpt → Ckpt) : (s.modCkpt c f).ckpt c = f (s.ckpt c) := Tab.get_set_same _ _ _ _

theorem State.modCkpt_ckpt_other (c j : Nat) (f : Ckpt → Ckpt) (h : j ≠ c) : (s.modCkpt c f).ckpt j = s.ckpt j := Tab.get_set_other _ _ _ _ _ h

@[simp] theorem State.modClu_clu_same (k : Nat) (f : Clu → Clu) : (s.modClu k f).clu k = f (s.clu k) := Tab.get_set_same _ _ _ _

theorem State.modClu_clu_other (k j : Nat) (f : Clu → Clu) (h : j ≠ k) : (s.modClu k f).clu j = s.clu j := Tab.get_set_other _ _ _ _ _ h

@[simp] theorem State.modFn_fn_same (i : Nat) (f : HostFn → HostFn) : (s.modFn i f).fn i = f (s.fn i) := Tab.get_set_same _ _ _ _

theorem State.modFn_fn_other (i j : Nat) (f : HostFn → HostFn) (h : j ≠ i) : (s.modFn i f).fn j = s.fn j := Tab.get_set_other _ _ _ _ _ h

@[simp] theorem State.modCtl_part_same (g : Nat) (f : PartCtl → PartCtl) : (s.modCtl g f).part g = { s.part g with ctl := f (s.part g).ctl } :=
  Tab.get_set_same _ _ _ _

theorem State.modCtl_part_other (g j : Nat) (f : PartCtl → PartCtl) (h : j ≠ g) : (s.modCtl g f).part j = s.part j := Tab.get_set_other _ _ _ _ _ h

@[simp] theorem State.modMon_part_same (g : Nat) (f : PartMon → PartMon) : (s.modMon g f).part g = { s.part g with mon := f (s.part g).mon } :=
  Tab.get_set_same _ _ _ _

theorem State.modMon_part_other (g j : Nat) (f : PartMon → PartMon) (h : j ≠ g) : (s.modMon g f).part j = s.part j := Tab.get_set_other _ _ _ _ _ h

@[simp] theorem State.modSync_part_same (g : Nat) (f : PartSync → PartSync) : (s.modSync g f).part g = { s.part g with sync := f (s.part g).sync } :=
  Tab.get_set_same _ _ _ _

theorem State.modSync_part_other (g j : Nat) (f : PartSync → PartSync) (h : j ≠ g) : (s.modSync g f).part j = s.part j := Tab.get_set_other _ _ _ _ _ h

@[simp] theorem State.modDrift_drift_same (c i : Nat) (f : Drift → Drift) : (s.modDrift c i f).drift c i = f (s.drift c i) :=
  Tab.get_set_same _ _ _ _

/-! ### State.free -/

@[simp] theorem State.free_fst (bound : Nat) : (s.free bound).1 = Config.freeValue s.freeCtr % bound := rfl
@[simp] theorem State.free_snd (bound : Nat) : (s.free bound).2 = { s with freeCtr := s.freeCtr + 1 } := rfl

end Sys2Proof.Machine
end

