-- ==== Sys2Proof/Tests/Slice0.lean ====
section
/-! SUPPORT. Tests: ill-formed commands are refused by the check, each obligation's hypotheses are met by a concrete state and
operands (test_witness_<obligation>), and worked examples of the spec. -/

namespace Sys2Proof.Tests

set_option Elab.async false

open Sys2Proof Sys2Proof.Machine

/-! Ill-formed terms: one for each check of WellFormed.lean. -/

def aBeacon : Beacon :=
  { echo := false, turnaround := 0, rootId := 1, hopCount := 0, periodUs := 16, digest64 := 0, tickN := 2 ^ 64 - 1, tick := 0 }
def aHello : Hello :=
  { serial := 1, dev := 2, role := 1, port := 3, sysid := 0, digest64 := 0, bufs := [8, 8, 8], last := [0, 0, 0] }
def aPacket : Packet := { typ := 0x10 }
def aFrame : Frame :=
  { port := 22, vc := 2, gen := 0, seq := 0, crcOk := true, idle := false, ack := 0, credits := 0, replay := false }
def aVote : Vote := { step := 5, stepN := 2 ^ 64 - 6, cfg := 0, weights := 0, tripped := 0, job := 0, member := 0, status := 0 }

theorem test_wf_refuses_ill_formed_numbers : ([
    .registerWrite .bar0 4 (2 ^ 21) 0 0, .registerWrite .bar0 4 0 (2 ^ 32) 0, .pairedReadLatch .bar0 (2 ^ 21) 0,
    .pairedWriteWord .bar0 0 (2 ^ 32) 0, .weltLinkDown 12, .weltLinkRestored 12, .startArm (2 ^ 64), .startDisarm 1024, .tickPeriodWrite (2 ^ 32),
    .recordDispatch 64 0 0, .recordDispatch 0 18 0, .recordWaitMet 0 0 8 0, .passIssue 0 0 2 0, .bankDrain 0 0 3 0,
    .codebookCalibrate 0 (2 ^ 32) 0, .granuleRead 0 0 0 0 2 0 [], .granuleRead 0 0 0 0 0 (2 ^ 64) [], .granuleWrite 0 0 0 8 0 0 [],
    .eccWriteback false 1152, .scrubAccess true 1152 0 0 [], .scrubAccess true 0 8 0 [], .tgStop 256, .loadGo 4 0 0 0, .loadGo 0 4096 0 0,
    .loadFetchData 0 256 0 [], .ledgerTransferReceive 0 4 0 [] 0, .ledgerTransferReceive 0 0 0 [] (2 ^ 128), .mirrorRestore 0 2 [] none,
    .mirrorSeeding 0 2 0 [] none, .ckptDigestTreeReceive 0 0 [], .ckptRestore 0 2 0 [] [], .ckptRestore 0 0 256 [] [], .linkIdleTimeout 23 0,
    .censusMarkerReceive 0 3 0 0 0 0, .censusMarkerReceive 0 0 (2 ^ 16) 0 0 0, .portTrainingDone 0 32 true 0, .fabRetrain 64,
    .fabJobWrite 16 true 0, .engineSearch 2, .lockVisit 32 0 0, .lockVisit 0 18 0, .laneOutReply 0 16 true, .laserLoss 0 4,
    .switchSlotWrite 16 0, .mapApply 0 8, .planEntryWrite 64 0 0, .planEntryWrite 0 2 0, .circuitIdentReceive 0 0 0 [] 0,
    .adcSampleDone 0 2048] : List Instr).all (fun i => !i.wf) = true := by decide

theorem test_wf_refuses_ill_formed_services : ([
    .pllLock 4 0, .railSequence (some 14) 0, .bringupTraining false [12] [] 0, .bringupTraining false [] [256] 0, .selfTestStart 65 0,
    .hostInboundRequest 64 false 0 0 [] 0, .hostInboundRequest 0 false (2 ^ 28) 0 [] 0, .hostInboundRequest 0 false 0 4097 [] 0,
    .storPacketReceive 2 0 .ack false 0, .cnpReceive 4096 0, .pfcStuck 2 0, .pfcPauseReceive 0 8 true 0, .usbRead 0 (2 ^ 16) 0,
    .usbWrite 0 4 [2 ^ 32] 0, .sidebandRetry 2 true 0, .mgmtRead (2 ^ 128) 0 0 1 0, .mgmtRead 0 0 0 (2 ^ 16) 0, .mgmtWrite 0 0 0 [2 ^ 32] 0,
    .reportAckReceive 2 0, .attributionFrame 0 0 [], .meterTickClose [] 0 0 0, .meterFetch 0 0 0 256, .meterCalibration 0 0 256 0,
    .meterCalibration 0 0 0 (2 ^ 96), .thermalTrip [] 0, .hostLinkUp 0 16 true 0, .hostLinkUp 7 16 true 0, .hostLinkUp 6 17 true 0,
    .hostLinkUp 6 16 true 64] : List Instr).all (fun i => !i.wf) = true := by decide

theorem test_wf_refuses_ill_formed_operands :
    ([{ aBeacon with turnaround := 2 ^ 16 }, { aBeacon with rootId := 4096 }, { aBeacon with hopCount := 16 }, { aBeacon with periodUs := 128 },
      { aBeacon with digest64 := 2 ^ 64 }, { aBeacon with tickN := 2 ^ 64 }, { aBeacon with tick := 2 ^ 64 }].all
        (fun b => !(Instr.beaconReceive 0 b 0).wf)) = true ∧
    (Instr.echoReceive 0 aBeacon 0).wf = false ∧
    ([{ aHello with serial := 2 ^ 64 }, { aHello with dev := 4096 }, { aHello with role := 4 }, { aHello with port := 64 },
      { aHello with sysid := 2 ^ 32 }, { aHello with digest64 := 2 ^ 64 }, { aHello with bufs := [] }, { aHello with last := [] }].all
        (fun h => !(Instr.helloReceive 0 h 0).wf)) = true ∧
    ([{ aPacket with typ := 256 }, { aPacket with group := 4096 }, { aPacket with phase := 2 ^ 16 }, { aPacket with epoch := 2 ^ 32 },
      { aPacket with job := 2 ^ 32 }, { aPacket with srcDev := 4096 }, { aPacket with dstDev := 4096 }, { aPacket with data := [0] }].all
        (fun k => !(Instr.fabricPacketReceive 0 0 k).wf)) = true ∧
    ([{ aFrame with port := 23 }, { aFrame with vc := 3 }, { aFrame with gen := 256 }, { aFrame with seq := 2 ^ 16 },
      { aFrame with ack := 2 ^ 16 }].all (fun f => !(Instr.frameReceive f 0).wf)) = true ∧
    ([{ aVote with step := 2 ^ 64 }, { aVote with stepN := 2 ^ 64 }, { aVote with cfg := 2 ^ 256 }, { aVote with weights := 2 ^ 128 },
      { aVote with tripped := 2 ^ 256 }, { aVote with job := 2 ^ 32 }, { aVote with member := 2 ^ 16 }, { aVote with status := 256 }].all
        (fun v => !(Instr.voteReceive 0 v).wf)) = true := by decide

theorem test_wf_accepts : ([.beaconReceive 22 aBeacon 0, .helloReceive 22 aHello 0, .fabricPacketReceive 22 2 aPacket, .frameReceive aFrame 0,
    .voteReceive 1023 aVote, .registerWrite .usb 4 (2 ^ 21 - 1) (2 ^ 32 - 1) 0, .passIssue 63 17 1 0, .hostLinkUp 6 16 true 63,
    .bringupTraining true [11] [255] 0] : List Instr).all Instr.wf = true := by decide

/-! States and operands that meet the hypotheses of the obligations, clause by clause, at boundary values. -/

/-- Context 0 owns partition 0, is resident there and has one window row of its four channels. -/
def s0 : State := { State.reset with
  ctxRuns := [(0, { assign := pairOf 64 1 })]
  memCtxs := [(0, { win := pairOf 32 0x80000001 })]
  parts := [(0, { ctl := { residentValid := true, resident := 0 } })] }

theorem test_witness_StepTakesFrontCommand :
    ({ s0 with pending := [.relock, .sheepdogPop] } : State).pending = .relock :: [.sheepdogPop] ∧ s0.pending = [] := by decide

theorem test_witness_StepKeepsSound : Sound { s0 with clk := 5 } ∧ step { s0 with clk := 5 } = .next { s0 with clk := 6 } :=
  ⟨⟨by decide, by decide, by decide⟩, rfl⟩

theorem test_witness_CommandKeepsQueueAndHistory : Sound s0 ∧ ∃ t, exec .sheepdogAck s0 = .next t :=
  ⟨⟨by decide, by decide, by decide⟩, _, rfl⟩

theorem test_witness_MeterWindowTakesNoWrite :
    (0xE0000 ≤ 0xE0000 ∧ 0xE0000 < 0xF0000) ∧ 0xE0000 ≤ 0xEFFFF ∧ 0xEFFFF < 0xF0000 := by decide

theorem test_witness_RegisterAccessesOutsideTheSpaceDoNothing :
    ((2 ≠ 4 ∨ 0 % 4 ≠ 0 ∨ 0x120000 ≤ 0) ∧ (4 ≠ 4 ∨ 2 % 4 ≠ 0 ∨ 0x120000 ≤ 2) ∧ (4 ≠ 4 ∨ 0x120000 % 4 ≠ 0 ∨ 0x120000 ≤ 0x120000)) ∧
    (0x11FFFF % 4 ≠ 0 ∨ 0x120000 ≤ 0x11FFFF) ∧ (0x120000 % 4 ≠ 0 ∨ 0x120000 ≤ 0x120000) := by decide

theorem test_witness_RegisterFieldsTakeWhatIsWritten :
    2 ^ 32 - 1 < 2 ^ 32 ∧ 63 < 64 ∧ (2 * 2 ^ 24 + 5) < 2 ^ 32 ∧ (2 * 2 ^ 24 + 5) / 2 ^ 24 % 4 ≠ 3 := by decide

theorem test_witness_PairedReadsComeFromOneLatch :
    let l : PairLatch := ⟨0, 0x50010, [7, 8], 0⟩
    let s : State := { s0 with latches := [l] }
    pairAt 0x50010 = some (0x50010, 2, 0) ∧
    (pairAt 0x50014 = some (0x50010, 2, 1) ∧ (s.latches.find? fun x => x.path == pathNo .bar0 && x.base == 0x50010) = some l ∧
      l.words[1]? = some 8 ∧ (s.atClk 64).clk ≤ l.at_ + 64) ∧
    (∀ x, (s.latches.find? fun x => x.path == pathNo .bar0 && x.base == 0x50010) = some x → x.at_ + 64 < (s.atClk 65).clk) ∧
    ∀ x, (s0.latches.find? fun x => x.path == pathNo .usb && x.base == 0x50010) = some x → x.at_ + 64 < (s0.atClk 0).clk := by
  refine ⟨by decide +kernel, ⟨by decide +kernel, rfl, rfl, by decide⟩, ?_, ?_⟩
  · intro x h; cases h; decide
  · intro x h; cases h

theorem test_witness_PairedWritesTakeEffectOnTheFinalWord :
    (pairAt 0x50010 = some (0x50010, 2, 0) ∧ 0x50010 % 4 = 0 ∧ 0x50010 / 0x10000 ≠ 0xE ∧ Tab.find s0.pairSeqs (pathNo .mgmt) = none) ∧
    Tab.find ({ s0 with pairSeqs := [(1, ⟨0x50010, [9]⟩)] } : State).pairSeqs (pathNo .mgmt) = some ⟨0x50010, [9]⟩ := by decide +kernel

/-- A device aligned to beacons that come by port 3, its delay to the root 40 clk. -/
def sTick : State := { s0 with
  clk := 1000, tick := { upstreamPort := 3, everAligned := true, aligned := true, number := pairOf 64 7, lastEdge := 960, delays := [40], backupPort := 4 } }

theorem test_witness_BeaconIsAcceptedOrCounted :
    let b : Beacon := { aBeacon with tick := 7, tickN := not64 7 }
    (b.echo = false ∧ b.tickN = not64 b.tick ∧ b.tick = sTick.tickNo ∧ b.periodUs = sTick.tick.period ∧ 3 = sTick.tick.upstream ∧ 3 ≠ 0x3F) ∧
    (State.reset.tick.everAligned = false ∧ { sTick with tick := { sTick.tick with adoptNext := true } }.tick.adoptNext = true) ∧
    { b with echo := true }.echo = true ∧ { b with tickN := 0 }.tickN ≠ not64 b.tick ∧
    (8 ≠ sTick.tickNo ∧ sTick.tick.everAligned = true ∧ sTick.tick.adoptNext = false) ∧ 17 ≠ sTick.tick.period ∧ 4 ≠ sTick.tick.upstream := by
  decide +kernel

theorem test_witness_RelockClearsAlignedAndAdoptsNext :
    let hold (n : Nat) : State := { sTick with tick := { sTick.tick with holdover := true, holdoverTicks := n } }
    ((hold 64).tick.holdover = true ∧ (hold 64).tick.aligned = true ∧ (hold 64).tick.holdoverMax ≤ (hold 64).tick.holdoverTicks) ∧
    sTick.tick.holdover = false ∧ State.reset.tick.aligned = false ∧ (hold 63).tick.holdoverTicks < (hold 63).tick.holdoverMax := by
  decide +kernel

theorem test_witness_EchoMeasuresTheRoundTrip :
    let s (n : Nat) : State := { sTick with tick := { sTick.tick with
      lastBeacon := some aBeacon, ticksSinceEcho := n, beaconSent := [(3, 0, 700)] } }
    ((s 256).tick.lastBeacon = some aBeacon ∧ 256 ≤ (s 256).tick.ticksSinceEcho) ∧ (s 255).tick.ticksSinceEcho < 256 ∧
    sTick.tick.lastBeacon = none ∧
    ((s 0).tick.beaconSent.find? fun e => e.1 == 3 && e.2.1 == aBeacon.tick) = some (3, 0, 700) := by decide +kernel

theorem test_witness_StartArmAcceptsOnlyWithLead :
    let s : State := { sTick with loads := [(0, { state := 4 })] }
    let r (n : Nat) : State := { s with starts := [(0, { state := n })] }
    (s.tick.startCtx = 0 ∧ (s.start 0).state ≠ 3 ∧ (s.start 0).state ≠ 6) ∧
    (State.reset.tick.aligned = false ∧ (sTick.load 0).state ≠ 4) ∧
    (s.tick.aligned = true ∧ (s.load 0).state = 4 ∧ 8 + s.rampTicks 0 < s.tickNo + 2 + s.rampTicks 0) ∧
    s.tickNo + 2 + s.rampTicks 0 ≤ 9 + s.rampTicks 0 ∧ ((r 3).start (r 3).tick.startCtx).state = 3 ∧
    ((r 6).start (r 6).tick.startCtx).state = 6 := by decide +kernel

theorem test_witness_CheckedWritesStoreOrAreDiscarded : 15 < 16 ∧ 0 < 16 ∧ 1 < 16 := by decide

/-! A context that runs one tile instruction: its image lies in the first 1,024 bytes of its bulk space, its operands are zeros. -/

/-- Write `n` bytes of a number at a bulk address of context 0. -/
def poke (s : State) (a n x : Nat) : State := (s.writeRange (portAgent 0) 0 a (leBytes n x)).2

/-- A tile instruction with one row, one column and one reduction position on unit `u`, with weight set `ws`. -/
def tileRec (u ws : Nat) : Nat :=
  1 + u * 2 ^ 8 + 2 ^ 32 + 2 ^ 52 + 2 ^ 76 + 2 ^ 94 + 2 ^ 110 + 2 ^ 122 + 2 ^ 134 + 2 ^ 146 + ws * 2 ^ 168 + 2 ^ 192 + 2 * 2 ^ 204 +
    0xFFF * 2 ^ 216 + 0xFFF * 2 ^ 228

/-- A BF16 tensor of one row at address 960. -/
def tensorRec : Nat := 15 + 2 ^ 38 + 2 ^ 44 + 2 ^ 48

def sImg : State :=
  let s := { s0 with loads := [(0, { state := 4, img := { secs := [⟨1, 11, 0, 1⟩, ⟨2, 1, 0, 12⟩, ⟨3, 1, 0, 13⟩, ⟨4, 1, 0, 14⟩], calibEvery := 1 } })] }
  let s := poke s 64 16 (2 ^ 80 + 4 * 2 ^ 96)
  let s := poke s 320 32 (8 + 2 * 2 ^ 32 + 2 ^ 116)
  let s := poke s 576 64 (tileRec 0 0xFFF)
  let s := poke s 640 64 (2 + 2 ^ 8)
  let s := poke s 704 64 (4 + 2 ^ 56 + 2 ^ 80)
  let s := poke s 768 48 (tensorRec * (1 + 2 ^ 128 + 2 ^ 256))
  let s := poke s 832 8 (2 ^ 63)
  poke s 896 32 (15 + 15 * 2 ^ 32 + 15 * 2 ^ 64 + 2 ^ 160 + 2 ^ 178 + 4 * 2 ^ 202 + 2 ^ 234)

/-- That context with cluster 0 as given. -/
def sClu (c : Clu) : State := { sImg with clus := [(0, c)] }

/-- The tile instruction, started on unit `u`. -/
def aRun (u ws : Nat) : Run := { idx := 0, unit := u, rec_ := tileRec u ws, instr := 8, rep := 0 }

theorem test_witness_RecordsAreDispatchedStartedAndRetired :
    let q : Queued := ⟨0, 0, tileRec 0 0xFFF, 8, 0, 0⟩
    let s := sClu { segOpen := true, queue := [q] }
    let r := { aRun 0 0xFFF with finished := true }
    (s.mayIssue 0 = some 0 ∧ (s.run 0).stopped = false ∧ (s.clu 0).segOpen = true ∧ (s.clu 0).ended = false ∧
      ((s.atClk 9).fetchRec (agentOf 0 0 0 4 0) (s.partIndex 0 0) 0 (s.clu 0).pos).2.1 = some (⟨8, 0, 0⟩, tileRec 0 0xFFF)) ∧
    ((s.clu 0).queued 0 = [q] ∧ (s.clu 0).unitFree 0 = true ∧ s.brokenWait 0 (waitNeeds q.rec_) = none) ∧
    (sImg.residentOf 0 = some 0 ∧ (({ runs := [r] } : Clu).runs.find? fun r => r.idx == 0 && r.finished) = some r ∧ recKind r.rec_ ≠ 5) ∧
    let e := sClu { segOpen := true, pos := 1 }
    e.nextRec 0 0 0 = some (⟨9, 0, 0⟩, 258) ∧ recKind 258 = 2 ∧ markEnd 258 = true ∧ e.segDone 0 0 0 = true := by decide +kernel

theorem test_witness_MatrixAndAwlWorkFoldsAndDrains :
    (let s := sClu { runs := [aRun 0 0xFFF] }
     let j := s.job 0 0 0 (aRun 0 0xFFF)
     let d1 := s.last j.ag j.t.lastIdx
     let d2 := s.last j.ag (j.t.lastIdx + 1)
     let pass : Pass := ⟨0, 0, 0, 0, 1, false⟩
     let fetch := s.fetchTile j 0
     let x := fetch.2.runPass j 0 0 0 (fun t o => (j.bandAt pass d1 t o).map fun b => j.bandRange 0 pass d1 b) [] []
     s.mayIssue 0 = some 0 ∧ bitOf s.gov.gated 0 = false ∧ (s.clu 0).active 0 = some (aRun 0 0xFFF) ∧
     s.stageFree 0 0 0 (aRun 0 0xFFF) = true ∧ (j.passes 0 d1 d2)[0]? = some pass ∧ fetch.1 = 0 ∧
     ((unitBanks 0).find? fun i => ((s.clu 0).bank i).state == 0) = some 0 ∧ ((s.clu 0).lastPass[0]?).getD (0, 0, 0) = (0, 0, 0) ∧ x.1 = none) ∧
    (let s := { sImg with gov := { sImg.gov with gated := 1 } }
     s.mayIssue 0 = some 0 ∧ bitOf s.gov.gated 0 = true) ∧
    (let s := sClu { runs := [aRun 2 0xFFF] }
     let j := s.job 0 0 0 (aRun 2 0xFFF)
     let fetch := s.fetchTile j 0
     (s.clu 0).active 2 = some (aRun 2 0xFFF) ∧ ((s.clu 0).bank 4).state = 0 ∧ s.stageFree 0 0 0 (aRun 2 0xFFF) = true ∧ fetch.1 = 0 ∧
     (fetch.2.runPass j 0 0 0 (fun _ _ => some (0, 32)) [] []).1 = none) ∧
    (let s := sClu { runs := [aRun 0 0xFFF], banks := [{ state := 2 }, {}, {}, {}, {}] }
     (s.clu 0).completeBank 0 = some 0 ∧
      ((s.clu 0).runs.find? fun r => r.idx == ((s.clu 0).bank 0).idx) = some (aRun 0 0xFFF)) := by decide +kernel

theorem test_witness_TickNumberCountsOnceAtAnEdge :
    sTick.tick.number.ok = true ∧ sTick.tick.due ≤ (sTick.atClk 18560).clk ∧ ∃ t, exec (.tickEdge 18560 0 0 false false) sTick = .next t :=
  ⟨by decide +kernel, by decide +kernel, _, rfl⟩

theorem test_witness_EdgeDoesItsWorkInOneOrder :
    (sTick.tick.due = 18560 ∧ sTick.tick.number.ok = true ∧ (sTick.atClk 18559).clk < sTick.tick.due) ∧
    (let s := { s0 with gov := { s0.gov with gated := 1 } }
     min (s.gov.pEst * 100 + s.limitMw) (s.powerCap * 100) < 10 ^ 9 * 100 ∧ bitOf s.gov.gated 1 = false ∧ ∀ j < 1, bitOf s.gov.gated j = true) ∧
    (let s := { s0 with gov := { s0.gov with gated := 2 ^ 1151 } }
     0 * 100 ≤ min (s.gov.pEst * 100 + s.limitMw) (s.powerCap * 100) ∧ bitOf s.gov.gated 1151 = true ∧ ∀ j < 1151, bitOf s.gov.gated j = false) := by
  decide +kernel

theorem test_witness_CobblerAndMonitorWork :
    (let ag : Agent := { ctx := 0, loc := 0, unit := 2, instr := 10 }
     let fr := sImg.readRange ag 0 704 64
     let p : CobP := ⟨leNat fr.2.1⟩
     let w := sImg.wset ag p.ws
     let h := fr.2.2.slabRead ag p.hiRow p.rec2 0 0 2 4
     let b := h.2.2.readRange ag 0 960 64
     (sImg.image 0).calibEvery = 1 ∧ (sImg.run 0).step % 1 = 0 ∧ fr.1 = 0 ∧ recKind p.r = 4 ∧ p.narrow = true ∧ w.fmt ≠ .tern ∧
     (sImg.chList 0).length = 4 ∧ p.rows = 1 ∧ p.k = 1 ∧ w.book = 15 ∧ w.outliers = 0 ∧ h.1 = 0 ∧ b.1 = 0 ∧
     (b.2.2.readRange ag 0 0 0).1 = 0) ∧
    (let s := sClu { runs := [aRun 0 0] }
     let j := s.job 0 0 0 (aRun 0 0)
     ((s.clu 0).runs.find? fun r => r.idx == 0 && recKind r.rec_ == 1 && !r.stopped) = some (aRun 0 0) ∧ j.side = .codes ∧
     j.t.transposed = false ∧ j.w.trip ≠ 0 ∧ (sampledBlocks j.w (s.run 0).step).contains 0 = true) ∧
    (let e : CobPass := ⟨0, 0, 0, 0⟩
     let r : Run := { idx := 0, unit := 4, rec_ := 4 + 2 ^ 56 + 2 ^ 80, instr := 10, rep := 0 }
     let s (ph : Nat) : State := { sClu { runs := [r] } with chans := [(3, { cobBusy := true, cobPhase := ph, cobQueue := [e], cobWait := [e] })] }
     ((s 1).chan 3).cobWait = e :: [] ∧ (s 2).cobRunning 3 2 = some (e, r, 3) ∧ (s 3).cobRunning 3 3 = some (e, r, 3)) := by
  decide +kernel

/-- The partition of context 0 is fenced. -/
def sCut : State := { s0 with parts := [(0, { ctl := { residentValid := true, state := 2 } })] }

theorem test_witness_MemoryCommandsAct :
    (State.reset.windowRefusal 0 (winMask (2 ^ 31 + 384)) = none ∧ State.reset.windowRefusal 1023 (winMask (2 ^ 31 + 383 * 512 + 1)) = none ∧
     State.reset.windowRefusal 0 (winMask 0) = none ∧ State.reset.windowRefusal 0 (winMask (2 ^ 31 + 385)) = some stWindowRefused ∧
     State.reset.windowRefusal 0 (winMask (2 ^ 31 + 383 * 512 + 2)) = some stWindowRefused ∧
     State.reset.windowRefusal 0 (winMask (2 ^ 31)) = some stWindowRefused) ∧
    (s0.locOf (reqAgent 0 0 0 7) 0 0x100000 = none ∧ (s0.locOf (reqAgent 0 0 0 7) 0 0xFFFFF).isSome = true ∧
     s0.locOf (reqAgent 0 0 0 7) 1 cmBytes = none ∧ s0.locOf (reqAgent 0 63 17 0) 1 (cmBytes - 1) = some (cmKey 1151 (cmBytes - 1)) ∧
     s0.walled (reqAgent 0 63 17 0) (cmKey 1151 (cmBytes - 1)) = false ∧ sCut.walled (reqAgent 0 0 0 7) 0 = true ∧
     sCut.locOf (reqAgent 0 0 0 7) 0 0 = some 0 ∧ s0.walled (reqAgent 0 0 0 7) 0 = false) ∧
    (let w : WriteBack := ⟨lineBase, 5⟩
     let s := { s0 with memc := { s0.memc with writeBacks := [w] } }
     s.memc.writeBacks.find? (fun w => if true then decide (lineBase ≤ w.granule) && (w.granule - lineBase) / 32768 == 0
       else decide (w.granule < lineBase) && w.granule / rowsPerChan == 0) = some w) ∧
    (s0.memc.cmEn = true ∧ 7 < 8 ∧ s0.memc.bulkEn = true) := by decide +kernel

theorem test_witness_GranuleWritesFollowTheStateTable :
    (let ag := reqAgent 0 0 0 7
     let key := (s0.locOf ag 0 0xFFFFF).getD 0
     Memory.wf s0.mem = true ∧ s0.locked 0 0xFFFFF 1 = false ∧ s0.heldAt (granOf key) = none ∧ s0.locOf ag 0 0xFFFFF = some key ∧ s0.walled ag key = false ∧
       0xFFFFF / 256 = (0xFFFFF + 1 - 1) / 256 ∧ granKey (granOf key) ≤ key ∧ key + 1 ≤ granKey (granOf key) + granSize (granOf key)) ∧
    (let ag := reqAgent 0 0 1 0
     let key := cmKey 1 64
     s0.heldAt (granOf key) = none ∧ s0.locOf ag 1 64 = some key ∧ s0.walled ag key = false ∧ 64 / 64 = (64 + 64 - 1) / 64 ∧ granKey (granOf key) ≤ key ∧
       key + 64 ≤ granKey (granOf key) + granSize (granOf key) ∧ granSize (granOf key) = 64) := by decide +kernel

/-- A Retriever descriptor of one FP32 row of one element: operation, source and destination space. -/
def retRec (op src dst : Nat) : Nat := 3 + src * 2 ^ 9 + dst * 2 ^ 11 + op * 2 ^ 21 + 2 ^ 160 + 2 ^ 184

theorem test_witness_RetrieverTransfersRunToTheirProgressWord :
    let run (op src dst : Nat) : Run := { idx := 0, unit := 4, rec_ := retRec op src dst, instr := 8, rep := 0 }
    let clu (r : Run) : Clu := { runs := [r] }
    let u (sp : Nat) : UnitW := { space := sp, addr := 960, bytes := [1] }
    let q : State := { sClu (clu (run 0 3 0)) with stor := { sImg.stor with qps := [(0, { state := 1 })] } }
    (sImg.mayIssue 0 = some 0 ∧ (clu (run 0 1 0)).descriptor 0 = some (run 0 1 0) ∧ (⟨retRec 0 1 0⟩ : RetD).dstSpace < 2 ∧
      (⟨retRec 0 1 0⟩ : RetD).srcSpace < 2) ∧
    (q.mayIssue 0 = some 0 ∧ (q.clu 0).descriptor 0 = some (run 0 3 0) ∧ 2 ≤ (⟨retRec 0 3 0⟩ : RetD).srcSpace ∧
      (⟨retRec 0 3 0⟩ : RetD).dstSpace < 2 ∧ q.portDeny 0 3 (⟨retRec 0 3 0⟩ : RetD).qp = 0) ∧
    (clu (run 1 0 1)).descriptor 1 = some (run 1 0 1) ∧ (clu (run 2 0 0)).descriptor 2 = some (run 2 0 0) ∧
    (clu (run 3 0 1)).descriptor 3 = some (run 3 0 1) ∧
    (let r := { run 1 0 0 with units := [u 0] }
     ((clu r).runs.find? fun r => recKind r.rec_ == 3 && !r.units.isEmpty) = some r ∧ r.units = u 0 :: [] ∧
     (!sImg.canWrite 0 0 || sImg.locked 0 960 1) = false ∧ sImg.bulkLoc 0 960 = some (bulkKey 3 192) ∧
     sImg.cowFull (bulkKey 3 192 / 256) = false) ∧
    (!sImg.canWrite (u 2).space 0 || ((u 2).space == 0 && sImg.locked 0 960 1)) = true := by decide +kernel

theorem test_witness_TrafficGeneratorRunsAndStops :
    let s (t : TrafGen) : State := { State.reset with chans := [(255, { tg := t })] }
    State.reset.tgRefused 255 = true ∧ (s { baseK := 0, countK := 384 }).tgRefused 255 = false ∧
    (s { baseK := 1, countK := 384 }).tgRefused 255 = true ∧ ((s { busy := true }).chan 255).tg.busy = true := by decide +kernel

theorem test_witness_SendsMoveTheirTokensOnce :
    let e : Send := { id := 1, src := 0, n := 0, idx := 0, dst := 1, obj := 2047, tokens := 1, remote := true, due := 4, hops := 1, phase := 0 }
    let s (e : Send) (n st : Nat) : State := { s0 with
      parts := [(0, { sync := { inHand := pairOf 16 1, out := pairOf 16 1, objs := [(2047, pairOf 16 n)] } }),
        (1, { ctl := { state := st }, sync := { objs := [(2047, pairOf 16 n)], stranded := pairOf 16 n } })]
      sync := { sends := [e] } }
    let l := { e with remote := false, dst := 0 }
    ((s l 0xFFFE 0).sendOf 1 = some l ∧ l.due ≤ max (s l 0 0).clk 4 ∧ 0 < l.tokens ∧ l.tokens ≤ ((s l 0xFFFE 0).part 0).sync.inHand.nat ∧
      (((s l 0xFFFE 0).part 0).sync.obj 2047).ok = true ∧ ((s l 0xFFFE 0).part 0).sync.frozen.contains 2047 = false ∧
      (((s l 0xFFFE 0).part 0).sync.obj 2047).nat + l.tokens ≤ 0xFFFF) ∧
    ((s e 0xFFFE 0).sendOf 1 = some e ∧ (s e 0xFFFE 0).cutOff 1 = false ∧ (((s e 0xFFFE 0).part 1).sync.obj 2047).ok = true ∧
      ((s e 0xFFFE 0).part 1).sync.frozen.contains 2047 = false ∧ (((s e 0xFFFE 0).part 1).sync.obj 2047).nat + e.tokens ≤ 0xFFFF) ∧
    ((s e 0xFFFE 2).cutOff 1 = true ∧ ((s e 0xFFFE 2).part 1).sync.stranded.nat + e.tokens ≤ 0xFFFF) ∧
    { e with phase := 1 }.phase = 1 ∧ e.tokens ≤ ((s { e with phase := 1 } 0 0).part 0).sync.out.nat := by decide +kernel

theorem test_witness_CensusAndReseedCommandsRun :
    let done : List (Nat × Clu) := (List.range 18).map fun n => (n, { ended := true })
    ({ s0 with ctxRuns := [(0, { assign := pairOf 64 1, inStep := true })], clus := done } : State).stepOver 0 = true ∧
    s0.stepOver 0 = false ∧ s0.syncRefused 0 = false ∧ ({ s0 with starts := [(0, { state := 2 })] } : State).syncRefused 0 = true ∧
    ({ s0 with sync := { s0.sync with busyTo := 1 } } : State).syncRefused 0 = true := by decide +kernel

theorem test_witness_LoadsAndUnloadsRunOrAreRefused :
    let q : State := { s0 with stor := { s0.stor with qps := [(4095, { state := 1 })] } }
    let t : PortTag := { id := 9, space := 3, qp := 0, ctx := 0, g := 0, n := 0, idx := 0, op := 1, off := 0, addr := 0, len := 64, clk := 0 }
    let b : State := { s0 with loader := { s0.loader with busy := some 0 }, loads := [(0, { state := 2 })] }
    State.reset.goOk 0 = false ∧ (q.goOk 0 = true ∧ 2 ≤ 3 ∧ q.portDeny 0 3 4095 = 0 ∧ q.fencedOff 0 = false) ∧ (sCut.goOk 0 = true ∧ sCut.fencedOff 0 = true) ∧
    ({ s0 with tags := [t] } : State).tagOf 9 = some t ∧ t.op = 1 ∧ (b.loader.busy = some 0 ∧ (b.load 0).state = 2) ∧
    (s0.loader.busy ≠ some 0 ∧ (s0.load 0).state ≠ 4) ∧
    (sImg.loader.busy ≠ some 0 ∧ (sImg.load 0).state = 4 ∧ sImg.loadBusy = false) := by decide +kernel

/-- Device 5 of a herd: port 0 is up with a cell in its channel-0 buffers, context 0 is bound to job slot 0 at epoch 5 and hosts rank 0. -/
def sFab : State := { sImg with
  fab := { sImg.fab with
    dev := pairOf 32 (2 ^ 30 + 5), waiting := [{ typ := 0x13, dstDev := 5 }, { typ := 0x13, dstDev := 6 }]
    ports := [(0, { state := 3, vcs := [{ o := pairOf 16 1 }, {}, {}] })], jobs := [(0, { jobId := 7, epoch := pairOf 32 5, valid := true })] }
  ctxJobs := [(0, 2 ^ 31)]
  loads := [(0, { state := 4, img := { sImg.image 0 with ranksHosted := 1 } })] }

theorem test_witness_PacketsAreDeliveredParkedOrSentOn :
    let k (e job rank dev : Nat) : Packet := { typ := 0x10, epoch := e, job := job, rank := rank, dstDev := dev }
    (sFab.hasCells 0 0 (k 5 7 0 5) = true ∧ sFab.mine (k 5 7 0 6) = false ∧ sFab.mine (k 5 7 0 5) = true ∧ sFab.slotOfJob 8 = none ∧
      sFab.slotOfJob 7 = some 0 ∧ sFab.ctxOfRank 0 1 = none ∧ sFab.ctxOfRank 0 0 = some 0 ∧
      epochDiff 4 (sFab.job_ 0).epoch.nat < 0 ∧ 0 < epochDiff 6 (sFab.job_ 0).epoch.nat ∧ epochDiff 5 (sFab.job_ 0).epoch.nat = 0) ∧
    (∃ a b, sFab.fab.waiting[0]? = some a ∧ sFab.mine a = true ∧ sFab.fab.waiting[1]? = some b ∧ sFab.mine b = false) ∧
    (let r : Run := { idx := 0, unit := 4, rec_ := 5, instr := 8, rep := 0, begun := true }
     sFab.mayIssue 0 = some 0 ∧ (({ runs := [r] } : Clu).runs.find? fun r => r.idx == 0 && recKind r.rec_ == 5 && r.begun && !r.finished) = some r) := by
  refine ⟨by decide +kernel, ⟨{ typ := 0x13, dstDev := 5 }, { typ := 0x13, dstDev := 6 }, by decide +kernel⟩, by decide +kernel⟩

/-- That device with a ledger for context 0 in a state, one own row. -/
def sLed (l : Led) : State := { sFab with leds := [(0, { l with cfg := l.cfg.set 4 1 })] }

theorem test_witness_LedgerTransfersVotesAndDecisionsAreTaken :
    let s := sLed { state := 2, voteStep := 5 }
    ((s.led 0).state ≠ 0 ∧ (s.led 0).wardDev ≠ 0xFFF ∧ dg [1] ≠ 0 ∧ dg [] = dg [] ∧ s.fencedOff 0 = false ∧
      ({ s with parts := sCut.parts } : State).fencedOff 0 = true) ∧
    (aVote.stepN = not64 aVote.step ∧ (s.led 0).state = 2 ∧ (s.led 0).verdict = none ∧ aVote.step ≤ (s.led 0).voteStep ∧
      ((s.led 0).votes.any fun x => x.member == aVote.member) = false) ∧
    ((sLed { state := 1, voteStep := 4 }).led 0).voteStep < aVote.step := by decide +kernel

theorem test_witness_LedgerRollsBackAndRestores :
    (((sLed { state := 4 }).led 0).state ∉ [1, 2, 3, 6] ∧ ∀ n ∈ [1, 2, 3, 6], ((sLed { state := n }).led 0).state ∈ [1, 2, 3, 6]) ∧
    ((sLed { state := 4 }).led 0).state = 4 ∧
    (((sLed { state := 1, wardValid := true }).led 0).state ≠ 0 ∧ ((sLed { state := 1, wardValid := true }).led 0).wardValid = true) ∧
    (sLed { state := 5, seeded := true }).fencedOff 0 = false ∧
    (let l := (sLed { state := 5, seeded := true }).led 0
     l.state = 5 ∧ l.settled = false ∧ l.seeded = true) ∧
    (let s := sLed { state := 5, settled := true, needTail := true }
     (s.led 0).needTail = true ∧ (s.run 0).tail = false ∧ (s.led 0).state = 5 ∧ (s.led 0).settled = true) ∧
    (let s := sLed { state := 1, needTail := true }
     (s.led 0).needTail = true ∧ (s.led 0).state = 1 ∧ s.notStarted 0 = true ∧ (s.run 0).inStep = false) ∧
    (∀ n ∈ [1, 4, 5], ((sLed { state := n }).led 0).state ∈ [1, 4, 5] ∧ (sLed { state := n }).notStarted 0 = true) ∧
    (let l := (sLed { state := 1 }).led 0
     l.state ≠ 0 ∧ l.partnerDev ≠ 0xFFF ∧ l.wardDev ≠ 0xFFF ∧ l.ownRows ≠ 0 ∧ (sLed { state := 1 }).fencedOff 0 = false) ∧
    ((sLed {}).ledRegs.sel = 0 ∧ ((sLed {}).led 0).state = 0 ∧ bitOf (2 ^ 31 - 1) 31 = false ∧ bitOf (2 ^ 31) 31 = true) := by
  decide +kernel

theorem test_witness_CheckpointsAreTakenDrainedAndRestored :
    let q (k : Ckpt) : State := { sLed { state := 1 } with
      ckpts := [(0, k)], stor := { sImg.stor with qps := [(0, { state := 1 })], ports := [{ up := true }, {}] } }
    ((q { timerS := 1 }).ckpt 0).timerS ≠ 0 ∧ ((q {}).led 0).state ≠ 0 ∧ ((q {}).led 0).ownRows ≠ 0 ∧
    (let s := q { state := 2, startAt := 9 }
     (s.ckpt 0).state = 2 ∧ (s.ckpt 0).started = false ∧ (s.ckpt 0).startAt ≤ (s.atClk 9).clk ∧ s.portDeny 0 3 (s.ckpt 0).qp = 0 ∧
     s.canWrite 3 (s.ckpt 0).qp = true) ∧
    ((((q { state := 2, out := [0] }).ckpt 0).state = 2) ∧ 0 ∈ ((q { state := 2, out := [0] }).ckpt 0).out) ∧
    (((q { state := 3 }).ckpt 0).state ≠ 0 ∧ ((q { state := 3 }).ckpt 0).state ≠ 4 ∧ ((q { state := 3 }).ckpt 0).state = 3) ∧
    (((q {}).ckpt 0).state ≠ 2 ∧ ((q {}).ckpt 0).state ≠ 3) := by decide +kernel

/-- A manifest of the one own row of context 0, its data zeros. -/
def aManifest : List Byte :=
  leBytes 4 0x32544B43 ++ zeros 4 ++ leBytes 8 0 ++ leBytes 8 (not64 0) ++ leBytes 4 7 ++ zeros 8 ++ leBytes 2 4 ++ zeros 2 ++ leBytes 4 1 ++
    zeros 8 ++ zeros 32 ++ sha256 (zeros 1024)

theorem test_witness_CheckpointRestore :
    let s : State := { sLed {} with stor := { sImg.stor with qps := [(0, { state := 1 })], ports := [{ up := true }, {}] } }
    (s.led 0).state = 0 ∧ (s.ckpt 0).state = 0 ∧ s.fencedOff 0 = false ∧ s.portDeny 0 3 (s.ckpt 0).qp = 0 ∧ s.manifestOk 0 aManifest = true ∧ s.dataBytes 0 = 1024 ∧
    1024 ≤ (zeros 1024).length ∧ sha256 ((zeros 1024).take 1024) = slice aManifest 84 32 := by decide +kernel

/-! A signed slot. The signature was checked with openssl (P-384, SHA-384), the digests are those of hashlib. -/

/-- A section of 64 bytes: sem 9, version 3. -/
def aSection : List Byte := leBytes 4 9 ++ leBytes 4 3 ++ zeros 56

/-- A number and its complement, 4 bytes each. -/
def pair32 (x : Nat) : List Byte := leBytes 4 x ++ leBytes 4 (2 ^ 32 - 1 - x)

/-- The boot record of a slot with gen 3, confirmed, whose three sections follow it. -/
def aSlotRecord : List Byte :=
  leBytes 4 0x5442324B ++ pair32 3 ++ [4, 251] ++ leBytes 2 3 ++ zeros 48 ++
  ((List.range 3).flatMap fun i => leBytes 4 (i + 1) ++ pair32 (4096 + 64 * i) ++ pair32 64 ++
    beBytes 32 0x75df2ce078cc2887648b4c33e470e5dd3162c5d30d78f4ea173d6e98230bac4 ++ zeros 12) ++ zeros 832 ++
  [4] ++ beBytes 48 0x6f6a8ad956193e5bc8bc4ba2ae17ffe66f233804b4f6583d3da9928139100cb76aa39fb6a34fb7f5402674c3e767b77a ++
    beBytes 48 0x9e9be55eba5e96b42e5254040e79364c3036191a45f41305c235a9e4cb011c6a33609cbe28b5d1c5303766b55ba706b8 ++ zeros 95 ++
  beBytes 48 0x6d36d93350dec56132dde6a0ee9ed13c5a9330ee65bb95f56439b2ea02e90cea337ae6001dacc0168518460db9317008 ++
    beBytes 48 0x56138792a28262ddd4cf0191a3951b8bbaf4cf922a7cec1f3378917989272288fe5eda97ba641d44fe0776a9c9decaa9 ++
  List.replicate 2720 0xFF

/-- A device whose key-hash fuse and slot B hold these. -/
def sSlot : State := { State.reset with
  fuses := { State.reset.fuses with keys := [pairOf 256 0x9c63ba9c17e60bf817aa3aaae82c4310be2bb3a6cbddf391321afe91ee41ef69, pairOf 256 0] }
  flash := [[], aSlotRecord ++ aSection ++ aSection ++ aSection] }

theorem test_slot_is_signed : recordIntact (sSlot.slotRecord 1) = true ∧ sSlot.recordSigned (sSlot.slotRecord 1) = true := by decide +kernel

theorem test_witness_LinksCarryFramesAndCountThem :
    let s (p st : Nat) : State := { State.reset with fab := { State.reset.fab with ports := [(p, { state := st, vcs := [{ o := pairOf 16 1 }, {}, { o := pairOf 16 1 }] })] } }
    (aFrame.port ≤ 22 ∧ aFrame.vc ≤ 2 ∧ ((s 22 3).port 22).live = true ∧ { aFrame with crcOk := false }.crcOk = false ∧
      aFrame.crcOk = true ∧ aFrame.gen = ((s 22 3).port 22).gen ∧ ((s 22 3).port 22).state = 3) ∧
    (((s 0 3).port 0).state = 3 ∧ (((s 0 3).port 0).vc 2).o.nat ≠ 0) ∧
    6 < 7 ∧ (7 ≤ 7 ∧ ((s 7 1).port 7).state = 1) ∧ (22 ≤ 22 ∧ ((s 22 1).port 22).state = 1) ∧ ((s 7 5).port 7).state = 5 ∧
    ((s 0 2).port 0).live = true := by decide +kernel

theorem test_witness_FabricCommandsTakeEffectOrAreRefused : 22 ≤ 22 ∧ 22 < 23 := by decide

/-- An optical engine 0 as given, the fibres of its transceiver 0 and 7 in a state; ring 0 of bus 0 serves wavelength 0. -/
def sOpt (e : Eng) (st : Nat) : State := { State.reset with
  fab := { State.reset.fab with ports := [(7, { state := st }), (14, { state := st })] }
  opt := { State.reset.opt with engs := [e, {}], rings := [(0, { role := 1 })] } }

theorem test_witness_RingSearchesAndLaneExchanges :
    ((((sOpt { state := 1, cached := true } 1).eng 0).state = 1 ∧ ((sOpt { state := 1, cached := true } 1).eng 0).cached = true ∧
      (sOpt { state := 1, cached := true } 1).mustSearch 0 25 false = true ∧ ((sOpt { state := 1 } 1).eng 0).cached = false)) ∧
    (0 ≤ 31 ∧ 0 ≤ 17 ∧ ((sOpt { state := 2 } 3).eng (0 / 16)).state = 2 ∧ ((sOpt { state := 2 } 3).ring (18 * 0 + 0)).role = 1) ∧
    (((sOpt {} 3).takeVc0 7 1).port 7).state = 3 ∧ (((sOpt {} 3).takeVc0 14 1).port 14).state = 3 ∧
    (let a : Nat × Bool × Nat := (15, true, 0)
     (((sOpt { asked := [a] } 3).takeVc0 7 1).eng 0).asked.find? (fun a => a.1 == 15) = some a) := by decide +kernel

theorem test_witness_CalibrationLasersAndTableMode :
    (((sOpt { state := 2 } 3).eng 0).calEn = true ∧ (((sOpt { state := 2 } 3).eng 0).state = 2 ∨ ((sOpt { state := 2 } 3).eng 0).state = 3)) ∧
    (((sOpt { calLane := some (3, 0, true) } 3).eng 0).calLane = some (3, 0, true) ∧ 0 ≤ (sOpt { calLane := some (3, 0, true) } 3).tickNo) ∧
    ((decide ((401 : Int) < -400) || decide ((400 : Int) < 401)) = true ∧ (decide ((-401 : Int) < -400)) = true ∧
      (decide ((400 : Int) < -400) || decide ((400 : Int) < 400)) = false ∧ (decide ((-400 : Int) < -400) || decide ((400 : Int) < -400)) = false) ∧
    ((sOpt { tableMode := true } 0).eng 0).tableMode = true ∧ 3 ≤ 3 := by decide +kernel

theorem test_witness_SwitchMapsPlansAndCircuits :
    let s : State := { sOpt {} 1 with loads := [(0, { state := 4 })] }
    let open_ (s : State) (x : Nat × Nat) : Prop := bitOf x.1 31 = true → (s.load (fld x.2 9 0)).state = 4 ∧ s.released (fld x.2 9 0) = false
    (open_ s (Tab.get s.opt.plan 63 (0, 0)) ∧ open_ s (2 ^ 31, 0) ∧ s.planBad 63 (2 ^ 31) 0 = false) ∧
    (¬ open_ (sOpt {} 1) (2 ^ 31, 0)) ∧
    ((s.port 7).state = 1 ∧ mapCode (s.eng 0).swNow 0 = 8) ∧ (s.port 14).state = 1 ∧ mapCode (s.eng 0).swNow 7 = 8 := by
  refine ⟨⟨?_, ?_, by decide +kernel⟩, ?_, by decide +kernel, by decide +kernel⟩
  · intro h; exact absurd h (by decide +kernel)
  · intro _; decide +kernel
  · intro h; exact absurd (h (by decide)).1 (by decide +kernel)

theorem test_witness_PartitionsAreFencedDrainedAndReset :
    let s (x : PartCtl) (m : PartMon) : State := { s0 with parts := [(0, { ctl := { x with residentValid := true }, mon := m })] }
    (∀ a ∈ [0, 1, 2], let m := ((s {} { hangAction := a, hangTicks := 1, quiet := 1 }).part 0).mon
      m.hangTicks ≠ 0 ∧ m.hangTicks ≤ m.quiet ∧ m.hangTold = false ∧ m.hangAction = a ∧ (s {} m).cutOff 0 = false ∧ (s {} m).residentOf 0 = some 0) ∧
    (s { state := 1 } {}).cutOff 0 = true ∧ (s {} {}).cutOff 0 = false ∧ State.reset.residentOf 63 = none ∧
    (((s { state := 1 } {}).part 0).ctl.state = 1 ∧ ((s { state := 1 } {}).part 0).sync.out.nat = 0 ∧ (s { state := 1 } {}).openTags 0 = []) ∧
    (∀ n ∈ [0, 2, 3, 4], ((s { state := n } {}).part 0).ctl.state = n) ∧
    ∀ n ∈ [2, 3, 4, 5], ((s { state := 3, phase := n } {}).part 0).ctl.state = 3 ∧ ((s { state := 3, phase := n } {}).part 0).ctl.phase = n := by
  decide +kernel

theorem test_witness_ContextsLeasesAndTheEventQueueObeyTheirCommands :
    let s (n t : Nat) : State := { s0 with dog := { s0.dog with leaseState := n, leaseEnd := 10, lease := pairOf 32 (t * 2 ^ 16 + 5) } }
    (State.reset.assignRefusal 0 (2 ^ 64 - 1) = none ∧ sImg.assignRefusal 0 1 = some 1) ∧ (bitOf (2 ^ 31) 31 = true ∧ bitOf 0 31 = false) ∧
    (s0.noRecords 0 = true ∧ (sClu { runs := [aRun 0 0xFFF] }).noRecords 0 = false) ∧
    (fld (3 * 2 ^ 16 + 1) 31 16 < fld (s 1 4).dog.lease.v.toNat 31 16 ∧ fld (s 1 4).dog.lease.v.toNat 31 16 ≤ fld (4 * 2 ^ 16) 31 16 ∧
      fld (4 * 2 ^ 16) 11 0 = 0 ∧ fld (4 * 2 ^ 16 + 0xFFF) 11 0 ≠ 0) ∧
    ((s 2 4).dog.leaseState ≠ 1 ∧ ((s 1 4).atClk 9).clk < (s 1 4).dog.leaseEnd ∧ (s 1 4).dog.leaseState = 1 ∧ (s 1 4).dog.leaseEnd ≤ ((s 1 4).atClk 10).clk) := by
  decide +kernel

theorem test_witness_ACutOffPartitionIssuesNothing :
    ({ s0 with parts := [(63, { ctl := { state := 4 } })] } : State).cutOff 63 = true ∧
    ({ s0 with parts := [(0, { ctl := { state := 1 } })] } : State).cutOff 0 = true := by decide +kernel

theorem test_witness_PowerComesAndGoesAndTheRomBoots :
    let s (b : Boot) : State := { sSlot with boot := b }
    (s { vaon := false }).boot.vaon = false ∧ ((s {}).boot.vaon = true ∧ (s {}).boot.above = false) ∧
    (let x := s { above := true, releaseClk := 5 }
     x.boot.vaon = true ∧ x.boot.above = true ∧ x.boot.tripHold = false ∧ x.boot.locked = false ∧ x.boot.state = 0 ∧
     (x.atClk 2200005).clk ≤ x.boot.releaseClk + 2200000 ∧ x.fusesOk = true) ∧
    ({ s {} with fuses := { sSlot.fuses with lanes := { v := 1, n := 1 } } } : State).fusesOk = false ∧
    (s { state := 1 }).boot.state = 1 ∧ (s { state := 7 }).boot.state = 7 := by decide +kernel

theorem test_witness_BringUpRaisesTrainsAndTests :
    let s (b : Boot) : State := { State.reset with boot := b }
    ((s { state := 2, acceptClk := 9 }).boot.state = 2 ∧ 8 < 9 + Config.serial % 16 * 0 * 1100000 ∧ 9 + Config.serial % 16 * 0 * 1100000 ≤ 9 ∧
      (s { state := 2 }).sb.pmbusStuck = false) ∧
    (s { state := 3 }).boot.state = 3 ∧ ((s { state := 4 }).boot.state = 4 ∧ (s { state := 4 }).toTest.head? = some 0) ∧
    (63 ≠ 64 ∧ 63 ∈ (s { state := 4, testing := [63] }).boot.testing) := by
  refine ⟨⟨rfl, by omega, by omega, rfl⟩, rfl, ⟨rfl, by decide +kernel⟩, by decide, by decide⟩

theorem test_witness_TheHostPortServesReadsWritesAndResets :
    let s (h : HostFn) : State := { s0 with host := { s0.host with fns := [(63, h)] } }
    let a := s { aperValid := true }
    let cut : State := { a with parts := [(0, { ctl := { state := 2 } })] }
    let t (op : Nat) (q : Bool) : PortTag :=
      { id := 3, space := 2, qp := 63, ctx := 0, g := 0, n := 0, idx := 0, op := op, off := 0, addr := 0, len := 64, clk := 7, quarantined := q }
    ((s { flr := true }).fn 63).flr = true ∧ (((s {}).fn 63).flr = false ∧ ((s {}).fn 63).aperValid = false) ∧
    ((a.fn 63).flr = false ∧ (a.fn 63).aperValid = true ∧ a.bulkEnd 0 < 0xFFFFF + 2 ∧ 0xFFFFE + 2 ≤ a.bulkEnd 0 ∧
      (a.atClk 0).rangeCut 0 0xFFFFE 2 = false ∧ (cut.atClk 0).rangeCut 0 0xFFFFE 2 = true) ∧
    (∀ op ∈ [0, 1], ∀ q ∈ [false, true], ({ s0 with tags := [t op q] } : State).tagOf 3 = some (t op q) ∧ (t op q).space = 2) ∧
    (let s : State := { s0 with tags := [t 0 false] }
     (s.atClk 55000006).clk < (t 0 false).clk + s.host.cplTimeout * 1100000 ∧
     (t 0 false).clk + s.host.cplTimeout * 1100000 ≤ (s.atClk 55000007).clk) ∧
    ((1 ≤ 6 ∧ 6 ≤ 6 ∧ 16 ∈ [1, 2, 4, 8, 16] ∧ 63 ≤ 63) ∧ ¬ (1 ≤ 6 ∧ 6 ≤ 6 ∧ 3 ∈ [1, 2, 4, 8, 16] ∧ 63 ≤ 63)) := by decide +kernel

theorem test_witness_QueuePairsServePacketsAndRecover :
    let s (x : Qp) : State := { State.reset with stor := { State.reset.stor with qps := [(4095, x)], ports := [{ up := true }, {}] } }
    (((s { state := 1 }).qp 4095).state = 1 ∧ ((s { state := 1 }).qp 4095).port = 0) ∧
    (((s { state := 1, timer := some 5 }).qp 4095).timer = some 5 ∧ ((s { state := 1, timer := some 5 }).sport 0).up = true) ∧
    ((State.reset.qp State.reset.stor.qpSel).state = 0 ∧ (State.reset.qp State.reset.stor.qpSel).mtu ≠ 3) := by decide +kernel

theorem test_witness_StoragePortsPauseAndComeAndGo :
    let s (x : StorPort) : State := { State.reset with stor := { State.reset.stor with ports := [{}, x] } }
    (1 ≤ 1 ∧ 7 ≤ 7) ∧ (((s { paused := true }).sport 1).paused = true ∧ ((s { paused := true }).sport 1).stuckTold = false) ∧
    ((s { downSince := some 4 }).sport 1).downSince = some 4 ∧ ((s { up := true }).sport 1).up = true ∧ ((s {}).sport 1).up = false := by
  decide +kernel

theorem test_witness_UsbSidebandAndWeltCommandsAct :
    let s (x : Sideband) : State := { State.reset with sb := x }
    (usbLenOk 0 = false ∧ usbLenOk 68 = false ∧ usbLenOk 6 = false ∧ usbLenOk 4 = true ∧ usbLenOk 64 = true) ∧
    ((s {}).sb.stuck 1 = false ∧ ((s {}).sb.attempts[1]?).getD 0 = 0) ∧
    ((s { attempts := [0, 2] }).sb.stuck 1 = false ∧ ((s { attempts := [0, 2] }).sb.lastTry[1]?).getD 0 + 11000000 ≤ ((s {}).atClk 11000000).clk) ∧
    (s { i3cStuck := true }).sb.stuck 1 = true ∧ (s { pmbusStuck := true }).sb.stuck 0 = true ∧ 11 ≤ 11 := by decide +kernel

/-- The management link is up, one sink is on, one event waits. -/
def sMgmt : State := { State.reset with
  mgmt := { State.reset.mgmt with up := true, sinks := [{ valid := true }, {}] }
  dog := { State.reset.dog with queue := [⟨0, 0, 0, 0, 0, 0, 1, 3, 0, false, false, 0, 0⟩] } }

theorem test_witness_ManagementRequestsAreAnsweredOnceAndReportsLeave :
    let known : State := { sMgmt with mgmt := { sMgmt.mgmt with kept := [(5, (9, []))], peers := [{ valid := true }, {}, {}, {}] } }
    (sMgmt.mgmt.up = true ∧ sMgmt.mgmt.accepts 5 = true ∧ (∀ k, Tab.find sMgmt.mgmt.kept 5 = some k → k.1 ≠ 9)) ∧
    (Tab.find known.mgmt.kept 5 = some (9, []) ∧ known.mgmt.accepts 5 = false ∧ known.mgmt.accepts 0 = true) ∧
    ((zeros 1024).length % 256 = 0 ∧ 256 ≤ (zeros 1024).length ∧ (zeros 1024).length ≤ 1024 ∧ 1 ≤ ([0] : List Nat).length) ∧
    State.reset.mgmt.up = false ∧ (sMgmt.atClk 0).reportDue = true ∧ (State.reset.atClk 0).reportDue = false ∧ sMgmt.mgmt.sinksOn ≠ [] ∧
    ({ sMgmt with mgmt := { sMgmt.mgmt with unacked := [⟨0, 0, []⟩] } } : State).mgmt.unacked = ⟨0, 0, []⟩ :: [] := by
  refine ⟨⟨by decide +kernel, by decide +kernel, ?_⟩, by decide +kernel, by decide +kernel, by decide +kernel, by decide +kernel, by decide +kernel, by decide +kernel, rfl⟩
  intro k h; cases h

theorem test_witness_AnUpdateGoesThroughItsStates :
    let s (u : Upd) (b : Nat) : State := { sSlot with upd := u, boot := { sSlot.boot with state := b } }
    (s { owner := 2 } 6).notOwner .bar0 = true ∧ (s {} 6).notOwner .bar0 = false ∧
    (let x := s { state := 2 } 7
     x.upd.state = 2 ∧ x.checkSlot x.upd.target [16] = 5 ∧ x.checkSlot x.upd.target [] = 1 ∧ x.headersOk x.upd.target = true ∧ x.genFloor = none) ∧
    (let x := s { state := 2 } 6
     x.checkSlot 0 [] = 2 ∧ x.genFloor = some 0xFFFFFFFF ∧ recGen (x.slotRecord x.upd.target) ≤ 0xFFFFFFFF) ∧
    ((s { state := 4 } 6).upd.state = 4 ∧ ((s { state := 4 } 6).atClk 0).anyLoaded = false ∧ (s { state := 4 } 6).boot.state ≠ 7) ∧
    (s { state := 1 } 6).upd.state = 1 ∧ ((s { state := 6, trialEnd := some 9 } 6).upd.trialEnd = some 9 ∧ (s { state := 6 } 6).upd.state = 6) := by
  decide +kernel

theorem test_witness_TemperaturesAndRailsAreWatched :
    let s (b : Boot) : State := { State.reset with boot := b }
    ((s {}).boot.vaon = true ∧ ∃ k, k < 15 ∧ tripPoint k ≤ ((List.replicate 15 (920 : Int))[k]?).getD 0) ∧
    (∀ k, k < 15 → ((List.replicate 15 (719 : Int))[k]?).getD 0 < tripPoint k) ∧
    ((s { tripHold := true }).boot.tripHold = true ∧ (∀ k, k < 15 → ((List.replicate 15 (600 : Int))[k]?).getD 0 ≤ tripPoint k - 120) ∧
      ∃ k, k < 15 ∧ tripPoint k - 120 < ((List.replicate 15 (801 : Int))[k]?).getD 0) := by
  refine ⟨⟨by decide, 0, by decide +kernel⟩, by decide +kernel, by decide, by decide +kernel, 0, by decide +kernel⟩

theorem test_witness_TheMeterChargesEveryTickOnce :
    let fr : AttrFrame := ⟨6, not64 6, [], [], [], [], [], []⟩
    let s (x : Meter) : State := { sTick with meter := x, meterHub := { sTick.meterHub with frame := some fr } }
    (s {}).meter.powered = true ∧ (s {}).meterHub.frame = some fr ∧ ((s {}).tickNo + 2 ^ 64 - 1) % 2 ^ 64 = 6 ∧
    (s { closed := some 6 }).meter.closed = some 6 ∧ ((s { frame := some fr }).meter.closed ≠ some 6 ∧ (s { frame := some fr }).meter.frame = some fr ∧ fr.tick = 6) ∧
    (∀ f, (s {}).meter.frame = some f → f.tick ≠ 6) ∧ (s { powered := false }).meter.powered = false := by
  refine ⟨by decide +kernel, by decide +kernel, by decide +kernel, by decide +kernel, by decide +kernel, ?_, by decide +kernel⟩
  intro f h; cases h

theorem test_witness_MeterRequestsActUnderTheSeal :
    let s (x : Meter) : State := { sMgmt with meter := x }
    let r : MRec := ⟨4, [], false⟩
    (sMgmt.mgmt.up = true ∧ sMgmt.mgmt.accepts (2 ^ 128 - 1) = true ∧ sMgmt.meter.powered = true ∧
      ∀ k, Tab.find sMgmt.mgmt.kept (2 ^ 128 - 1) = some k → k.1 ≠ 0) ∧
    sMgmt.meter.recs = [] ∧ (s { recs := [r] }).meter.recs = r :: [] ∧ 3 < r.seq ∧ r.seq ≤ 4 ∧ (s { powered := false }).meter.powered = false := by
  refine ⟨⟨by decide +kernel, by decide +kernel, by decide +kernel, ?_⟩, by decide +kernel, by decide +kernel, by decide, by decide, by decide⟩
  intro k h; cases h

theorem test_witness_BulkAddressesMapOneToOne :
    let w := (s0.memCtx 0).win.v.toNat
    bitOf w 31 = true ∧ (s0.chList 0).length = 4 ∧ fld w 17 9 + fld w 8 0 ≤ 384 ∧ 4 * fld w 8 0 * 262144 = 0x100000 ∧
    s0.bulkLoc 0 0xFFFFF = some 302252031 ∧ (3 ∈ s0.chList 0 ∧ 0 * 262144 ≤ 262143 ∧ 262143 < (0 + 1) * 262144) ∧
    1023 < fld w 8 0 * 1024 := by decide +kernel

theorem test_witness_FormatsRoundTrip :
    ff32 ∈ [ff32, ffBF, ffE4, ffE5] ∧ 2 ^ 32 - 1 < 2 ^ ff32.width ∧ ff32.decode (2 ^ 32 - 2 ^ 23) ≠ .nan ∧ ffE4.decode 0xFE ≠ .nan := by
  decide +kernel

theorem test_witness_NaNsAreAlikeAndCanonical :
    (fld 0xFFFFFFFF 30 23 = 2 ^ ff32.ebits - 1 ∧ fld 0xFFFFFFFF 22 0 ≠ 0) ∧ (fld 0x7D 6 2 = 2 ^ ffE5.ebits - 1 ∧ fld 0x7D 1 0 ≠ 0) ∧
    fld 0xFF 6 0 = 0x7F ∧ ffBF.decode (ffBF.encode true .nan).1 = .nan := by decide +kernel

theorem test_witness_BlocksOfGX16DecodeAndKeepTheirRange :
    (0x01 ≤ 0x01 ∧ 0x01 ≤ 0xFE) ∧ (0x01 ≤ 0xFE ∧ 0xFE ≤ 0xFE) ∧ (toGx [.nan]).1.e = 0xFF ∧ (toGx [.inf false]).1.e = 0xFF := by decide +kernel

theorem test_witness_EventsFoldQueueReplaceOrAreLost :
    let e : Event := ⟨0, 0, 0, 0, 0, 0, 1, 3, 0, false, false, 0, 0⟩
    let x : Event := { e with severity := 0 }
    let y : Event := { e with loc := 1 }
    let d (q : List Event) : Dog := { queue := q }
    ((d [y, x]).queue = [y] ++ x :: [] ∧ x.sent = false ∧
      (x.status = e.status ∧ x.source = e.source ∧ x.gpart = e.gpart ∧ x.ctx = e.ctx ∧ x.loc = e.loc) ∧ y.loc ≠ e.loc) ∧
    ((d (List.replicate 255 y)).queue.length < 256) ∧
    (let z := { y with severity := 0 }
     256 ≤ (d (z :: List.replicate 255 y)).queue.length ∧ (d (z :: List.replicate 255 y)).queue = [] ++ z :: List.replicate 255 y ∧ z.severity = 0 ∧
     e.severity = 3 ∧ (d (List.replicate 256 y)).queue.length ≤ 256 ∧ (d (List.replicate 256 y)).queue.all (fun y => y.severity != 0) = true) := by decide +kernel

theorem test_witness_UnitWorkLeavesControlAlone :
    unitWork (.bankDrain 0 0 0 0) = true ∧ unitWork (.cobblerEmit 255) = true ∧ ∃ t, exec (.granuleWrite 0 0 0 7 0 0 [1]) s0 = .next t :=
  ⟨rfl, rfl, _, rfl⟩

theorem test_witness_AwlAndMatrixUnitsGiveTheSameBits :
    let j := sImg.job 0 0 0 (aRun 1 0xFFF)
    let k := sImg.job 0 0 0 (aRun 2 0xFFF)
    j.t.r / 1024 = k.t.r / 1024 ∧ j.t.unit ≤ 2 ∧ k.t.unit ≤ 2 ∧ k = { j with t := k.t, ag := { j.ag with unit := k.ag.unit } } := by decide +kernel

theorem test_witness_BrokenGranuleStatesReadAsPoisoned :
    let s : State := { s0 with gran := [(0, { v := 1, n := 1 })] }
    s.locOf (reqAgent 0 0 0 0) 0 0 = some 0 ∧ s.walled (reqAgent 0 0 0 0) 0 = false ∧ (s.granPair (granOf 0)).n ≠ ~~~(s.granPair (granOf 0)).v ∧ (1 ≤ 1 ∧ 3 ≤ 3) := by decide +kernel

/-! Worked examples of the spec. -/

/-- The state after a command. -/
def after (i : Instr) (s : State) : State :=
  match exec i s with
  | .next t => t
  | _ => State.reset

/-- R183's example: partitions 37, 38 and 40, base 64 and count 96. -/
def sThree : State := { State.reset with
  ctxRuns := [(0, { assign := pairOf 64 (2 ^ 37 + 2 ^ 38 + 2 ^ 40) })], memCtxs := [(0, { win := pairOf 32 (2 ^ 31 + 64 * 512 + 96) })] }

/-- spec/08_memory.md, three partitions. -/
theorem test_example_three_partitions :
    sThree.bulkEnd 0 = 0x12000000 ∧ sThree.bulkLoc 0 0x40 = some (bulkKey 148 0x01000040) ∧
    sThree.bulkLoc 0 0xC00 = some (bulkKey 150 0x01000100) ∧ sThree.bulkLoc 0 0x1A40 = some (bulkKey 154 0x01000240) ∧
    sThree.bulkLoc 0 0x12000000 = none := by decide +kernel

/-- spec/03_number_formats.md, conversions. -/
theorem test_example_conversions :
    (ffBF.encode false (ff32.decode 0x3F808000)).1 = 0x3F80 ∧ (ffBF.encode false (ff32.decode 0x3F818000)).1 = 0x3F82 ∧
    (ffE4.encode false (.fin ⟨false, 3, 1024⟩)).1 = 0x02 ∧ (ffE4.encode false (.fin ⟨false, 1, 1024⟩)).1 = 0x00 ∧
    (ffE4.encode true (.fin ⟨true, 465, 1⟩)).1 = 0xFE ∧ (ffE4.encode true (.fin ⟨false, 464, 1⟩)) = (0x7E, {}) ∧
    (ffE5.encode true (.fin ⟨false, 61440, 1⟩)).1 = 0x7B ∧ (ffE5.encode false (.fin ⟨false, 61440, 1⟩)).1 = 0x7C := by decide +kernel

/-- spec/03_number_formats.md, one block, with renormalisation. -/
theorem test_example_gx16_block :
    let rest : List Val := [.fin ⟨false, 3, 16384⟩, .fin ⟨false, 5, 16384⟩, .fin ⟨true, 5, 8⟩]
    (toGx (.fin ⟨false, 3, 1⟩ :: rest)).1.e = 0x80 ∧ (toGx (.fin ⟨false, 3, 1⟩ :: rest)).1.m.take 5 = [24576, 2, 2, -5120, 0] ∧
    (toGx (ff32.decode 0x407FFFFF :: rest)).1.e = 0x81 ∧ (toGx (ff32.decode 0x407FFFFF :: rest)).1.m.take 5 = [16384, 1, 1, -2560, 0] := by
  decide +kernel

/-- spec/04_rounding_overflow_accumulation.md, two rows with ties: the fold of row 1 and its drain; the fold of row 0. -/
theorem test_example_rows_with_ties :
    let one := ff32.decode 0x3F800000
    let f0 := (add32 false (add32 false one (.fin ⟨false, 1, 2 ^ 24⟩)).1 (.fin ⟨false, 1, 2 ^ 24⟩)).1
    let f1 := (add32 false one (.fin ⟨false, 1, 2 ^ 23⟩)).1
    (enc32 false f0).1 = 0x3F800000 ∧ (enc32 false f1).1 = 0x3F800001 ∧
    (enc32 false (mul32 false f1 (.fin ⟨false, 3, 2⟩)).1).1 = 0x3FC00002 := by decide +kernel

/-- spec/06_narrow_weights.md, one W2 group. -/
theorem test_example_w2_calibration :
    calibrate ((((((List.replicate 256 0).set 0 2).set 100 10).set 140 20).set 200 6).set 255 2) [0xBF80, 0xBE80, 0x3E80, 0x3F80] =
      some [0xBF80, 0xBE5C, 0x3E53, 0x3F80] := by decide +kernel

/-- spec/07_tile_instructions.md R177, a token row. -/
theorem test_example_token_row :
    let r := tokenRow .e4m3 true [.fin ⟨false, 3, 1⟩, .fin ⟨true, 1, 2⟩, .fin ⟨false, 5, 128⟩, .fin ⟨false, 23, 256⟩]
    r.1 = 0x3C00 ∧ r.2.1 = [0x7C, 0xE8, 0x4A, 0x54] := by decide +kernel

/-- spec/11_optimiser_and_masters.md, two elements of one block, and the address after R244. -/
theorem test_example_cobble :
    let p : CobP := ⟨2 ^ 11 + 2 ^ 12⟩
    let h : List Val := [.fin ⟨false, 1, 8192⟩, .fin ⟨false, 7, 8⟩, .fin ⟨false, 63, 64⟩, .fin ⟨false, 1, 8⟩, .fin ⟨false, 1, 64⟩,
      .fin ⟨false, 1, 2 ^ 30⟩, .fin ⟨false, 1, 16⟩, .fin ⟨false, 1, 1⟩, .fin ⟨false, 8, 1⟩, .fin ⟨false, 64, 1⟩]
    let H (i : Nat) : Val := (h[i]?).getD .nan
    (cobble p H 0x3F40 0 0 0 (.fin ⟨false, 1, 2⟩)).1 = (0x3F3F, 0xF7A0, 0x3D800000, 0x3B800000) ∧
    (cobble p H 0x3F81 0 0 0 posZero).1 = (0x3F80, 0xFFC0, 0, 0) ∧ cobAddr 1 1 0 0 0 12 = 0x1600 := by decide +kernel

/-- spec/16_optical_engines.md, a bus with one bad ring. -/
theorem test_example_ring_assignment :
    let rho := [8400, 30400, 47200, 0, 89600] ++ (List.range 10).map (fun i => 20000 * (i + 5) + 8000) ++ [308000, 329000, 346000]
    let a := assignRings rho 8
    a.1 = 16 ∧ a.2.lanes = 16 ∧ a.2.worst = 34000 ∧ heaterFor 34000 = 3083 ∧ (candFrom rho 8 17).lanes = 4 ∧ (candFrom rho 8 15).worst = 54000 := by
  decide +kernel

/-- A bus with three bad rings serves 15 wavelengths (R347: `leave` once 18 rings are used). -/
theorem test_three_bad_rings : (assignRings ((List.range 18).map fun i => 20000 * i) 0x3800).2.lanes ≤ 15 := by decide +kernel

/-- spec/02_the_tick.md, starting Tessal-1T. -/
theorem test_example_ramp :
    let s : State := { sTick with
      loads := [(0, { state := 4, img := { power := [15400] } })], gov := { sTick.gov with pEst := 1800 }
      tick := { sTick.tick with number := pairOf 64 1000000 } }
    s.rampTicks 0 = 27 ∧ ((after (.startArm 1000028) s).start 0).state = 4 ∧ ((after (.startArm 1000029) s).start 0).state = 1 := by
  decide +kernel

/-- spec/15_fabric_links_and_topology.md R326, the census of a port: the marker itself takes one of the 12,001 buffers. -/
theorem test_example_port_census :
    let s (o : Nat) : State := { State.reset with fab := { State.reset.fab with ports := [(7, { state := 3, vcs := [{}, {
      rpool := 20480, o := pairOf 16 o, rr := pairOf 32 1005480, got := 8 }, {}] })] } }
    let t (o : Nat) : FabPort := (after (.censusMarkerReceive 7 1 3000 1000000 7 0) (s o)).port 7
    (t 12001).state = 3 ∧ (t 12001).censusFail = 0 ∧ (t 12002).state = 1 ∧ (t 12002).censusFail = 1 := by decide +kernel

/-- A write and a read of registers: TICK_SLIP_MAX (R64), GLB_ID (R13), an access of 2 bytes (R7). -/
theorem test_registers :
    (after (.registerWrite .bar0 4 0x10030 0x1FF 5) s0).tick.slipMax = 0xFF ∧ (after (.registerWrite .bar0 2 0x10030 0x1FF 0) s0).tick.slipMax = 4 ∧
    (after (.pairedReadLatch .mgmt 0 0) s0).tx = [.data 0 [0x21, 0x00, 0x02, 0x0C]] := by decide +kernel

/-- A write of one byte makes a granule written, its other bytes zero; a granule read answers 256 bytes (R192). -/
theorem test_write_then_read :
    let t := after (.granuleWrite 0 0 0 7 0 3 [7]) s0
    (after (.granuleRead 0 0 0 7 0 3 []) t).tx = [.data 0 ([0, 0, 0, 7] ++ zeros 252)] ∧ Memory.wf t.mem = true := by decide +kernel

/-- A pass of the tile instruction folds its one zero product, and its bank drains (R126, R127). -/
theorem test_pass_and_drain :
    let t := after (.passIssue 0 0 0 40) (sClu { runs := [aRun 0 0xFFF] })
    let u := after (.bankDrain 0 0 0 80) t
    ((t.clu 0).bank 0).state = 2 ∧ ((u.clu 0).bank 0).state = 0 ∧ (u.clu 0).runs.length = 1 ∧ (u.clu 0).runs.all (fun r => r.finished) = true := by
  decide +kernel

end Sys2Proof.Tests
end

section
/-! Statements on the scope of the control space (spec/00_scope.md): soundness along every step, what no command takes back,
and how register accesses act. -/

namespace Sys2Proof.Machine

variable {origin s : State}

/-! ### Every command and every step -/

/-- The table of what each command keeps (Laws/Follows*.lean), command by command. -/
theorem exec_follows (i : Instr) (hs : Follows origin s) : Keeps origin (exec i s) := by
  cases i with
  | registerWrite => exact execRegisterWrite_follows hs
  | pairedReadLatch => exact execPairedReadLatch_follows hs
  | pairedWriteWord => exact execPairedWriteWord_follows hs
  | weltLinkDown => exact execWeltLinkDown_follows hs
  | tickEdge => exact execTickEdge_follows hs
  | beaconReceive => exact execBeaconReceive_follows hs
  | echoSend => exact execEchoSend_follows hs
  | echoReceive => exact execEchoReceive_follows hs
  | holdoverExpire => exact execHoldoverExpire_follows hs
  | relock => exact execRelock_follows hs
  | startArm => exact execStartArm_follows hs
  | startDisarm => exact execStartDisarm_follows hs
  | governorEnergyCheck => exact execGovernorEnergyCheck_follows hs
  | tickPeriodWrite => exact execTickPeriodWrite_follows hs
  | arithClear => exact execArithClear_follows hs
  | recordDispatch => exact execRecordDispatch_follows hs
  | recordWaitMet => exact execRecordWaitMet_follows hs
  | recordRetire => exact execRecordRetire_follows hs
  | stepEndMark => exact execStepEndMark_follows hs
  | passIssue => exact execPassIssue_follows hs
  | awlTileIssue => exact execAwlTileIssue_follows hs
  | bankDrain => exact execBankDrain_follows hs
  | codebookCalibrate => exact execCodebookCalibrate_follows hs
  | driftSample => exact execDriftSample_follows hs
  | windowWrite => exact execWindowWrite_follows hs
  | memArbWrite => exact execMemArbWrite_follows hs
  | granuleRead => exact execGranuleRead_follows hs
  | eccWriteback => exact execEccWriteback_follows hs
  | granuleWrite => exact execGranuleWrite_follows hs
  | scrubAccess => exact execScrubAccess_follows hs
  | retrieverCopy => exact execRetrieverCopy_follows hs
  | retrieverFillZeros => exact execRetrieverFillZeros_follows hs
  | retrieverDefineZero => exact execRetrieverDefineZero_follows hs
  | retrieverInvalidate => exact execRetrieverInvalidate_follows hs
  | unitAccept => exact execUnitAccept_follows hs
  | tgStart => exact execTgStart_follows hs
  | tgStop => exact execTgStop_follows hs
  | tgRunEnd => exact execTgRunEnd_follows hs
  | localSendApply => exact execLocalSendApply_follows hs
  | remoteSendApply => exact execRemoteSendApply_follows hs
  | sendAckReceive => exact execSendAckReceive_follows hs
  | stepBoundaryCensus => exact execStepBoundaryCensus_follows hs
  | syncReseed => exact execSyncReseed_follows hs
  | syncCensus => exact execSyncCensus_follows hs
  | loadGo => exact execLoadGo_follows hs
  | loadFetchData => exact execLoadFetchData_follows hs
  | loadCheck => exact execLoadCheck_follows hs
  | loadAbort => exact execLoadAbort_follows hs
  | unload => exact execUnload_follows hs
  | deferredUnload => exact execDeferredUnload_follows hs
  | cobblerQueueEnter => exact execCobblerQueueEnter_follows hs
  | cobblerUpdate => exact execCobblerUpdate_follows hs
  | cobblerEmit => exact execCobblerEmit_follows hs
  | fabricPacketReceive => exact execFabricPacketReceive_follows hs
  | acceptReceive => exact execAcceptReceive_follows hs
  | reduceStage => exact execReduceStage_follows hs
  | packetRoute => exact execPacketRoute_follows hs
  | deterministicWrite => exact execDeterministicWrite_follows hs
  | ledgerTransferReceive => exact execLedgerTransferReceive_follows hs
  | voteReceive => exact execVoteReceive_follows hs
  | voteTimeout => exact execVoteTimeout_follows hs
  | decisionReceive => exact execDecisionReceive_follows hs
  | decisionTimeout => exact execDecisionTimeout_follows hs
  | mirrorConfirmedReceive => exact execMirrorConfirmedReceive_follows hs
  | ledgerRollback => exact execLedgerRollback_follows hs
  | rollbackExchange => exact execRollbackExchange_follows hs
  | mirrorRestore => exact execMirrorRestore_follows hs
  | tailReplay => exact execTailReplay_follows hs
  | spareTakeover => exact execSpareTakeover_follows hs
  | mirrorSeeding => exact execMirrorSeeding_follows hs
  | ledgerHalt => exact execLedgerHalt_follows hs
  | clearStrikes => exact execClearStrikes_follows hs
  | ledgerEnableWrite => exact execLedgerEnableWrite_follows hs
  | ckptTake => exact execCkptTake_follows hs
  | ckptTimerExpire => exact execCkptTimerExpire_follows hs
  | ckptDrainStart => exact execCkptDrainStart_follows hs
  | ckptUnitAccept => exact execCkptUnitAccept_follows hs
  | ckptDigestTreeReceive => exact execCkptDigestTreeReceive_follows hs
  | ckptCompletionReceive => exact execCkptCompletionReceive_follows hs
  | ckptAbort => exact execCkptAbort_follows hs
  | ckptRestore => exact execCkptRestore_follows hs
  | frameReceive => exact execFrameReceive_follows hs
  | linkIdleTimeout => exact execLinkIdleTimeout_follows hs
  | portDown => exact execPortDown_follows hs
  | censusMarkerReceive => exact execCensusMarkerReceive_follows hs
  | portTrainingDone => exact execPortTrainingDone_follows hs
  | fullSearchRetry => exact execFullSearchRetry_follows hs
  | helloReceive => exact execHelloReceive_follows hs
  | fabCommit => exact execFabCommit_follows hs
  | fabRetrain => exact execFabRetrain_follows hs
  | fabFullSearch => exact execFabFullSearch_follows hs
  | fabPortOff => exact execFabPortOff_follows hs
  | fabPortOn => exact execFabPortOn_follows hs
  | fabDevWrite => exact execFabDevWrite_follows hs
  | fabJobWrite => exact execFabJobWrite_follows hs
  | fabCtxJobWrite => exact execFabCtxJobWrite_follows hs
  | engineSearch => exact execEngineSearch_follows hs
  | engineSearchCached => exact execEngineSearchCached_follows hs
  | searchComplete => exact execSearchComplete_follows hs
  | lockVisit => exact execLockVisit_follows hs
  | laneOutRequest => exact execLaneOutRequest_follows hs
  | laneOutReply => exact execLaneOutReply_follows hs
  | combLineLow => exact execCombLineLow_follows hs
  | calCycleStart => exact execCalCycleStart_follows hs
  | calSlotEnd => exact execCalSlotEnd_follows hs
  | laserLoss => exact execLaserLoss_follows hs
  | laserRestored => exact execLaserRestored_follows hs
  | tableModeUpdate => exact execTableModeUpdate_follows hs
  | tableModeWrite => exact execTableModeWrite_follows hs
  | switchSlotWrite => exact execSwitchSlotWrite_follows hs
  | mapApply => exact execMapApply_follows hs
  | planEntryWrite => exact execPlanEntryWrite_follows hs
  | circuitIdentReceive => exact execCircuitIdentReceive_follows hs
  | adcSampleDone => exact execAdcSampleDone_follows hs
  | adcSettingsWrite => exact execAdcSettingsWrite_follows hs
  | partAssignWrite => exact execPartAssignWrite_follows hs
  | nextContextWrite => exact execNextContextWrite_follows hs
  | hangDetected => exact execHangDetected_follows hs
  | partFence => exact execPartFence_follows hs
  | fenceDrainComplete => exact execFenceDrainComplete_follows hs
  | drainLimitExpire => exact execDrainLimitExpire_follows hs
  | partReset => exact execPartReset_follows hs
  | resetPhaseComplete => exact execResetPhaseComplete_follows hs
  | ctxStop => exact execCtxStop_follows hs
  | ctxAbort => exact execCtxAbort_follows hs
  | leaseGrant => exact execLeaseGrant_follows hs
  | leaseLapse => exact execLeaseLapse_follows hs
  | sheepdogAck => exact execSheepdogAck_follows hs
  | sheepdogPop => exact execSheepdogPop_follows hs
  | vAonValid => exact execVAonValid_follows hs
  | vbusAbove => exact execVbusAbove_follows hs
  | brownOut => exact execBrownOut_follows hs
  | pllLock => exact execPllLock_follows hs
  | pllLockTimeout => exact execPllLockTimeout_follows hs
  | bootSlotRead => exact execBootSlotRead_follows hs
  | leaveRomWait => exact execLeaveRomWait_follows hs
  | railSequence => exact execRailSequence_follows hs
  | bringupTraining => exact execBringupTraining_follows hs
  | selfTestStart => exact execSelfTestStart_follows hs
  | selfTestComplete => exact execSelfTestComplete_follows hs
  | hostInboundRequest => exact execHostInboundRequest_follows hs
  | hostCompletionReceive => exact execHostCompletionReceive_follows hs
  | hostCompletionTimeout => exact execHostCompletionTimeout_follows hs
  | busMasterDisable => exact execBusMasterDisable_follows hs
  | busMasterEnable => exact execBusMasterEnable_follows hs
  | functionLevelReset => exact execFunctionLevelReset_follows hs
  | flrComplete => exact execFlrComplete_follows hs
  | hostLinkDown => exact execHostLinkDown_follows hs
  | storPacketReceive => exact execStorPacketReceive_follows hs
  | cnpReceive => exact execCnpReceive_follows hs
  | rateRecovery => exact execRateRecovery_follows hs
  | pfcStuck => exact execPfcStuck_follows hs
  | ackTimeout => exact execAckTimeout_follows hs
  | storPortDownTimeout => exact execStorPortDownTimeout_follows hs
  | qpModify => exact execQpModify_follows hs
  | qpReset => exact execQpReset_follows hs
  | usbRead => exact execUsbRead_follows hs
  | usbWrite => exact execUsbWrite_follows hs
  | usbBusReset => exact execUsbBusReset_follows hs
  | usbEp1Chunk => exact execUsbEp1Chunk_follows hs
  | sidebandRecovery => exact execSidebandRecovery_follows hs
  | sidebandRetry => exact execSidebandRetry_follows hs
  | i3cIbi => exact execI3cIbi_follows hs
  | mgmtRead => exact execMgmtRead_follows hs
  | mgmtWrite => exact execMgmtWrite_follows hs
  | mgmtDownloadChunk => exact execMgmtDownloadChunk_follows hs
  | reportDatagramSend => exact execReportDatagramSend_follows hs
  | heartbeatSend => exact execHeartbeatSend_follows hs
  | reportAckReceive => exact execReportAckReceive_follows hs
  | reportResend => exact execReportResend_follows hs
  | updBegin => exact execUpdBegin_follows hs
  | updVerify => exact execUpdVerify_follows hs
  | updActivate => exact execUpdActivate_follows hs
  | updConfirm => exact execUpdConfirm_follows hs
  | updRevert => exact execUpdRevert_follows hs
  | updAbort => exact execUpdAbort_follows hs
  | trialTimerExpire => exact execTrialTimerExpire_follows hs
  | meterHeartbeatSend => exact execMeterHeartbeatSend_follows hs
  | meterHeartbeatTimeout => exact execMeterHeartbeatTimeout_follows hs
  | attributionFrame => exact execAttributionFrame_follows hs
  | meterTickClose => exact execMeterTickClose_follows hs
  | meterSelfPeriod => exact execMeterSelfPeriod_follows hs
  | meterSnapshot => exact execMeterSnapshot_follows hs
  | recordIntervalEnd => exact execRecordIntervalEnd_follows hs
  | meterFetch => exact execMeterFetch_follows hs
  | meterNonce => exact execMeterNonce_follows hs
  | meterInterval => exact execMeterInterval_follows hs
  | meterTimeMark => exact execMeterTimeMark_follows hs
  | meterBreak => exact execMeterBreak_follows hs
  | meterRestore => exact execMeterRestore_follows hs
  | meterCalibration => exact execMeterCalibration_follows hs
  | meterFwChunk => exact execMeterFwChunk_follows hs
  | vMtrFail => exact execVMtrFail_follows hs
  | vMtrReturn => exact execVMtrReturn_follows hs
  | thermalThrottle => exact execThermalThrottle_follows hs
  | thermalTrip => exact execThermalTrip_follows hs
  | tripRecovery => exact execTripRecovery_follows hs
  | railPoll => exact execRailPoll_follows hs
  | unitFault => exact execUnitFault_follows hs
  | vAonLoss => exact execVAonLoss_follows hs
  | storagePortDown => exact execStoragePortDown_follows hs
  | storagePortUp => exact execStoragePortUp_follows hs
  | hostLinkUp => exact execHostLinkUp_follows hs
  | weltLinkRestored => exact execWeltLinkRestored_follows hs
  | pfcPauseReceive => exact execPfcPauseReceive_follows hs

theorem exec_follows_self {i : Instr} {t : State} (hs : Sound s) (h : exec i s = .next t) : Follows s t :=
  exec_follows i (Follows.refl hs) t h

theorem step_keeps_sound {t : State} (hs : Sound s) (h : step s = .next t) : Sound t := by
  unfold step at h
  split at h
  case h_1 =>
    cases h
    exact (State.idle_follows (Follows.refl hs)).sound
  case h_2 => exact (exec_follows_self (State.popped_sound hs) h).sound

/-! ### Pairs and accesses that find no register (R7, R8, R9) -/

/-- Every paired register lies below the end of the control space. -/
theorem pairAt_eq_none_of_outside {addr : Nat} (h : 0x120000 ≤ addr) : pairAt addr = none := by
  have ends : ∀ x ∈ pairSets, 0 < x.2.1 ∧ x.2.2.1 * x.2.1 + x.1 ≤ 0x120000 := by decide
  refine List.findSome?_eq_none_iff.2 fun x hx => ?_
  obtain ⟨pos, hi⟩ := ends x hx
  have far : x.2.2.1 ≤ (addr - x.1) / x.2.1 := (Nat.le_div_iff_mul_le pos).2 (by omega)
  simp [Nat.not_lt.2 far]

/-- The last block of the space is 0x11, so an address beyond it selects none. -/
theorem State.readReg_outside (s : State) {addr : Nat} (h : addr % 4 ≠ 0 ∨ 0x120000 ≤ addr) : s.readReg addr = 0 := by
  unfold State.readReg
  dsimp only
  split
  · rfl
  · next aligned =>
    have window : 0x12 ≤ addr / 0x10000 := by simp at aligned; omega
    split <;> omega

theorem State.pathRead_outside (s : State) (p : Path) {addr : Nat} (h : addr % 4 ≠ 0 ∨ 0x120000 ≤ addr) :
    s.pathRead p addr = (0, s) := by
  by_cases aligned : addr % 4 = 0
  · simp [State.pathRead, aligned, pairAt_eq_none_of_outside (h.resolve_left fun misaligned => misaligned aligned), s.readReg_outside h]
  · simp [State.pathRead, aligned]

/-- The words that the control space does not take. -/
theorem State.writeWord_ignored (s : State) (p : Path) {addr : Nat} (v : Nat)
    (h : addr % 4 ≠ 0 ∨ 0x120000 ≤ addr ∨ addr / 0x10000 = 0xE) : s.writeWord p addr v = s := by
  unfold State.writeWord
  exact if_pos (by simpa [or_assoc] using h)

theorem leBytes_zero : leBytes 4 0 = [0, 0, 0, 0] := by decide

/-! ### Reads of a pair (R15) -/

/-- A read of a +0 word latches the pair for the path. -/
theorem State.pathRead_first (s : State) (p : Path) {base n : Nat} (aligned : base % 4 = 0) (hp : pairAt base = some (base, n, 0)) :
    s.pathRead p base = (s.readReg base, { s with
      latches := (s.latches.filter fun x => !(x.path == pathNo p && x.base == base)) ++
        [⟨pathNo p, base, (List.range n).map fun i => s.readReg (base + 4 * i), s.clk⟩] }) := by
  simp [State.pathRead, aligned, hp]

/-- A read of another word of the pair, from a latch at most 64 clk old. -/
theorem State.pathRead_fresh (s : State) (p : Path) {addr base n i : Nat} {l : PairLatch} (aligned : addr % 4 = 0)
    (hp : pairAt addr = some (base, n, i)) (hi : i ≠ 0)
    (hl : (s.latches.find? fun x => x.path == pathNo p && x.base == base) = some l) (fresh : s.clk ≤ l.at_ + 64) :
    s.pathRead p addr = ((l.words[i]?).getD 0, s) := by
  obtain ⟨j, rfl⟩ := Nat.exists_eq_succ_of_ne_zero hi
  unfold State.pathRead
  simp only [aligned, hp, hl, if_pos fresh]
  rfl

/-- A read of another word of the pair, with no latch or an older one. -/
theorem State.pathRead_stored (s : State) (p : Path) {addr base n i : Nat} (aligned : addr % 4 = 0)
    (hp : pairAt addr = some (base, n, i)) (hi : i ≠ 0)
    (old : ∀ l, (s.latches.find? fun x => x.path == pathNo p && x.base == base) = some l → l.at_ + 64 < s.clk) :
    s.pathRead p addr = (s.readReg addr, s) := by
  obtain ⟨j, rfl⟩ := Nat.exists_eq_succ_of_ne_zero hi
  unfold State.pathRead
  simp only [aligned, hp]
  split
  · contradiction
  · split
    · next l hl => rw [if_neg (Nat.not_le.2 (old l hl))]
    · rfl

/-! ### Writes that reach a register -/

/-- A word of a paired register goes to its path's sequence (R16). -/
theorem execPairedWriteWord_pair (s : State) (p : Path) {addr base n i : Nat} (v at_ : Nat) (aligned : addr % 4 = 0)
    (inside : addr < 0x120000) (notMeter : addr / 0x10000 ≠ 0xE) (hp : pairAt addr = some (base, n, i)) :
    execPairedWriteWord p addr v at_ s = .next ((s.atClk at_).pairWrite p addr (v % 2 ^ 32) base n i) := by
  have reached : (addr % 4 != 0 || decide (0x120000 ≤ addr) || addr / 0x10000 == 0xE) = false := by
    simp [aligned, inside, notMeter]
  unfold execPairedWriteWord State.writeWord
  simp only [hp, reached, Bool.false_eq_true, if_false]

/-- With no sequence pending, a +0 word starts one. -/
theorem State.pairWrite_start (s : State) (p : Path) (addr v base n : Nat) (h : Tab.find s.pairSeqs (pathNo p) = none) :
    s.pairWrite p addr v base n 0 = s.setSeq p ⟨base, [v]⟩ := by
  simp [State.pairWrite, h]

/-- With no sequence pending, any other word is out of turn. -/
theorem State.pairWrite_outOfTurn (s : State) (p : Path) (addr v base n : Nat) {i : Nat} (hi : i ≠ 0)
    (h : Tab.find s.pairSeqs (pathNo p) = none) : s.pairWrite p addr v base n i = s.seqBroken addr := by
  simp [State.pairWrite, h, hi]

/-- The complement word of a pending two-word sequence ends it: an exact one takes effect, another breaks it. -/
theorem State.pairWrite_complement (s : State) (p : Path) (addr w : Nat) {base v : Nat}
    (h : Tab.find s.pairSeqs (pathNo p) = some ⟨base, [v]⟩) :
    s.pairWrite p addr w base 2 1 =
      if w = 2 ^ 32 - 1 - v then (s.endSeq p).pairEffect base v else (s.endSeq p).seqBroken addr := by
  have intact : seqOk [v, w] = true ↔ w = 2 ^ 32 - 1 - v := by simp [seqOk]
  have value : seqValue [v, w] = v := rfl
  simp [State.pairWrite, h, intact, value]

/-- A word of TICK_SLIP_MAX goes to the tick block (R64). -/
theorem State.writeWord_slipMax (s : State) (p : Path) {v : Nat} (hv : v < 2 ^ 32) :
    s.writeWord p 0x10030 v = { s with tick := { s.tick with slipMax := v % 256 } } := by
  have unpaired : pairAt 0x10030 = none := by decide
  unfold State.writeWord
  simp only [Nat.mod_eq_of_lt hv, unpaired]
  rfl

/-- The field that R3 numbers, as a quotient and a remainder. -/
theorem fld_eq (x hi lo : Nat) : fld x hi lo = x / 2 ^ lo % 2 ^ (hi + 1 - lo) := by
  rw [fld, Nat.shiftRight_eq_div_pow]

/-- The word at offset `w` of instance `g` of a repeated set. -/
theorem inst_of_lt {base stride count g w : Nat} (hg : g < count) (hw : w < stride) :
    inst (base + stride * g + w) base stride count = some (g, w) := by
  have next : stride * (g + 1) ≤ stride * count := Nat.mul_le_mul_left stride hg
  rw [Nat.mul_succ] at next
  have inside : base ≤ base + stride * g + w ∧ base + stride * g + w < base + stride * count := by omega
  have off : base + stride * g + w - base = w + stride * g := by omega
  simp only [inst, inside, off, decide_true, Bool.and_self, if_true]
  rw [Nat.add_mul_div_left _ _ (Nat.zero_lt_of_lt hw), Nat.add_mul_mod_self_left, Nat.div_eq_of_lt hw, Nat.mod_eq_of_lt hw,
    Nat.zero_add]

/-- A word of SHEEPDOG_PART sets the monitor of its partition (R383). -/
theorem State.writeWord_hang (s : State) (p : Path) {g v : Nat} (hg : g < 64) (hv : v < 2 ^ 32) (ha : v / 2 ^ 24 % 4 ≠ 3) :
    s.writeWord p (0x30100 + 16 * g) v =
      s.modMon g fun m => { m with hangAction := v / 2 ^ 24 % 4, hangTicks := v % 2 ^ 24 } := by
  have unpaired : ∀ g < 64, pairAt (0x30100 + 16 * g) = none := by decide
  have window : (0x30100 + 16 * g) / 0x10000 = 0x3 := by omega
  have off : (0x30100 + 16 * g) % 0x10000 = 0x100 + 16 * g + 0 := by omega
  have taken : ¬ ((0x30100 + 16 * g) % 4 ≠ 0 ∨ 0x120000 ≤ 0x30100 + 16 * g) := by omega
  have notAck : ¬ (0x100 + 16 * g + 0 = 0x04) := by omega
  have action : fld v 25 24 = v / 2 ^ 24 % 4 := fld_eq v 25 24
  have ticks : fld v 23 0 = v % 2 ^ 24 := by simp [fld_eq]
  have written : s.writeDog (0x100 + 16 * g + 0) v =
      s.modMon g fun m => { m with hangAction := v / 2 ^ 24 % 4, hangTicks := v % 2 ^ 24 } := by
    unfold State.writeDog
    rw [inst_of_lt (base := 0x100) hg (by decide : 0 < 0x10), action, ticks]
    simp only [beq_iff_eq, notAck, ha, if_false]
  unfold State.writeWord
  simp only [Nat.mod_eq_of_lt hv, unpaired g hg, off, window, written]
  exact if_neg (by simpa using taken)

/-! ### The beacon (R50, R51, R53) -/

@[simp] theorem State.takeVc0_tick (s : State) (p n : Nat) : (s.takeVc0 p n).tick = s.tick := by rw [s.takeVc0_within p n]

@[simp] theorem State.takeVc0_clk (s : State) (p n : Nat) : (s.takeVc0 p n).clk = s.clk := by rw [s.takeVc0_within p n]

/-- Freeing buffers reports nothing. -/
@[simp] theorem State.takeVc0_dog (s : State) (p n : Nat) : (s.takeVc0 p n).dog = s.dog := by
  unfold State.takeVc0 State.freeBufs
  repeat' split
  all_goals rfl

/-- Whether a beacon is accepted depends on the tick block alone. -/
theorem State.beaconOk_iff (s : State) (port : Nat) (b : Beacon) :
    s.beaconOk port b = true ↔ b.echo = false ∧ b.tickN = not64 b.tick ∧
      (b.tick = s.tickNo ∨ s.tick.everAligned = false ∨ s.tick.adoptNext = true) ∧ b.periodUs = s.tick.period ∧
      port = s.tick.upstream ∧ port ≠ 0x3F := by
  simp [State.beaconOk, and_assoc, or_assoc]

/-- The state in which a beacon is judged: the clock moved on and the beacon's buffer freed. -/
def State.beaconTaken (s : State) (port at_ : Nat) : State := (s.atClk at_).takeVc0 port 1

@[simp] theorem State.beaconTaken_tick (s : State) (port at_ : Nat) : (s.beaconTaken port at_).tick = s.tick :=
  (s.atClk at_).takeVc0_tick port 1

@[simp] theorem State.beaconTaken_clk (s : State) (port at_ : Nat) : (s.beaconTaken port at_).clk = (s.atClk at_).clk :=
  (s.atClk at_).takeVc0_clk port 1

@[simp] theorem State.beaconTaken_tickNo (s : State) (port at_ : Nat) : (s.beaconTaken port at_).tickNo = s.tickNo := by
  simp [State.tickNo]

theorem State.beaconTaken_dog (s : State) (port at_ : Nat) : (s.beaconTaken port at_).dog = s.dog :=
  (s.atClk at_).takeVc0_dog port 1

/-- The tick block after an accepted beacon, as `State.acceptBeacon` computes it. -/
def State.beaconTick (s : State) (b : Beacon) : Tick :=
  let t := s.tick
  let e : Int := (s.clk : Int) - ((t.lastEdge + median t.delays : Nat) : Int)
  { t.correct e with
    number := if !t.everAligned || t.adoptNext then pairOf 64 b.tick else t.number,
    aligned := decide (-8 ≤ e) && decide (e ≤ 8), everAligned := true, adoptNext := false, holdover := false,
    holdoverTicks := 0, hopCount := min 0xF (b.hopCount + 1), rootId := b.rootId, acceptedThisTick := true,
    delays := if b.turnaround == 0 then t.delays else pushLast 8 t.delays b.turnaround,
    digestDiffers := t.digestDiffers || b.digest64 != s.digest64,
    configMismatchTold := t.configMismatchTold || b.digest64 != s.digest64,
    lastBeaconClk := s.clk, lastBeacon := some b }

/-- An accepted beacon sets the tick block and reports at most. -/
theorem State.acceptBeacon_reported (s : State) (b : Beacon) : Reported { s with tick := s.beaconTick b } (s.acceptBeacon b) := by
  unfold State.acceptBeacon
  dsimp only
  split
  · refine (State.report_reported _ _ _ _ _ _ _ _).after ?_
    split
    · exact State.report_reported _ _ _ _ _ _ _ _
    · rfl
  · split
    · exact State.report_reported _ _ _ _ _ _ _ _
    · rfl

theorem State.acceptBeacon_tick (s : State) (b : Beacon) : (s.acceptBeacon b).tick = s.beaconTick b := by
  rw [s.acceptBeacon_reported b]

/-- With its tick block replaced, the state in which a beacon is judged differs in the link layer alone. -/
theorem State.beaconTaken_within (s : State) (port at_ : Nat) (k : Tick) :
    LinkOnly { s.atClk at_ with tick := k } { s.beaconTaken port at_ with tick := k } := by
  unfold State.beaconTaken
  rw [(s.atClk at_).takeVc0_within port 1]
  rfl

theorem execBeaconReceive_accepted {s : State} {port : Nat} {b : Beacon} {at_ : Nat}
    (ok : (s.beaconTaken port at_).beaconOk port b = true) :
    execBeaconReceive port b at_ s = .next ((s.beaconTaken port at_).acceptBeacon b) :=
  if_pos ok

/-- A beacon that is not accepted is counted, and reported where its pair is broken. -/
theorem execBeaconReceive_dropped {s : State} {port : Nat} {b : Beacon} {at_ : Nat}
    (bad : ¬ (s.beaconTaken port at_).beaconOk port b = true) :
    execBeaconReceive port b at_ s =
      let u := { s.beaconTaken port at_ with tick := { s.tick with drop := (s.tick.drop + 1) % 2 ^ 32 } }
      .next (if b.tickN = not64 b.tick then u else u.report 0 1 stPairBroken) := by
  refine (if_neg bad).trans ?_
  rw [← State.beaconTaken, State.beaconTaken_tick]
  simp only [beq_iff_eq]
  rfl

end Sys2Proof.Machine
end

section
/-! The obligations of the scope chapter (spec/00_scope.md) and of the beacon (spec/02_the_tick.md R51). -/

namespace Sys2Proof.Machine

/-- Settles O4: a step is an idle clock or a command on the popped queue, and both follow a sound state. -/
theorem stepKeepsSound : Obligations.StepKeepsSound := fun _ _ hs h => step_keeps_sound hs h

/-- Settles O6: every command's next state follows the state it acts on. -/
theorem commandKeepsQueueAndHistory : Obligations.CommandKeepsQueueAndHistory := by
  intro c s t hs h
  have f : Follows s t := exec_follows_self hs h
  exact ⟨f.pending, f.fuses, f.clk, f.freeCtr, f.tx⟩

/-- Settles O7: the METER window's addresses are those of block 0xE, whose words are ignored. -/
theorem meterWindowTakesNoWrite : Obligations.MeterWindowTakesNoWrite := by
  intro s p addr value at_ lo hi
  have ignored : (s.atClk at_).writeWord p addr value = s.atClk at_ :=
    State.writeWord_ignored _ p value (.inr (.inr (by omega)))
  refine ⟨fun width => ?_, ?_⟩
  · show execRegisterWrite p width addr value at_ s = _
    rw [execRegisterWrite, ignored, ite_self]
  · show execPairedWriteWord p addr value at_ s = _
    unfold execPairedWriteWord
    split <;> simp only [ignored]

/-- Settles O8: a word outside the space or misaligned is ignored, another width is never decoded, and reads there are 0. -/
theorem registerAccessesOutsideTheSpaceDoNothing : Obligations.RegisterAccessesOutsideTheSpaceDoNothing := by
  refine ⟨fun s p width addr value at_ h => ?_, fun s p addr at_ h => ?_⟩
  · show Host.Outcome.next (if width == 4 then (s.atClk at_).writeWord p addr value else s.atClk at_) = .next (s.atClk at_)
    by_cases hw : width = 4
    · have outside : addr % 4 ≠ 0 ∨ 0x120000 ≤ addr := h.resolve_left fun other => other hw
      rw [State.writeWord_ignored _ p value (outside.imp_right .inl), ite_self]
    · simp only [beq_iff_eq, hw, if_false]
  · show execPairedReadLatch p addr at_ s = _
    rw [execPairedReadLatch, State.pathRead_outside _ p h, leBytes_zero]

/-- Settles O9, register by register. -/
theorem registerFieldsTakeWhatIsWritten : Obligations.RegisterFieldsTakeWhatIsWritten := by
  refine ⟨fun s p v at_ hv => ?_, fun s p g v at_ hg hv ha => ?_⟩
  · exact congrArg Host.Outcome.next ((s.atClk at_).writeWord_slipMax p hv)
  · exact congrArg Host.Outcome.next ((s.atClk at_).writeWord_hang p hg hv ha)

/-- Settles O10, by the three ways in which `State.pathRead` answers a word of a pair. -/
theorem pairedReadsComeFromOneLatch : Obligations.PairedReadsComeFromOneLatch := by
  refine ⟨fun s p base n at_ aligned hp => ?_, fun s p addr base n i w at_ l aligned hp hi hl hw fresh => ?_,
    fun s p addr base n i at_ aligned hp hi old => ?_⟩
  · show execPairedReadLatch p base at_ s = _
    rw [execPairedReadLatch, (s.atClk at_).pathRead_first p aligned hp]
    rfl
  · show execPairedReadLatch p addr at_ s = _
    rw [execPairedReadLatch, (s.atClk at_).pathRead_fresh p aligned hp hi hl fresh, hw]
    rfl
  · show execPairedReadLatch p addr at_ s = _
    rw [execPairedReadLatch, (s.atClk at_).pathRead_stored p aligned hp hi old]

/-- Settles O11, by the state of the path's sequence and the word that arrives. -/
theorem pairedWritesTakeEffectOnTheFinalWord : Obligations.PairedWritesTakeEffectOnTheFinalWord := by
  have epoch : pairAt 0x50014 = some (0x50010, 2, 1) := by decide
  have atEpoch (s : State) (p : Path) (w at_ : Nat) :
      exec (.pairedWriteWord p 0x50014 w at_) s = .next ((s.atClk at_).pairWrite p 0x50014 (w % 2 ^ 32) 0x50010 2 1) :=
    execPairedWriteWord_pair s p w at_ (by decide) (by decide) (by decide) epoch
  refine ⟨fun s p addr n v at_ aligned inside notMeter hv hp idle => ?_, fun s p v w at_ hv hw pending => ?_,
    fun s p w at_ idle => ?_⟩
  · show execPairedWriteWord p addr v at_ s = _
    rw [execPairedWriteWord_pair s p v at_ aligned inside notMeter hp, (s.atClk at_).pairWrite_start p _ _ _ _ idle, Nat.mod_eq_of_lt hv]
    rfl
  · rw [atEpoch, (s.atClk at_).pairWrite_complement p _ _ pending, Nat.mod_eq_of_lt hw]
    rfl
  · rw [atEpoch, (s.atClk at_).pairWrite_outOfTurn p _ _ _ _ Nat.one_ne_zero idle]
    rfl

/-- Settles O12: the conditions of `State.beaconOk` are R51's, an accepted beacon sets `State.beaconTick`, and any other adds
to the count of drops. -/
theorem beaconIsAcceptedOrCounted : Obligations.BeaconIsAcceptedOrCounted := by
  refine ⟨fun s port b at_ echo pair number period upstream real => ?_, fun s port b at_ bad => ?_⟩
  · let u := s.beaconTaken port at_
    have ok : u.beaconOk port b = true :=
      (u.beaconOk_iff port b).2 (by simpa [u] using ⟨echo, pair, number, period, upstream, real⟩)
    refine ⟨u.acceptBeacon b, execBeaconReceive_accepted ok, ?_, ?_⟩
    · rw [u.acceptBeacon_tick]
      exact (s.beaconTaken_within port at_ _).trans (u.acceptBeacon_reported b).link
    · rw [u.acceptBeacon_tick]
      simp only [State.beaconTick, Tick.correct, clampI, u, State.beaconTaken_tick, State.beaconTaken_clk, true_and]
      refine ⟨?_, by simp only [Bool.and_eq_true, decide_eq_true_eq]⟩
      cases s.tick.everAligned <;> cases s.tick.adoptNext <;> rfl
  · have refused : ¬ (s.beaconTaken port at_).beaconOk port b = true := by
      rw [State.beaconOk_iff, State.beaconTaken_tick, State.beaconTaken_tickNo]
      rintro ⟨echo, pair, number, period, upstream, -⟩
      rcases bad with h | h | ⟨other, aligned, kept⟩ | h | h
      · simp [echo] at h
      · exact h pair
      · simp [other, aligned, kept] at number
      · exact h period
      · exact h upstream
    refine ⟨_, execBeaconReceive_dropped refused, ?_, fun broken => ?_⟩
    · split
      · exact s.beaconTaken_within port at_ _
      · exact (s.beaconTaken_within port at_ _).trans (State.report_reported _ _ _ _ _ _ _ _).link
    · rw [if_neg broken]
      refine ⟨_, ?_, (State.report_tick _ _ _ _ _ _ _ _).symm, rfl⟩
      exact s.beaconTaken_dog port at_

/-- Settles O58: address 0 is no word of a pair, and GLB_ID is a constant. -/
theorem theDeviceIdentifiesItself : Obligations.TheDeviceIdentifiesItself :=
  ⟨fun _ _ _ => rfl, by decide⟩

end Sys2Proof.Machine
end

section
/-! The USB endpoint, the sideband buses and the Welt links, command by command (R24, R238, R411 to R414, R432, R434). -/

namespace Sys2Proof.Machine

variable (s : State) (at_ : Nat)

/-! ### USB requests (R411) -/

theorem execUsbRead_stall (addr : Nat) {n : Nat} (bad : usbLenOk n = false) :
    execUsbRead addr n at_ s = .next ((s.atClk at_).send (.usb true [])) := by
  simp [execUsbRead, bad]

theorem execUsbRead_answer (addr : Nat) {n : Nat} (ok : usbLenOk n = true) :
    execUsbRead addr n at_ s =
      let x := (s.atClk at_).readWords .usb addr (n / 4)
      .next (x.2.send (.usb false x.1)) := by
  simp [execUsbRead, ok]

theorem execUsbWrite_stall (addr : Nat) (words : List Nat) {n : Nat} (bad : usbLenOk n = false) :
    execUsbWrite addr n words at_ s = .next ((s.atClk at_).send (.usb true [])) := by
  simp [execUsbWrite, bad]

/-- The data stage decides: a short one leaves the registers alone. -/
theorem execUsbWrite_dataStage (addr : Nat) (words : List Nat) {n : Nat} (ok : usbLenOk n = true) :
    execUsbWrite addr n words at_ s =
      .next (if words.length < n / 4 then s.atClk at_
        else ((s.atClk at_).writeWords .usb addr (words.take (n / 4))).send (.usb false [])) := by
  by_cases short : words.length < n / 4 <;> simp [execUsbWrite, ok, short]

/-- A chunk is judged by its data's length (R432). -/
theorem execUsbEp1Chunk_eq (off len : Nat) (data : List Byte) (ok : Bool) :
    execUsbEp1Chunk off len data ok s = .next (if data.length < len then s else (s.chunk .usb off (data.take len) ok).2) :=
  (apply_ite Host.Outcome.next _ _ _).symm

/-! ### The sideband buses (R414) -/

/-- The sideband block after a recovery attempt on a bus that is not stuck: the first attempt counts, the third or one that
frees the bus ends the count of attempts. -/
def Sideband.attempted (x : Sideband) (bus clk : Nat) (freed : Bool) : Sideband :=
  let n := (x.attempts[bus]?).getD 0
  { x with
    recoveries := if n == 0 then satAdd 255 x.recoveries 1 else x.recoveries, lastTry := x.lastTry.set bus clk,
    attempts := x.attempts.set bus (if freed || n == 2 then 0 else n + 1) }

/-- The sideband block after a stuck bus has been tried again. -/
def Sideband.retried (x : Sideband) (bus clk : Nat) : Sideband :=
  { x with recoveries := satAdd 255 x.recoveries 1, lastTry := x.lastTry.set bus clk }

/-- An attempt is due at once on a bus not yet tried, and 10 ms after an attempt that left it held. -/
theorem execSidebandRecovery_due {bus : Nat} (freed : Bool) (hb : bus ≤ 1) (free : s.sb.stuck bus = false)
    (due : (s.sb.attempts[bus]?).getD 0 = 0 ∨ (s.sb.lastTry[bus]?).getD 0 + 11000000 ≤ (s.atClk at_).clk) :
    execSidebandRecovery bus freed at_ s =
      let s1 := s.atClk at_
      let y := s.sb.attempted bus s1.clk freed
      .next (if freed = false ∧ (s.sb.attempts[bus]?).getD 0 = 2 then
        ({ s1 with sb := y.setStuck bus true } : State).report 3 2 stSideband else { s1 with sb := y }) := by
  have goesOn : (decide (1 < bus) || s.sb.stuck bus || ((s.sb.attempts[bus]?).getD 0 != 0 &&
      decide ((s.atClk at_).clk < (s.sb.lastTry[bus]?).getD 0 + 11000000))) = false := by
    simpa only [free, Nat.not_lt.2 hb, decide_false, Bool.or_false, Bool.false_or, Bool.and_eq_false_iff, bne_eq_false_iff_eq,
      decide_eq_false_iff_not, Nat.not_lt] using due
  have third : (!freed && (s.sb.attempts[bus]?).getD 0 == 2) = true ↔ freed = false ∧ (s.sb.attempts[bus]?).getD 0 = 2 := by
    simp only [Bool.and_eq_true, Bool.not_eq_true', beq_iff_eq]
  exact (if_neg (ne_true_of_eq_false goesOn)).trans
    ((ite_congr (propext third) (fun _ => rfl) fun _ => rfl).trans (apply_ite Host.Outcome.next _ _ _).symm)

/-- A stuck bus is left alone until 1 s after the last attempt. -/
theorem execSidebandRetry_stuck {bus : Nat} (freed : Bool) (hb : bus ≤ 1) (stuck : s.sb.stuck bus = true) :
    execSidebandRetry bus freed at_ s =
      let s1 := s.atClk at_
      let z := s.sb.retried bus s1.clk
      .next (if s1.clk < (s.sb.lastTry[bus]?).getD 0 + 1100000000 then s1
        else if freed = true then ({ s1 with sb := z.setStuck bus false } : State).report 0 2 (openStatus 7)
        else { s1 with sb := z }) := by
  have early : (decide (1 < bus) || !s.sb.stuck bus ||
      decide ((s.atClk at_).clk < (s.sb.lastTry[bus]?).getD 0 + 1100000000)) = true ↔
      (s.atClk at_).clk < (s.sb.lastTry[bus]?).getD 0 + 1100000000 := by
    simp only [stuck, Nat.not_lt.2 hb, decide_false, Bool.not_true, Bool.or_false, Bool.false_or, decide_eq_true_eq]
  exact (ite_congr (propext early) (fun _ => rfl) fun _ => (apply_ite Host.Outcome.next _ _ _).symm).trans
    (apply_ite Host.Outcome.next _ _ _).symm

/-! ### The Welt links (R24, R238) -/

/-- What waits for the next edge once link `l` is to be up or down there. -/
def State.weltPending (l : Nat) (up : Bool) : State :=
  { s with weltNext := s.weltNext.filter (fun (e : Nat × Bool) => e.1 != l) ++ [(l, up)] }

theorem execWeltLinkDown_eq {l : Nat} (hl : l ≤ 11) :
    execWeltLinkDown l s =
      .next (((s.weltPending l false).report 0 9 stLinkDown).refit (s.weltPending l false).weltSoon) :=
  if_neg (Nat.not_lt.2 hl)

theorem execWeltLinkRestored_eq {l : Nat} (hl : l ≤ 11) :
    execWeltLinkRestored l s = .next ((s.weltPending l true).refit (s.weltPending l true).weltSoon) :=
  if_neg (Nat.not_lt.2 hl)

end Sys2Proof.Machine
end

section
/-! The obligation of the package's service and sideband ports and Welt links (spec/01_package_and_hierarchy.md). -/

namespace Sys2Proof.Machine

/-- Settles O46, command by command: the length of a USB request, the data of a chunk, and the state of the bus decide. -/
theorem usbSidebandAndWeltCommandsAct : Obligations.UsbSidebandAndWeltCommandsAct := by
  intro s at_
  refine ⟨fun addr n words => ⟨fun bad => ⟨?_, ?_⟩, fun ok => ⟨?_, ?_⟩⟩, fun cut fast => rfl, ?_,
    fun bus freed hb => ⟨?_, ?_⟩, rfl, fun l hl => ⟨?_, ?_⟩⟩
  · exact execUsbRead_stall s at_ addr bad
  · exact execUsbWrite_stall s at_ addr words bad
  · exact execUsbRead_answer s at_ addr ok
  · exact execUsbWrite_dataStage s at_ addr words ok
  · exact execUsbEp1Chunk_eq s
  · exact execSidebandRecovery_due s at_ freed hb
  · exact execSidebandRetry_stuck s at_ freed hb
  · exact execWeltLinkDown_eq s hl
  · exact execWeltLinkRestored_eq s hl

end Sys2Proof.Machine
end

section
/-! The exact numbers of the number formats (spec/03_number_formats.md R91, R92): scaling by powers of two, the binary
logarithm and the rounding to an integer, in natural numbers. A power `2 ^ k` of an integer `k` is the fraction of
`2 ^ k.toNat` and `2 ^ (-k).toNat`, one of which is 1. -/

namespace Sys2Proof.Machine

theorem Q.isZero_iff (a : Q) : a.isZero = true ↔ a.num = 0 := beq_iff_eq

theorem Q.dyadic_eq (neg : Bool) (m : Nat) (e : Int) : Q.dyadic neg m e = ⟨neg, m * 2 ^ e.toNat, 2 ^ (-e).toNat⟩ := by
  unfold Q.dyadic
  split
  · have whole : (-e).toNat = 0 := by omega
    rw [whole, Nat.shiftLeft_eq, Nat.pow_zero]
  · have part : e.toNat = 0 := by omega
    rw [part, Nat.pow_zero, Nat.mul_one]

theorem Q.scale_eq (a : Q) (e : Int) : a.scale e = ⟨a.neg, a.num * 2 ^ e.toNat, a.den * 2 ^ (-e).toNat⟩ := by
  unfold Q.scale
  split
  · have whole : (-e).toNat = 0 := by omega
    rw [whole, Nat.shiftLeft_eq, Nat.pow_zero, Nat.mul_one]
  · have part : e.toNat = 0 := by omega
    rw [part, Nat.shiftLeft_eq, Nat.pow_zero, Nat.mul_one]

theorem Q.dyadic_neg (neg : Bool) (m : Nat) (e : Int) : (Q.dyadic neg m e).neg = neg := by
  rw [Q.dyadic_eq]

theorem Q.dyadic_den_ne_zero (neg : Bool) (m : Nat) (e : Int) : (Q.dyadic neg m e).den ≠ 0 := by
  rw [Q.dyadic_eq]
  exact Nat.ne_of_gt (Nat.two_pow_pos _)

theorem Q.dyadic_num_eq_zero (neg : Bool) (m : Nat) (e : Int) : (Q.dyadic neg m e).num = 0 ↔ m = 0 := by
  rw [Q.dyadic_eq]
  exact Nat.mul_eq_zero.trans (or_iff_left (Nat.ne_of_gt (Nat.two_pow_pos _)))

theorem Q.scale_den_ne_zero {a : Q} (hd : a.den ≠ 0) (e : Int) : (a.scale e).den ≠ 0 := by
  rw [Q.scale_eq]
  exact Nat.mul_ne_zero hd (Nat.ne_of_gt (Nat.two_pow_pos _))

theorem Q.scale_den_eq_zero {a : Q} (hd : a.den = 0) (e : Int) : (a.scale e).den = 0 := by
  rw [Q.scale_eq, hd]
  exact Nat.zero_mul _

/-! ### The binary logarithm -/

/-- The magnitude is less than `2 ^ k`. -/
@[reducible] def Q.Below (a : Q) (k : Int) : Prop := a.num * 2 ^ (-k).toNat < 2 ^ k.toNat * a.den

/-- Any two exponents that differ by `k` say whether the magnitude is less than `2 ^ k`. -/
theorem Q.below_iff (a : Q) {k : Int} {p q : Nat} (h : (p : Int) - q = k) : a.Below k ↔ a.num * 2 ^ q < 2 ^ p * a.den := by
  have up : p = k.toNat + (q - (-k).toNat) := by omega
  have down : q = (-k).toNat + (q - (-k).toNat) := by omega
  rw [Q.Below, up, down, Nat.add_sub_cancel_left, Nat.pow_add, Nat.pow_add, ← Nat.mul_assoc, Nat.mul_right_comm (2 ^ k.toNat),
    Nat.mul_lt_mul_right (Nat.two_pow_pos _)]

theorem Q.Below.mono {a : Q} {k l : Int} (h : a.Below k) (hl : k ≤ l) : a.Below l := by
  rw [Q.below_iff a (p := k.toNat + (l - k).toNat) (q := (-k).toNat) (by omega)]
  exact Nat.lt_of_lt_of_le h (Nat.mul_le_mul_right _ (Nat.pow_le_pow_right Nat.two_pos (Nat.le_add_right _ _)))

/-- The lengths of numerator and denominator give the logarithm or one too much, and the comparison in `Q.log2` corrects it. -/
theorem Q.log2_eq (a : Q) {e : Int} (he : (Nat.log2 a.num : Int) - Nat.log2 a.den = e) :
    a.log2 = if a.Below e then e - 1 else e := by
  have compare : a.abs.lt ((Q.ofNat 1).scale e) = true ↔ a.Below e := by
    simp only [Q.scale_eq, Q.lt, Q.abs, Q.ofNat, Q.Below, Bool.false_and, decide_eq_true_eq, Nat.one_mul]
  subst he
  exact ite_congr (propext compare) (fun _ => rfl) (fun _ => rfl)

/-- A magnitude is less than the power of two after its logarithm. -/
theorem Q.below_log2_succ {a : Q} (hd : a.den ≠ 0) : a.Below (a.log2 + 1) := by
  rw [Q.log2_eq a rfl]
  split
  next below => rwa [Int.sub_add_cancel]
  · rw [Q.below_iff a (p := Nat.log2 a.num + 1) (q := Nat.log2 a.den) (by omega)]
    exact Nat.mul_lt_mul_of_lt_of_le Nat.lt_log2_self (Nat.log2_self_le hd) (Nat.pos_of_ne_zero hd)

theorem log2_mul_two_pow {n : Nat} (hn : n ≠ 0) (j : Nat) : Nat.log2 (n * 2 ^ j) = Nat.log2 n + j := by
  have room : 0 < 2 ^ j := Nat.two_pow_pos j
  rw [Nat.log2_eq_iff (Nat.mul_ne_zero hn (Nat.ne_of_gt room)), Nat.pow_add, Nat.add_right_comm, Nat.pow_add]
  exact ⟨Nat.mul_le_mul_right _ (Nat.log2_self_le hn), Nat.mul_lt_mul_of_pos_right Nat.lt_log2_self room⟩

theorem Q.log2_dyadic (neg : Bool) {n : Nat} (hn : n ≠ 0) (k : Int) : (Q.dyadic neg n k).log2 = Nat.log2 n + k := by
  have lengths : (Nat.log2 (Q.dyadic neg n k).num : Int) - Nat.log2 (Q.dyadic neg n k).den = Nat.log2 n + k := by
    simp only [Q.dyadic_eq, log2_mul_two_pow hn, Nat.log2_two_pow]
    omega
  have above : ¬ (Q.dyadic neg n k).Below (Nat.log2 n + k) := by
    rw [Q.below_iff _ (p := Nat.log2 n + k.toNat) (q := (-k).toNat) (by omega), Q.dyadic_eq, Nat.not_lt]
    refine Nat.mul_le_mul_right _ ?_
    rw [Nat.pow_add]
    exact Nat.mul_le_mul_right _ (Nat.log2_self_le hn)
  rw [Q.log2_eq _ lengths, if_neg above]

/-! ### Rounding to an integer -/

theorem rneMag_mul (n : Nat) {den : Nat} (hd : den ≠ 0) : rneMag (n * den) den = n := by
  have room : 0 < den := Nat.pos_of_ne_zero hd
  simp only [rneMag, Nat.mul_mod_left, Nat.mul_div_cancel n room, Nat.mul_zero, room, if_true]

theorem rneMag_le_succ (num den : Nat) : rneMag num den ≤ num / den + 1 := by
  simp only [rneMag]
  repeat' split
  all_goals omega

/-- What does not exceed an integer does not round beyond it. -/
theorem rneMag_le {num den N : Nat} (hd : den ≠ 0) (h : num ≤ N * den) : rneMag num den ≤ N := by
  have floor : num / den ≤ N := Nat.div_le_of_le_mul (by rwa [Nat.mul_comm])
  rcases Nat.lt_or_eq_of_le floor with below | equal
  · exact Nat.le_trans (rneMag_le_succ num den) below
  · have whole : num = N * den := Nat.le_antisymm h (equal ▸ Nat.div_mul_le_self num den)
    exact Nat.le_of_eq (whole ▸ rneMag_mul N hd)

theorem rneMag_zero_den_le (num : Nat) : rneMag num 0 ≤ 1 := by
  simpa only [Nat.div_zero, Nat.zero_add] using rneMag_le_succ num 0

end Sys2Proof.Machine
end

section
/-! The floating-point formats of R72, field by field: a pattern is a sign, an exponent and a fraction, decoding reads them,
and the one rounding of R92 gives them or overflows (R93). -/

namespace Sys2Proof.Machine

/-- The pattern with a sign, an exponent field and a fraction. -/
def FF.pack (f : FF) (neg : Bool) (e m : Nat) : Nat := f.signBit neg + (e <<< f.fbits) + m

/-- The exponent and fraction are kept for infinities and NaN. -/
def FF.special (f : FF) (e m : Nat) : Bool := if f.e4m3 then e == 15 && m == 7 else e == 2 ^ f.ebits - 1

/-- The exponent and fraction fit their fields and are those of a finite value. -/
structure FF.Finite (f : FF) (e m : Nat) : Prop where
  exp : e < 2 ^ f.ebits
  frac : m < 2 ^ f.fbits
  plain : f.special e m = false

/-- What the layout of the four formats has in common. -/
structure FF.Regular (f : FF) : Prop where
  exp : 0 < f.ebits
  frac : 0 < f.fbits
  e4m3 : f.e4m3 = true → f.ebits = 4 ∧ f.fbits = 3

theorem formats_regular {f : FF} (hf : f ∈ [ff32, ffBF, ffE4, ffE5]) : f.Regular := by
  simp only [List.mem_cons, List.not_mem_nil, or_false] at hf
  rcases hf with rfl | rfl | rfl | rfl <;> exact ⟨by decide, by decide, by decide⟩

variable {f : FF}

/-! ### Patterns and their fields -/

theorem FF.signBit_eq (f : FF) (neg : Bool) : f.signBit neg = b2n neg * 2 ^ f.ebits * 2 ^ f.fbits := by
  rw [FF.signBit, Nat.pow_add]
  cases neg
  · exact (Nat.mul_assoc 0 _ _ ▸ Nat.zero_mul _).symm
  · exact congrArg (· * 2 ^ f.fbits) (Nat.one_mul _).symm

theorem FF.pack_eq (f : FF) (neg : Bool) (e m : Nat) :
    f.pack neg e m = (b2n neg * 2 ^ f.ebits + e) * 2 ^ f.fbits + m := by
  rw [FF.pack, FF.signBit_eq, Nat.shiftLeft_eq, Nat.add_mul]

theorem FF.pack_high (neg : Bool) (e : Nat) {m : Nat} (hm : m < 2 ^ f.fbits) :
    f.pack neg e m / 2 ^ f.fbits = b2n neg * 2 ^ f.ebits + e := by
  rw [FF.pack_eq, Nat.mul_comm, Nat.mul_add_div (Nat.two_pow_pos _), Nat.div_eq_of_lt hm, Nat.add_zero]

theorem FF.pack_sign (neg : Bool) {e m : Nat} (he : e < 2 ^ f.ebits) (hm : m < 2 ^ f.fbits) :
    bitOf (f.pack neg e m) (f.ebits + f.fbits) = neg := by
  rw [bitOf, Nat.shiftRight_eq_div_pow, Nat.add_comm f.ebits, Nat.pow_add, ← Nat.div_div_eq_div_mul, FF.pack_high neg e hm,
    Nat.mul_comm, Nat.mul_add_div (Nat.two_pow_pos _), Nat.div_eq_of_lt he]
  cases neg <;> rfl

theorem FF.pack_exp (hf : f.Regular) (neg : Bool) {e m : Nat} (he : e < 2 ^ f.ebits) (hm : m < 2 ^ f.fbits) :
    fld (f.pack neg e m) (f.ebits + f.fbits - 1) f.fbits = e := by
  have := hf.exp
  have bits : f.ebits + f.fbits - 1 + 1 - f.fbits = f.ebits := by omega
  rw [fld_eq, bits, FF.pack_high neg e hm, Nat.mul_comm, Nat.mul_add_mod, Nat.mod_eq_of_lt he]

theorem FF.pack_frac (hf : f.Regular) (neg : Bool) (e : Nat) {m : Nat} (hm : m < 2 ^ f.fbits) :
    fld (f.pack neg e m) (f.fbits - 1) 0 = m := by
  have := hf.frac
  have bits : f.fbits - 1 + 1 - 0 = f.fbits := by omega
  rw [fld_eq, bits, Nat.pow_zero, Nat.div_one, FF.pack_eq, Nat.mul_comm, Nat.mul_add_mod, Nat.mod_eq_of_lt hm]

theorem b2n_decide_eq_one {n : Nat} (h : n < 2) : b2n (decide (n = 1)) = n := by
  simp only [b2n, decide_eq_true_eq]
  split <;> omega

/-- Every pattern of the format's width is packed from its fields. -/
theorem FF.exists_pack {x : Nat} (hx : x < 2 ^ f.width) :
    ∃ neg e m, e < 2 ^ f.ebits ∧ m < 2 ^ f.fbits ∧ x = f.pack neg e m := by
  have room : 0 < 2 ^ (f.fbits + f.ebits) := Nat.two_pow_pos _
  have bits : f.width = f.fbits + f.ebits + 1 := by rw [FF.width]; omega
  have sign : x / 2 ^ f.fbits / 2 ^ f.ebits < 2 := by
    rw [Nat.div_div_eq_div_mul, ← Nat.pow_add, Nat.div_lt_iff_lt_mul room, ← Nat.pow_succ', Nat.succ_eq_add_one, ← bits]
    exact hx
  refine ⟨decide (x / 2 ^ f.fbits / 2 ^ f.ebits = 1), x / 2 ^ f.fbits % 2 ^ f.ebits, x % 2 ^ f.fbits,
    Nat.mod_lt _ (Nat.two_pow_pos _), Nat.mod_lt _ (Nat.two_pow_pos _), ?_⟩
  rw [FF.pack_eq, b2n_decide_eq_one sign, Nat.div_add_mod', Nat.div_add_mod']

/-! ### Decoding -/

/-- The significand as an integer. -/
def FF.significand (f : FF) (e m : Nat) : Nat := if e = 0 then m else 2 ^ f.fbits + m

/-- The power of two that the last bit of the significand weighs. -/
def FF.weight (f : FF) (e : Nat) : Int := max (e : Int) 1 - f.bias - f.fbits

/-- What a sign, an exponent and a fraction read as. -/
def FF.reading (f : FF) (neg : Bool) (e m : Nat) : Val :=
  if f.special e m then (if f.e4m3 = false ∧ m = 0 then .inf neg else .nan)
  else .fin (Q.dyadic neg (f.significand e m) (f.weight e))

/-- Subnormal and normal patterns read by one formula. -/
theorem FF.dyadic_significand (f : FF) (neg : Bool) (e m : Nat) :
    Q.dyadic neg (f.significand e m) (f.weight e) =
      if e = 0 then Q.dyadic neg m (1 - (f.bias : Int) - f.fbits)
      else Q.dyadic neg (2 ^ f.fbits + m) ((e : Int) - f.bias - f.fbits) := by
  by_cases h : e = 0
  · have one : max (e : Int) 1 = 1 := by omega
    rw [FF.significand, FF.weight, one, if_pos h, if_pos h]
  · have own : max (e : Int) 1 = e := by omega
    rw [FF.significand, FF.weight, own, if_neg h, if_neg h]

theorem FF.decode_eq_reading (f : FF) (x : Nat) :
    f.decode x = f.reading (bitOf x (f.ebits + f.fbits)) (fld x (f.ebits + f.fbits - 1) f.fbits) (fld x (f.fbits - 1) 0) := by
  rw [FF.reading, FF.dyadic_significand, apply_ite Val.fin]
  cases h4 : f.e4m3 with
  | true => simp only [FF.decode, FF.special, h4, if_true, beq_iff_eq, Bool.true_eq_false, false_and, if_false]
  | false => simp only [FF.decode, FF.special, h4, Bool.false_eq_true, if_false, beq_iff_eq, true_and]

theorem FF.decode_pack (hf : f.Regular) (neg : Bool) {e m : Nat} (he : e < 2 ^ f.ebits) (hm : m < 2 ^ f.fbits) :
    f.decode (f.pack neg e m) = f.reading neg e m := by
  rw [FF.decode_eq_reading, FF.pack_sign neg he hm, FF.pack_exp hf neg he hm, FF.pack_frac hf neg e hm]

theorem FF.reading_finite (neg : Bool) {e m : Nat} (h : f.special e m = false) :
    f.reading neg e m = .fin (Q.dyadic neg (f.significand e m) (f.weight e)) :=
  if_neg (ne_true_of_eq_false h)

/-- What is neither finite nor NaN is an infinity. -/
theorem FF.special_infinite {neg : Bool} {e m : Nat} (h : f.special e m = true) (notNan : f.reading neg e m ≠ .nan) :
    f.e4m3 = false ∧ e = 2 ^ f.ebits - 1 ∧ m = 0 := by
  have zero : f.e4m3 = false ∧ m = 0 :=
    Decidable.byContradiction fun other => notNan (by rw [FF.reading, if_pos h, if_neg other])
  obtain ⟨h4, hm⟩ := zero
  simp only [FF.special, h4, Bool.false_eq_true, if_false, beq_iff_eq] at h
  exact ⟨h4, h, hm⟩

/-! ### The rounding of R92 -/

/-- The exponent of the last bit kept (`q` of R92). -/
def FF.unit (f : FF) (a : Q) : Int := max a.log2 (1 - (f.bias : Int)) - f.fbits

/-- The magnitude in units of the last bit kept. -/
def FF.scaled (f : FF) (a : Q) : Q := a.abs.scale (-f.unit a)

/-- The rounded significand (`n` of R92). -/
def FF.kept (f : FF) (a : Q) : Nat := rneMag (f.scaled a).num (f.scaled a).den

/-- The rounded exponent and fraction lie above the largest finite value. -/
def FF.beyond (f : FF) (e m : Nat) : Bool :=
  if f.e4m3 then decide (2 ^ f.ebits - 1 < e) || (e == 2 ^ f.ebits - 1 && m == 2 ^ f.fbits - 1) else decide (2 ^ f.ebits - 1 ≤ e)

/-- Store an exponent and a fraction, or overflow. -/
def FF.store (f : FF) (sat neg : Bool) (e m : Nat) : Nat × Evs :=
  if f.beyond e m then f.overflow sat neg else (f.pack neg e m, {})

/-- Store a significand whose last bit weighs `2 ^ q`. -/
def FF.finish (f : FF) (sat neg : Bool) (n : Nat) (q : Int) : Nat × Evs :=
  if n < 2 ^ f.fbits then (f.signBit neg + n, {}) else f.store sat neg (q + f.fbits + f.bias).toNat (n - 2 ^ f.fbits)

/-- The stages of R92: a significand rounded up to a power of two is halved, and the result is stored. -/
theorem FF.roundQ_eq (f : FF) (sat : Bool) {a : Q} (hn : a.num ≠ 0) :
    f.roundQ sat a =
      let p := if f.kept a == 2 ^ (f.fbits + 1) then (2 ^ f.fbits, f.unit a + 1) else (f.kept a, f.unit a)
      f.finish sat a.neg p.1 p.2 :=
  if_neg (mt a.isZero_iff.1 hn)

theorem FF.roundQ_zero (f : FF) (sat : Bool) {a : Q} (h : a.num = 0) : f.roundQ sat a = (f.pack a.neg 0 0, {}) :=
  (if_pos (a.isZero_iff.2 h)).trans (by simp only [FF.pack, Nat.zero_shiftLeft, Nat.add_zero])

theorem FF.roundQ_noCarry (f : FF) (sat : Bool) {a : Q} (hn : a.num ≠ 0) (h : f.kept a < 2 ^ (f.fbits + 1)) :
    f.roundQ sat a = f.finish sat a.neg (f.kept a) (f.unit a) := by
  have noCarry : ¬ (f.kept a == 2 ^ (f.fbits + 1)) = true := mt beq_iff_eq.1 (Nat.ne_of_lt h)
  rw [FF.roundQ_eq f sat hn, if_neg noCarry]

theorem FF.roundQ_subnormal (f : FF) (sat : Bool) {a : Q} (hn : a.num ≠ 0) (h : f.kept a < 2 ^ f.fbits) :
    f.roundQ sat a = (f.pack a.neg 0 (f.kept a), {}) := by
  have noCarry : f.kept a < 2 ^ (f.fbits + 1) := by rw [Nat.pow_succ]; omega
  rw [FF.roundQ_noCarry f sat hn noCarry, FF.finish, if_pos h, FF.pack, Nat.zero_shiftLeft, Nat.add_zero]

theorem FF.roundQ_normal (f : FF) (sat : Bool) {a : Q} (hn : a.num ≠ 0) (low : 2 ^ f.fbits ≤ f.kept a)
    (high : f.kept a < 2 ^ (f.fbits + 1)) :
    f.roundQ sat a = f.store sat a.neg (f.unit a + f.fbits + f.bias).toNat (f.kept a - 2 ^ f.fbits) := by
  rw [FF.roundQ_noCarry f sat hn high, FF.finish, if_neg (Nat.not_lt.2 low)]

theorem FF.roundQ_carry (f : FF) (sat : Bool) {a : Q} (hn : a.num ≠ 0) (h : f.kept a = 2 ^ (f.fbits + 1)) :
    f.roundQ sat a = f.store sat a.neg (f.unit a + 1 + f.fbits + f.bias).toNat 0 := by
  rw [FF.roundQ_eq f sat hn, if_pos (beq_iff_eq.2 h), FF.finish, if_neg (Nat.lt_irrefl _), Nat.sub_self]

/-- Beyond the largest finite value are the special patterns and the exponents without a field. -/
theorem FF.beyond_iff (hf : f.Regular) (e m : Nat) : f.beyond e m = true ↔ 2 ^ f.ebits ≤ e ∨ f.special e m = true := by
  have room : 0 < 2 ^ f.ebits := Nat.two_pow_pos _
  cases h4 : f.e4m3 with
  | true =>
    obtain ⟨four, three⟩ := hf.e4m3 h4
    simp only [FF.beyond, FF.special, h4, four, three, if_true, Bool.or_eq_true, Bool.and_eq_true, decide_eq_true_eq, beq_iff_eq]
    omega
  | false =>
    simp only [FF.beyond, FF.special, h4, Bool.false_eq_true, if_false, decide_eq_true_eq, beq_iff_eq]
    omega

theorem FF.store_finite (hf : f.Regular) (sat neg : Bool) {e m : Nat} (h : f.Finite e m) :
    f.store sat neg e m = (f.pack neg e m, {}) :=
  if_neg fun beyond => ((FF.beyond_iff hf e m).1 beyond).elim (Nat.not_le.2 h.exp) (ne_true_of_eq_false h.plain)

/-- Storing overflows or gives a finite pattern. -/
theorem FF.store_cases (hf : f.Regular) (sat neg : Bool) (e : Nat) {m : Nat} (hm : m < 2 ^ f.fbits) :
    f.store sat neg e m = f.overflow sat neg ∨ f.Finite e m ∧ f.store sat neg e m = (f.pack neg e m, {}) := by
  by_cases h : f.beyond e m = true
  · exact .inl (if_pos h)
  · have within := mt (FF.beyond_iff hf e m).2 h
    rw [not_or, Nat.not_le, Bool.not_eq_true] at within
    exact .inr ⟨⟨within.1, hm, within.2⟩, if_neg h⟩

/-- Exponent 0 is finite in every format. -/
theorem FF.finite_zero (hf : f.Regular) {m : Nat} (hm : m < 2 ^ f.fbits) : f.Finite 0 m := by
  have two : 1 < 2 ^ f.ebits := Nat.one_lt_two_pow (Nat.ne_of_gt hf.exp)
  refine ⟨by omega, hm, ?_⟩
  cases h4 : f.e4m3
  · simp only [FF.special, h4, Bool.false_eq_true, if_false, beq_eq_false_iff_ne]
    omega
  · simp only [FF.special, h4, if_true, Nat.reduceBEq, Bool.false_and]

/-! ### What is kept of a number -/

theorem FF.scaled_den_ne_zero {a : Q} (hd : a.den ≠ 0) : (f.scaled a).den ≠ 0 := Q.scale_den_ne_zero (a := a.abs) hd _

/-- No more bits are kept than the significand and a carry have; a number without a denominator rounds to 1 at most. -/
theorem FF.kept_le (f : FF) (a : Q) : f.kept a ≤ 2 ^ (f.fbits + 1) := by
  by_cases hd : a.den = 0
  · have noDen : (f.scaled a).den = 0 := Q.scale_den_eq_zero (a := a.abs) hd _
    rw [FF.kept, noDen]
    exact Nat.le_trans (rneMag_zero_den_le _) Nat.one_le_two_pow
  · refine rneMag_le (FF.scaled_den_ne_zero hd) ?_
    have small : a.Below (f.unit a + f.fbits + 1) := (Q.below_log2_succ hd).mono (by simp only [FF.unit]; omega)
    rw [Q.below_iff a (p := f.fbits + 1 + (f.unit a).toNat) (q := (-f.unit a).toNat) (by omega), Nat.pow_add, Nat.mul_assoc,
      Nat.mul_comm _ a.den] at small
    rw [FF.scaled, Q.scale_eq, Int.neg_neg]
    exact Nat.le_of_lt small

/-- Encoding a number overflows or gives a finite pattern. -/
theorem FF.roundQ_cases (hf : f.Regular) (sat : Bool) (a : Q) :
    f.roundQ sat a = f.overflow sat a.neg ∨ ∃ e m, f.Finite e m ∧ f.roundQ sat a = (f.pack a.neg e m, {}) := by
  have room : 0 < 2 ^ f.fbits := Nat.two_pow_pos _
  by_cases hn : a.num = 0
  · exact .inr ⟨0, 0, FF.finite_zero hf room, FF.roundQ_zero f sat hn⟩
  · rcases Nat.lt_or_eq_of_le (FF.kept_le f a) with high | carry
    · rcases Nat.lt_or_ge (f.kept a) (2 ^ f.fbits) with low | normal
      · exact .inr ⟨0, _, FF.finite_zero hf low, FF.roundQ_subnormal f sat hn low⟩
      · rw [FF.roundQ_normal f sat hn normal high]
        have frac : f.kept a - 2 ^ f.fbits < 2 ^ f.fbits := by rw [Nat.pow_succ] at high; omega
        exact (FF.store_cases hf sat a.neg _ frac).imp_right fun h => ⟨_, _, h⟩
    · rw [FF.roundQ_carry f sat hn carry]
      exact (FF.store_cases hf sat a.neg _ room).imp_right fun h => ⟨_, _, h⟩

/-! ### Encoding what was decoded -/

/-- The significand of a finite pattern has the bits its exponent leaves it. -/
theorem FF.significand_lt (f : FF) (e : Nat) {m : Nat} (hm : m < 2 ^ f.fbits) : f.significand e m < 2 ^ (f.fbits + 1) := by
  rw [FF.significand, Nat.pow_succ]
  split <;> omega

/-- The last bit kept of a decoded number is the last bit of its significand. -/
theorem FF.unit_dyadic (f : FF) (neg : Bool) (e : Nat) {m : Nat} (hm : m < 2 ^ f.fbits) (hn : f.significand e m ≠ 0) :
    f.unit (Q.dyadic neg (f.significand e m) (f.weight e)) = f.weight e := by
  rw [FF.unit, Q.log2_dyadic neg hn]
  by_cases he : e = 0
  · have sub : f.significand e m = m := if_pos he
    have short : Nat.log2 (f.significand e m) < f.fbits := (Nat.log2_lt hn).2 (by rwa [sub])
    simp only [FF.weight, he] at short ⊢
    omega
  · have normal : f.significand e m = 2 ^ f.fbits + m := if_neg he
    have full : Nat.log2 (f.significand e m) = f.fbits :=
      (Nat.log2_eq_iff hn).2 ⟨normal ▸ Nat.le_add_right _ _, FF.significand_lt f e hm⟩
    rw [full, FF.weight]
    omega

/-- Nothing of a decoded number is rounded away. -/
theorem FF.kept_dyadic (f : FF) (neg : Bool) (e : Nat) {m : Nat} (hm : m < 2 ^ f.fbits) (hn : f.significand e m ≠ 0) :
    f.kept (Q.dyadic neg (f.significand e m) (f.weight e)) = f.significand e m := by
  have whole : (f.scaled (Q.dyadic neg (f.significand e m) (f.weight e))).num =
      f.significand e m * (f.scaled (Q.dyadic neg (f.significand e m) (f.weight e))).den := by
    rw [FF.scaled, FF.unit_dyadic f neg e hm hn, Q.dyadic_eq, Q.scale_eq, Int.neg_neg, Q.abs]
    simp only [Nat.mul_assoc, Nat.mul_comm]
  rw [FF.kept, whole, rneMag_mul _ (FF.scaled_den_ne_zero (Q.dyadic_den_ne_zero neg _ _))]

/-- A finite pattern's value encodes to that pattern. -/
theorem FF.roundQ_dyadic (hf : f.Regular) (sat neg : Bool) {e m : Nat} (h : f.Finite e m) :
    f.roundQ sat (Q.dyadic neg (f.significand e m) (f.weight e)) = (f.pack neg e m, {}) := by
  have zero := Q.dyadic_num_eq_zero neg (f.significand e m) (f.weight e)
  by_cases hn : f.significand e m = 0
  · have fields : e = 0 ∧ m = 0 := by
      have := Nat.two_pow_pos f.fbits
      rw [FF.significand] at hn
      split at hn <;> omega
    rw [FF.roundQ_zero f sat (zero.2 hn), Q.dyadic_neg, fields.1, fields.2]
  · have kept := FF.kept_dyadic f neg e h.frac hn
    by_cases he : e = 0
    · have sub : f.significand e m = m := if_pos he
      rw [FF.roundQ_subnormal f sat (mt zero.1 hn) (by rw [kept, sub]; exact h.frac), kept, sub, Q.dyadic_neg, he]
    · have normal : f.significand e m = 2 ^ f.fbits + m := if_neg he
      have low : 2 ^ f.fbits ≤ f.significand e m := normal ▸ Nat.le_add_right _ _
      have exponent : (f.weight e + f.fbits + f.bias).toNat = e := by
        simp only [FF.weight]
        omega
      rw [FF.roundQ_normal f sat (mt zero.1 hn) (Nat.le_trans low (Nat.le_of_eq kept.symm))
        (Nat.lt_of_le_of_lt (Nat.le_of_eq kept) (FF.significand_lt f e h.frac)), kept,
        FF.unit_dyadic f neg e h.frac hn, exponent, normal, Nat.add_sub_cancel_left, Q.dyadic_neg,
        FF.store_finite hf sat neg h]

/-- Every pattern that is no NaN encodes to itself, with no event. -/
theorem FF.encode_decode (hf : f.Regular) (sat : Bool) {x : Nat} (hx : x < 2 ^ f.width) (notNan : f.decode x ≠ .nan) :
    f.encode sat (f.decode x) = (x, {}) := by
  obtain ⟨neg, e, m, he, hm, rfl⟩ := FF.exists_pack hx
  rw [FF.decode_pack hf neg he hm] at notNan ⊢
  cases h : f.special e m with
  | false =>
    rw [FF.reading_finite neg h]
    exact FF.roundQ_dyadic hf sat neg ⟨he, hm, h⟩
  | true =>
    obtain ⟨h4, rfl, rfl⟩ := FF.special_infinite h notNan
    have inf : f.reading neg (2 ^ f.ebits - 1) 0 = .inf neg := (if_pos h).trans (if_pos ⟨h4, rfl⟩)
    rw [inf]
    simp only [FF.encode, FF.infBits, FF.pack, h4, Bool.false_eq_true, if_false, Nat.add_zero]

end Sys2Proof.Machine
end

section
/-! NaN in and out of the floating-point formats (spec/03_number_formats.md R73, R93). -/

namespace Sys2Proof.Machine

variable {f : FF}

theorem FF.reading_nan (neg : Bool) {e m : Nat} (h : f.special e m = true) (noInf : f.e4m3 = true ∨ m ≠ 0) :
    f.reading neg e m = .nan := by
  refine (if_pos h).trans (if_neg fun ⟨h4, hm⟩ => ?_)
  rcases noInf with h4' | hm'
  · exact Bool.false_ne_true (h4.symm.trans h4')
  · exact hm' hm

/-- Encoding gives the canonical NaN, a largest value, an infinity as the format stores it, or a finite pattern. -/
theorem FF.encode_cases (hf : f.Regular) (sat : Bool) (v : Val) :
    (f.encode sat v).1 = f.canonNan ∨
    ∃ neg, (f.encode sat v).1 = f.maxBits neg ∨ (f.encode sat v).1 = f.infBits neg ∨
      ∃ e m, f.Finite e m ∧ (f.encode sat v).1 = f.pack neg e m := by
  cases v with
  | nan => exact .inl rfl
  | inf neg =>
    refine .inr ⟨neg, ?_⟩
    cases h4 : f.e4m3 with
    | false => exact .inr (.inl (by simp only [FF.encode, h4, Bool.false_eq_true, if_false]))
    | true =>
      cases sat
      · exact .inr (.inl (by simp only [FF.encode, FF.infBits, h4, if_true, Bool.false_eq_true, if_false]))
      · exact .inl (by simp only [FF.encode, h4, if_true])
  | fin a =>
    refine .inr ⟨a.neg, ?_⟩
    show (f.roundQ sat a).1 = _ ∨ (f.roundQ sat a).1 = _ ∨ ∃ e m, f.Finite e m ∧ (f.roundQ sat a).1 = _
    rcases FF.roundQ_cases hf sat a with overflow | ⟨e, m, finite, packed⟩
    · rw [overflow]
      cases sat
      · exact .inr (.inl rfl)
      · exact .inl rfl
    · exact .inr (.inr ⟨e, m, finite, congrArg Prod.fst packed⟩)

theorem FF.decode_pack_ne_nan (hf : f.Regular) (neg : Bool) {e m : Nat} (h : f.Finite e m) : f.decode (f.pack neg e m) ≠ .nan := by
  rw [FF.decode_pack hf neg h.exp h.frac, FF.reading_finite neg h.plain]
  exact Val.noConfusion

theorem decode_maxBits_ne_nan : ∀ f ∈ [ff32, ffBF, ffE4, ffE5], ∀ neg, f.decode (f.maxBits neg) ≠ .nan := by decide

/-- An infinity reads as NaN in E4M3 alone, where it is stored as the canonical one. -/
theorem decode_infBits_nan :
    ∀ f ∈ [ff32, ffBF, ffE4, ffE5], ∀ neg, f.decode (f.infBits neg) = .nan → f.infBits neg = f.canonNan := by decide

theorem encode_nan_canonical {f : FF} (hf : f ∈ [ff32, ffBF, ffE4, ffE5]) (sat : Bool) (v : Val)
    (h : f.decode (f.encode sat v).1 = .nan) : (f.encode sat v).1 = f.canonNan := by
  rcases FF.encode_cases (formats_regular hf) sat v with canon | ⟨neg, top | inf | ⟨e, m, finite, packed⟩⟩
  · exact canon
  · exact absurd (top ▸ h) (decode_maxBits_ne_nan f hf neg)
  · exact inf.trans (decode_infBits_nan f hf neg (inf ▸ h))
  · exact absurd (packed ▸ h) (FF.decode_pack_ne_nan (formats_regular hf) neg finite)

/-- R72's NaN patterns of the formats with infinities. -/
theorem decode_nan_of_fields {f : FF} (h4 : f.e4m3 = false) {x : Nat}
    (he : fld x (f.ebits + f.fbits - 1) f.fbits = 2 ^ f.ebits - 1) (hm : fld x (f.fbits - 1) 0 ≠ 0) : f.decode x = .nan := by
  rw [FF.decode_eq_reading]
  exact FF.reading_nan _ (by simp only [FF.special, h4, he, Bool.false_eq_true, if_false, beq_self_eq_true]) (.inr hm)

/-- The two NaN patterns of E4M3. -/
theorem ffE4_decode_nan {x : Nat} (h : fld x 6 0 = 0x7F) : ffE4.decode x = .nan := by
  rw [fld_eq] at h
  have exponent : fld x 6 3 = 15 := by rw [fld_eq]; omega
  have fraction : fld x 2 0 = 7 := by rw [fld_eq]; omega
  rw [FF.decode_eq_reading]
  refine FF.reading_nan _ ?_ (.inl rfl)
  show (fld x 6 3 == 15 && fld x 2 0 == 7) = true
  rw [exponent, fraction]
  rfl

end Sys2Proof.Machine
end

section
/-! The blocks of GX16 (spec/03_number_formats.md R84 to R86): what an element reads as, and what a conversion writes. -/

namespace Sys2Proof.Machine

theorem Q.dyadic_sub_exact (neg : Bool) (m e b : Nat) :
    (Q.dyadic neg m ((e : Int) - b)).num * 2 ^ b = m * 2 ^ e * (Q.dyadic neg m ((e : Int) - b)).den := by
  have places : ((e : Int) - b).toNat + b = e + (-((e : Int) - b)).toNat := by omega
  rw [Q.dyadic_eq, Nat.mul_assoc, ← Nat.pow_add, places, Nat.pow_add, Nat.mul_assoc]

theorem Gx.elem_finite {e : Nat} (m : List Int) (k : Nat) (he : 0x01 ≤ e) (he' : e ≤ 0xFE) :
    (⟨e, m⟩ : Gx).elem k =
      if (m[k]?).getD 0 = 0 then posZero
      else .fin (Q.dyadic (decide ((m[k]?).getD 0 < 0)) ((m[k]?).getD 0).natAbs ((e : Int) - 141)) := by
  have notZero : e ≠ 0 := by omega
  have notNan : e ≠ 255 := by omega
  simp only [Gx.elem, beq_iff_eq, notZero, notNan, if_false]

/-- R84: an element is its mantissa times the block's power of two. -/
theorem Gx.elem_exact {e : Nat} (m : List Int) (k : Nat) (he : 0x01 ≤ e) (he' : e ≤ 0xFE) :
    ∃ q : Q, (⟨e, m⟩ : Gx).elem k = .fin q ∧ q.den ≠ 0 ∧ q.neg = decide ((m[k]?).getD 0 < 0) ∧
      q.num * 2 ^ 141 = ((m[k]?).getD 0).natAbs * 2 ^ e * q.den := by
  rw [Gx.elem_finite m k he he']
  generalize (m[k]?).getD 0 = t
  by_cases zero : t = 0
  · exact ⟨⟨false, 0, 1⟩, if_pos zero, Nat.one_ne_zero, by rw [zero]; rfl, by rw [zero]; simp only [Int.natAbs_zero, Nat.zero_mul]⟩
  · exact ⟨_, if_neg zero, Q.dyadic_den_ne_zero _ _ _, Q.dyadic_neg _ _ _, Q.dyadic_sub_exact _ _ _ _⟩

/-! ### What a conversion writes -/

theorem Val.isNan_iff (v : Val) : v.isNan = true ↔ v = .nan := by
  cases v with
  | nan => exact iff_of_true rfl rfl
  | inf => exact iff_of_false Bool.false_ne_true Val.noConfusion
  | fin => exact iff_of_false Bool.false_ne_true Val.noConfusion

/-- What `to_gx16` may write: 64 mantissas in range, and an exponent byte that is not 0xFF. -/
structure Gx.InRange (g : Gx) : Prop where
  count : g.m.length = 64
  range : ∀ t ∈ g.m, -32767 ≤ t ∧ t ≤ 32767
  exponent : g.e ≤ 0xFE

theorem gxFits_range {ts : List Int} (h : gxFits ts = true) : ∀ t ∈ ts, -32767 ≤ t ∧ t ≤ 32767 := by
  intro t ht
  have : t.natAbs ≤ 32767 := of_decide_eq_true (List.all_eq_true.1 h t ht)
  omega

theorem clampI_range (ts : List Int) : ∀ t ∈ ts.map (clampI (-32767) 32767), -32767 ≤ t ∧ t ≤ 32767 := by
  simp only [List.forall_mem_map, clampI]
  omega

theorem zeros_range : ∀ t ∈ List.replicate 64 (0 : Int), -32767 ≤ t ∧ t ≤ 32767 := by
  intro t ht
  rw [List.eq_of_mem_replicate ht]
  decide

/-- The 64 values a conversion takes (R70). -/
def gxInputs (xs : List Val) : List Val := (xs ++ List.replicate (64 - xs.length) posZero).take 64

theorem gxInputs_length (xs : List Val) : (gxInputs xs).length = 64 := by
  rw [gxInputs, List.length_take, List.length_append, List.length_replicate]
  omega

/-- A value that is not one of the input is padding. -/
theorem mem_of_mem_gxInputs {xs : List Val} {v : Val} (h : v ∈ gxInputs xs) (other : v ≠ posZero) : v ∈ xs :=
  (List.mem_append.1 (List.mem_of_mem_take h)).resolve_right fun pad => other (List.eq_of_mem_replicate pad)

theorem gxScale_length (qs : List Q) (E : Int) : (gxScale qs E).length = qs.length := List.length_map _

/-- A block with a NaN or an infinity. -/
theorem toGx_special {xs : List Val} (h : (gxInputs xs).any Val.isNan = true ∨ (gxInputs xs).any Val.isInf = true) :
    (toGx xs).1 = ⟨0xFF, List.replicate 64 0⟩ := by
  unfold toGx
  rw [← gxInputs]
  by_cases nan : (gxInputs xs).any Val.isNan = true
  · simp only [nan, if_true]
  · simp only [h.resolve_left nan, if_true, ite_self, apply_ite Prod.fst]

/-- Numbers alone: the mantissas fit at one of two exponents, or they are clamped. -/
theorem toGx_inRange {xs : List Val} (noNan : (gxInputs xs).any Val.isNan = false) (noInf : (gxInputs xs).any Val.isInf = false) :
    (toGx xs).1.InRange := by
  unfold toGx
  rw [← gxInputs]
  simp only [noNan, noInf, Bool.false_eq_true, if_false]
  have count (E : Int) : (gxScale ((gxInputs xs).map Val.q) E).length = 64 := by
    rw [gxScale_length, List.length_map, gxInputs_length]
  generalize List.foldl _ _ _ = a
  have bounds : -126 ≤ min (max a.log2 (-126)) 127 ∧ min (max a.log2 (-126)) 127 ≤ 127 := by omega
  generalize min (max a.log2 (-126)) 127 = E at bounds ⊢
  split
  · exact ⟨List.length_replicate, zeros_range, Nat.zero_le _⟩
  split
  next fits => exact ⟨count E, gxFits_range fits, by show (E + 127).toNat ≤ 254; omega⟩
  split
  · exact ⟨(List.length_map _).trans (count E), clampI_range _, Nat.le_refl _⟩
  next notTop =>
    rw [beq_iff_eq] at notTop
    split
    next fits => exact ⟨count (E + 1), gxFits_range fits, by show (E + 128).toNat ≤ 254; omega⟩
    · exact ⟨(List.length_map _).trans (count (E + 1)), clampI_range _, Nat.le_refl _⟩

/-- R86: what any conversion writes, and when its exponent byte is 0xFF. -/
theorem toGx_writes (xs : List Val) :
    (toGx xs).1.m.length = 64 ∧ (∀ t ∈ (toGx xs).1.m, -32767 ≤ t ∧ t ≤ 32767) ∧ (toGx xs).1.e ≤ 0xFF ∧
    ((toGx xs).1.e = 0xFF → ∃ x ∈ xs, x = .nan ∨ x.isInf = true) := by
  by_cases h : (gxInputs xs).any Val.isNan = true ∨ (gxInputs xs).any Val.isInf = true
  · rw [toGx_special h]
    refine ⟨List.length_replicate, zeros_range, Nat.le_refl _, fun _ => ?_⟩
    simp only [List.any_eq_true] at h
    rcases h with ⟨v, hv, nan⟩ | ⟨v, hv, inf⟩
    · obtain rfl : v = .nan := (Val.isNan_iff v).1 nan
      exact ⟨.nan, mem_of_mem_gxInputs hv Val.noConfusion, .inl rfl⟩
    · exact ⟨v, mem_of_mem_gxInputs hv (by rintro rfl; cases inf), .inr inf⟩
  · rw [not_or, Bool.not_eq_true, Bool.not_eq_true] at h
    obtain ⟨count, range, exponent⟩ := toGx_inRange h.1 h.2
    exact ⟨count, range, by omega, by omega⟩

end Sys2Proof.Machine
end

section
/-! The obligations of the number formats (spec/03_number_formats.md R71 to R74, R84 to R86, R91 to R93). -/

namespace Sys2Proof.Machine

/-- Settles O53: the four formats share the layout for which `FF.encode_decode` shows it. -/
theorem formatsRoundTrip : Obligations.FormatsRoundTrip :=
  ⟨rfl, fun _ hf sat _ hx notNan => FF.encode_decode (formats_regular hf) sat hx notNan⟩

/-- Settles O54: NaN patterns are read off their fields, and `encode_nan_canonical` goes through what encoding can give. -/
theorem naNsAreAlikeAndCanonical : Obligations.NaNsAreAlikeAndCanonical := by
  have infinities : ∀ f ∈ [ff32, ffBF, ffE5], f.e4m3 = false := by decide
  have signs : ∀ f ∈ [ff32, ffBF, ffE4, ffE5], bitOf f.canonNan (f.width - 1) = false := by decide
  refine ⟨rfl, fun f hf x he hm => decode_nan_of_fields (infinities f hf) he hm, fun x h => ffE4_decode_nan h,
    fun f hf sat v => ⟨signs f hf, ?_, encode_nan_canonical hf sat v⟩⟩
  rintro rfl
  rfl

/-- Settles O55: the elements by the exponent byte, the conversion by its inputs. -/
theorem blocksOfGX16DecodeAndKeepTheirRange : Obligations.BlocksOfGX16DecodeAndKeepTheirRange :=
  ⟨fun _ _ => ⟨rfl, rfl⟩, fun _ m k he he' => Gx.elem_exact m k he he', toGx_writes⟩

end Sys2Proof.Machine
end

section
/-! The unit of a tile instruction does not enter its arithmetic (spec/04_rounding_overflow_accumulation.md R106): folds and
drains are those of the job whose unit is cleared, in the instruction and in the agent. -/

namespace Sys2Proof.Machine

/-! ### Instructions without their unit -/

/-- A field above the bits that are cleared. -/
theorem fld_clear (x hi : Nat) {lo : Nat} (above : 10 ≤ lo) : fld (x / 1024 * 1024) hi lo = fld x hi lo := by
  have cleared : x / 1024 * 1024 / 2 ^ lo = x / 2 ^ lo := by
    rw [← Nat.sub_add_cancel above, Nat.pow_add, Nat.mul_comm (2 ^ _), ← Nat.div_div_eq_div_mul, ← Nat.div_div_eq_div_mul,
      Nat.mul_div_cancel _ (by decide)]
  rw [fld_eq, fld_eq, cleared]

theorem bitOf_eq (x i : Nat) : bitOf x i = (fld x i i == 1) := by
  rw [bitOf, fld, Nat.add_sub_cancel_left, Nat.pow_one]

theorem bitOf_clear (x : Nat) {i : Nat} (above : 10 ≤ i) : bitOf (x / 1024 * 1024) i = bitOf x i := by
  rw [bitOf_eq, bitOf_eq, fld_clear x i above]

/-- The instruction with its kind and its unit cleared (R164). -/
def TileI.unitless (t : TileI) : TileI := ⟨t.r / 1024 * 1024⟩

namespace TileI

variable (t : TileI)

@[simp] theorem unitless_sat : t.unitless.sat = t.sat := bitOf_clear _ (by decide)
@[simp] theorem unitless_transposed : t.unitless.transposed = t.transposed := bitOf_clear _ (by decide)
@[simp] theorem unitless_ord3 : t.unitless.ord3 = t.ord3 := fld_clear _ _ (by decide)
@[simp] theorem unitless_m : t.unitless.m = t.m := fld_clear _ _ (by decide)
@[simp] theorem unitless_n : t.unitless.n = t.n := fld_clear _ _ (by decide)
@[simp] theorem unitless_k : t.unitless.k = t.k := fld_clear _ _ (by decide)
@[simp] theorem unitless_pad : t.unitless.pad = t.pad := fld_clear _ _ (by decide)
@[simp] theorem unitless_op (i : Nat) : t.unitless.op i = t.op i := fld_clear _ _ (by omega)
@[simp] theorem unitless_c0 : t.unitless.c0 = t.c0 := fld_clear _ _ (by decide)
@[simp] theorem unitless_c1 : t.unitless.c1 = t.c1 := fld_clear _ _ (by decide)
@[simp] theorem unitless_kh : t.unitless.kh = t.kh := congrArg (· + 1) (fld_clear _ _ (by decide))
@[simp] theorem unitless_kw : t.unitless.kw = t.kw := congrArg (· + 1) (fld_clear _ _ (by decide))
@[simp] theorem unitless_stride : t.unitless.stride = t.stride := congrArg (· + 1) (fld_clear _ _ (by decide))
@[simp] theorem unitless_dil : t.unitless.dil = t.dil := congrArg (· + 1) (fld_clear _ _ (by decide))
@[simp] theorem unitless_padH : t.unitless.padH = t.padH := fld_clear _ _ (by decide)
@[simp] theorem unitless_padW : t.unitless.padW = t.padW := fld_clear _ _ (by decide)
@[simp] theorem unitless_inW : t.unitless.inW = t.inW := fld_clear _ _ (by decide)
@[simp] theorem unitless_inH : t.unitless.inH = t.inH := fld_clear _ _ (by decide)

@[simp] theorem unitless_unit : t.unitless.unit = 0 := by
  show fld (t.r / 1024 * 1024) 9 8 = 0
  rw [fld_eq]
  omega

@[simp] theorem unitless_chain : t.unitless.chain = t.chain := by simp only [chain, unitless_op]
@[simp] theorem unitless_outW : t.unitless.outW = t.outW := by
  simp only [outW, unitless_inW, unitless_padW, unitless_dil, unitless_kw, unitless_stride]
@[simp] theorem unitless_red : t.unitless.red = t.red := by
  simp only [red, unitless_transposed, unitless_n, unitless_k]
@[simp] theorem unitless_outCols : t.unitless.outCols = t.outCols := by
  simp only [outCols, unitless_transposed, unitless_n, unitless_k]

end TileI

/-! ### Jobs without their unit -/

/-- The job with its unit cleared. -/
def Job.unitless (j : Job) : Job := { j with t := j.t.unitless, ag := { j.ag with unit := 0 } }

namespace Job

variable (j : Job)

@[simp] theorem unitless_t : j.unitless.t = j.t.unitless := rfl
@[simp] theorem unitless_a : j.unitless.a = j.a := rfl
@[simp] theorem unitless_b : j.unitless.b = j.b := rfl
@[simp] theorem unitless_res : j.unitless.res = j.res := rfl
@[simp] theorem unitless_bias : j.unitless.bias = j.bias := rfl
@[simp] theorem unitless_w : j.unitless.w = j.w := rfl
@[simp] theorem unitless_side : j.unitless.side = j.side := rfl
@[simp] theorem unitless_outliers : j.unitless.outliers = j.outliers := rfl

end Job

section
variable (s : State) (j : Job) (p t o : Nat)

/-! Memory is read by context and cluster. -/

@[simp] theorem State.elemBits_unitless : s.elemBits j.unitless = s.elemBits j := rfl
@[simp] theorem State.elemVal_unitless : s.elemVal j.unitless = s.elemVal j := rfl
@[simp] theorem State.scaleVal_unitless : s.scaleVal j.unitless = s.scaleVal j := rfl
@[simp] theorem State.wScale_unitless : s.wScale j.unitless = s.wScale j := rfl
@[simp] theorem State.wBook_unitless : s.wBook j.unitless = s.wBook j := rfl
@[simp] theorem State.wCode_unitless : s.wCode j.unitless = s.wCode j := rfl
@[simp] theorem State.wSide_unitless : s.wSide j.unitless = s.wSide j := rfl

@[simp] theorem Job.unitless_aRows : j.unitless.aRows = j.aRows := by
  simp only [Job.aRows, Job.unitless_t, TileI.unitless_ord3, TileI.unitless_k, TileI.unitless_kh, TileI.unitless_kw,
    TileI.unitless_inH, TileI.unitless_m]

/-- The columns of operand A go by the unit for the vector unit alone. -/
theorem Job.unitless_aCols (array : j.t.unit ≤ 2) : j.unitless.aCols = j.aCols := by
  have notVector : (j.t.unit == 3) = false := beq_false_of_ne (by omega)
  have cleared : (j.t.unitless.unit == 3) = false := beq_false_of_ne (by rw [TileI.unitless_unit]; decide)
  simp only [Job.aCols, Job.unitless_t, notVector, cleared, TileI.unitless_ord3, TileI.unitless_inW, TileI.unitless_red]
  rfl

/-! ### The fold and the drain -/

@[simp] theorem State.codeProd_unitless (n k : Nat) (x : Val) (key : Nat) (f : Fold) :
    s.codeProd j.unitless n k x key f = s.codeProd j n k x key f := by
  simp only [State.codeProd, Job.unitless_w, Job.unitless_t, State.wCode_unitless, State.wBook_unitless, TileI.unitless_sat,
    beq_iff_eq, bne_iff_ne, Bool.and_eq_true]

@[simp] theorem State.chainOp_unitless (f : Fold) (u : Val) (op : Nat) :
    s.chainOp j.unitless p t o f u op = s.chainOp j p t o f u op := by
  simp only [State.chainOp, Job.unitless_t, Job.unitless_res, Job.unitless_bias, State.elemVal_unitless, TileI.unitless_sat,
    TileI.unitless_m, TileI.unitless_outCols, TileI.unitless_c0, TileI.unitless_c1]

@[simp] theorem State.chainAll_unitless (f : Fold) (u : Val) : s.chainAll j.unitless p t o f u = s.chainAll j p t o f u := by
  simp only [State.chainAll, Job.unitless_t, TileI.unitless_chain, State.chainOp_unitless]

@[simp] theorem State.drainScales_unitless (f : Fold) : s.drainScales j.unitless p t o f = s.drainScales j p t o f := by
  simp only [State.drainScales, Job.unitless_t, Job.unitless_a, Job.unitless_b, Job.unitless_side, Job.unitless_outliers,
    Job.unitless_aRows, State.wScale_unitless, State.scaleVal_unitless, TileI.unitless_sat, TileI.unitless_transposed,
    TileI.unitless_n]

@[simp] theorem State.drainElem_unitless (f : Fold) : s.drainElem j.unitless p t o f = s.drainElem j p t o f := by
  simp only [State.drainElem, State.drainScales_unitless, State.chainAll_unitless]

variable {j}

theorem State.actVal_unitless (array : j.t.unit ≤ 2) (r : Nat) : s.actVal j.unitless p t r = s.actVal j p t r := by
  simp only [State.actVal, Job.unitless_t, Job.unitless_a, Job.unitless_aRows, Job.unitless_aCols j array,
    State.elemVal_unitless, TileI.unitless_ord3, TileI.unitless_outW, TileI.unitless_kh, TileI.unitless_kw,
    TileI.unitless_stride, TileI.unitless_dil, TileI.unitless_padH, TileI.unitless_padW, TileI.unitless_inH,
    TileI.unitless_inW, TileI.unitless_pad]

theorem State.foldStep_unitless (array : j.t.unit ≤ 2) (f : Fold) (r : Nat) :
    s.foldStep j.unitless p t o f r = s.foldStep j p t o f r := by
  simp only [State.foldStep, Job.unitless_t, Job.unitless_b, Job.unitless_w, Job.unitless_side, Job.unitless_outliers,
    s.actVal_unitless p t array, State.elemVal_unitless, State.elemBits_unitless, State.wScale_unitless,
    State.wSide_unitless, State.codeProd_unitless, TileI.unitless_sat, TileI.unitless_transposed, TileI.unitless_red,
    TileI.unitless_pad, TileI.unitless_n, TileI.unitless_k, beq_iff_eq]

theorem State.foldRange_unitless (array : j.t.unit ≤ 2) (lo hi : Nat) (f : Fold) :
    s.foldRange j.unitless p t o lo hi f = s.foldRange j p t o lo hi f := by
  simp only [State.foldRange, s.foldStep_unitless p t o array]

/-- Runs of passes that meet fold as one (R100). -/
theorem State.foldRange_append (j : Job) {lo mid hi : Nat} (first : lo ≤ mid) (rest : mid ≤ hi) (f : Fold) :
    s.foldRange j p t o mid hi (s.foldRange j p t o lo mid f) = s.foldRange j p t o lo hi f := by
  have count : hi - lo = (mid - lo) + (hi - mid) := by omega
  have place (i : Nat) : lo + (mid - lo + i) = mid + i := by omega
  simp only [State.foldRange, count, List.range_add, List.foldl_append, List.foldl_map, place]
end

/-- Settles O59: each unit does the work of the job without its unit, and there is one such job. -/
theorem awlAndMatrixUnitsGiveTheSameBits : Obligations.AwlAndMatrixUnitsGiveTheSameBits := by
  intro s j k p t o record arrayJ arrayK same
  have alike : j.unitless = k.unitless := by
    rw [same, Job.unitless, Job.unitless, TileI.unitless, TileI.unitless, record]
  have folds (lo hi : Nat) (f : Fold) : s.foldRange j p t o lo hi f = s.foldRange k p t o lo hi f := by
    rw [← s.foldRange_unitless p t o arrayJ, alike, s.foldRange_unitless p t o arrayK]
  refine ⟨folds, fun lo mid hi f first rest => ?_, fun f => ?_⟩
  · rw [← folds, s.foldRange_append p t o j first rest]
  · rw [← s.drainElem_unitless, alike, s.drainElem_unitless]

end Sys2Proof.Machine
end
section
/-! The obligation of the clear command, the monitor and the Cobbler (spec/04_rounding_overflow_accumulation.md R117;
spec/06_narrow_weights.md R145 to R151; spec/11_optimiser_and_masters.md R249 to R256). -/

namespace Sys2Proof.Machine

/-- A command that chooses between two next states answers the chosen one. -/
theorem ite_next_of_iff {b : Bool} {chosen : Prop} [Decidable chosen] {s t : State} {o : Host.Outcome State Fault Refusal}
    (test : b = true ↔ chosen) (other : o = .next t) :
    (if b = true then .next s else o) = .next (if chosen then s else t) := by
  rw [other, apply_ite Host.Outcome.next]
  exact ite_congr (propext test) (fun _ => rfl) fun _ => rfl

/-- Settles O21, command by command: what its premises say of the state decides the branch that the command takes. -/
theorem cobblerAndMonitorWork : Obligations.CobblerAndMonitorWork := by
  refine ⟨fun _ _ => rfl, ?calibration, ?sample, ?enter, ?update, ?emission⟩
  case calibration =>
    intro s c instr grp im ag fr p w C rows x b ol s1 every due fetched kind narrow notTern rowsRead bookRead listRead
    have calibrates : (im.calibEvery == 0 || (s.run c).step % im.calibEvery != 0 || fr.1 != 0 || recKind p.r != 4 || !p.narrow ||
        w.fmt == .tern) = false := by
      simp only [beq_false_of_ne every, beq_false_of_ne notTern, due, fetched, kind, narrow, bne_self_eq_false]
      rfl
    have allRead : (x.1 != 0 || b.1 != 0 || ol.1 != 0) = false := by
      simp only [rowsRead, bookRead, listRead, bne_self_eq_false, Bool.or_self]
    refine (if_neg (ne_true_of_eq_false calibrates)).trans ((if_neg (ne_true_of_eq_false allRead)).trans ?_)
    change (match calibrate (calHist x.2.1 ((List.range w.outliers).map fun i => leAt ol.2.1 (4 * i) 4)) (codebookOf w.fmt b.2.1) with
      | some v => Host.Outcome.next _
      | none => Host.Outcome.next _) = _
    generalize calibrate _ _ = calibrated
    cases calibrated with
    | some v => rfl
    | none => rfl
  case sample =>
    intro s g n idx blk c r resident running codes forward watched sampled
    have samples : ((s.job c g n r).side != .codes || (s.job c g n r).t.transposed || (s.job c g n r).w.trip == 0 ||
        !(sampledBlocks (s.job c g n r).w (s.run c).step).contains blk) = false := by
      simp only [codes, forward, beq_false_of_ne watched, sampled]
      rfl
    show execDriftSample g n idx blk s = _
    rw [execDriftSample, resident, running]
    exact if_neg (ne_true_of_eq_false samples)
  case enter =>
    intro s ch e rest waiting s1
    show execCobblerQueueEnter ch s = _
    rw [execCobblerQueueEnter, waiting]
    exact (apply_ite Host.Outcome.next _ _ _).symm
  case update =>
    intro s ch q e r running p C ag pag x s1
    show execCobblerUpdate ch s = _
    rw [execCobblerUpdate, running]
    exact ite_next_of_iff bne_iff_ne (ite_next_of_iff beq_iff_eq rfl)
  case emission =>
    intro s ch q e r running p C ag pag w fallen f x mons s1 s2
    show execCobblerEmit ch s = _
    rw [execCobblerEmit, running]
    exact ite_next_of_iff bne_iff_ne rfl

end Sys2Proof.Machine
end
section
/-! What a send does to the counts of its partitions: counts as pairs, objects of a partition, the list of sends, and the three
commands once their send is due (spec/07_tile_instructions.md R172; spec/09_sync_objects_and_conservation.md R206, R213 to
R215). -/

namespace Sys2Proof.Machine
variable {s : State}

/-! ### Counts as pairs (R206, R214) -/

theorem pairOf_nat {w n : Nat} (fits : n < 2 ^ w) : (pairOf w n).nat = n :=
  (BitVec.toNat_ofNat n w).trans (Nat.mod_eq_of_lt fits)

theorem raise16_eq {p : Paired 16} {n : Nat} (room : p.nat + n ≤ 0xFFFF) : raise16 p n = pairOf 16 (p.nat + n) :=
  congrArg (pairOf 16) (Nat.min_eq_right room)

theorem lower16_nat (p : Paired 16) (n : Nat) : (lower16 p n).nat = p.nat - n :=
  pairOf_nat (Nat.lt_of_le_of_lt (Nat.sub_le _ _) p.v.isLt)

/-! ### The objects of a partition -/

theorem PartSync.setObj_obj_other (p : PartSync) {o j : Nat} (v : Paired 16) (other : j ≠ o) : (p.setObj o v).obj j = p.obj j :=
  Tab.get_put_other _ _ _ _ _ other

/-- A count other than 0 is listed, so it reads back whatever the table held. -/
theorem PartSync.setObj_obj_same (p : PartSync) {o : Nat} {v : Paired 16} (listed : v ≠ pairOf 16 0) : (p.setObj o v).obj o = v :=
  (congrArg (Tab.get · o _) (if_neg listed)).trans (Tab.get_set_same _ _ _ _)

/-- The partition's counts with `n` more tokens in object `o`. -/
def PartSync.gain (p : PartSync) (o n : Nat) : PartSync := p.setObj o (pairOf 16 ((p.obj o).nat + n))

@[simp] theorem PartSync.gain_inHand (p : PartSync) (o n : Nat) : (p.gain o n).inHand = p.inHand := rfl
@[simp] theorem PartSync.gain_out (p : PartSync) (o n : Nat) : (p.gain o n).out = p.out := rfl
@[simp] theorem PartSync.gain_stranded (p : PartSync) (o n : Nat) : (p.gain o n).stranded = p.stranded := rfl

theorem PartSync.gain_obj_nat (p : PartSync) {o n : Nat} (pos : 0 < n) (room : (p.obj o).nat + n ≤ 0xFFFF) (j : Nat) :
    ((p.gain o n).obj j).nat = (p.obj j).nat + if j = o then n else 0 := by
  have count : (pairOf 16 ((p.obj o).nat + n)).nat = (p.obj o).nat + n := pairOf_nat (by omega)
  by_cases h : j = o
  · subst h
    have listed : pairOf 16 ((p.obj j).nat + n) ≠ pairOf 16 0 := by
      intro zero
      rw [zero, pairOf_nat (by decide)] at count
      omega
    rw [gain, setObj_obj_same p listed, count, if_pos rfl]
  · rw [gain, setObj_obj_other p _ h, if_neg h, Nat.add_zero]

/-! ### Tokens given, stranded and taken from in_hand -/

theorem ite_zero_of_pos {α : Type} {n : Nat} (pos : 0 < n) (a b : α) : (if (n == 0) = true then a else b) = b :=
  if_neg (ne_true_of_eq_false (beq_false_of_ne (Nat.ne_of_gt pos)))

theorem State.give_eq {c g o n : Nat} (pos : 0 < n) (thawed : (s.part g).sync.frozen.contains o = false)
    (intact : ((s.part g).sync.obj o).ok = true) (room : ((s.part g).sync.obj o).nat + n ≤ 0xFFFF) :
    s.give c g o n = s.modSync g fun p => p.gain o n := by
  simp only [give, ite_zero_of_pos pos, thawed, intact, Nat.min_eq_right room, if_neg (Nat.not_lt.mpr room)]
  rfl

theorem State.strand_eq {g n : Nat} (pos : 0 < n) (room : (s.part g).sync.stranded.nat + n ≤ 0xFFFF) :
    s.strand g n = s.modSync g fun p => { p with stranded := pairOf 16 (p.stranded.nat + n) } := by
  rw [strand, ite_zero_of_pos pos, limitFault, if_pos room]
  simp only [modSync, raise16_eq room]

theorem State.handDown_eq {g n : Nat} (pos : 0 < n) :
    s.handDown g n = s.modSync g fun p => { p with inHand := lower16 p.inHand n } :=
  ite_zero_of_pos pos _ _

theorem State.modSync_sync_other {g j : Nat} (f : PartSync → PartSync) (other : j ≠ g) :
    ((s.modSync g f).part j).sync = (s.part j).sync :=
  congrArg Part.sync (modSync_part_other s g j f other)

/-! ### The list of sends -/

@[simp] theorem State.dropSend_part (id g : Nat) : (s.dropSend id).part g = s.part g := rfl

theorem State.dropSend_sendOf (id : Nat) : (s.dropSend id).sendOf id = none := by
  simp [dropSend, sendOf]

/-- The record of a send that has ended is touched only in its cluster. -/
theorem State.sendsDone_within (e : Send) : ∃ clus, s.sendsDone e = { s with clus := clus } := by
  unfold sendsDone
  split
  · exact ⟨_, rfl⟩
  · exact ⟨_, rfl⟩

@[simp] theorem State.sendsDone_part (e : Send) (g : Nat) : (s.sendsDone e).part g = s.part g := by
  obtain ⟨clus, h⟩ := s.sendsDone_within e
  rw [h]
  rfl

@[simp] theorem State.sendsDone_sendOf (e : Send) (id : Nat) : (s.sendsDone e).sendOf id = s.sendOf id := by
  obtain ⟨clus, h⟩ := s.sendsDone_within e
  rw [h]
  rfl

@[simp] theorem State.modSync_sendOf (g : Nat) (f : PartSync → PartSync) (id : Nat) : (s.modSync g f).sendOf id = s.sendOf id := rfl

/-- The send turned into its acknowledgement, on its way back over `hops` links (R213 step 3). -/
def Send.turned (e : Send) (clk hops : Nat) : Send := { e with phase := 1, due := clk + 32 + 24 * hops }

/-- The send numbered `id` turned into its acknowledgement. -/
def State.turnSend (s : State) (id hops : Nat) : State :=
  { s with sync := { s.sync with sends := s.sync.sends.map fun x => if x.id == id then x.turned s.clk hops else x } }

@[simp] theorem State.turnSend_part (id hops g : Nat) : (s.turnSend id hops).part g = s.part g := rfl

@[simp] theorem State.turnSend_clk (id hops : Nat) : (s.turnSend id hops).clk = s.clk := rfl

theorem State.turnSend_sendOf {id : Nat} {e : Send} (sent : s.sendOf id = some e) (hops : Nat) :
    (s.turnSend id hops).sendOf id = some (e.turned s.clk hops) := by
  have number : e.id == id := List.find?_some (p := fun x : Send => x.id == id) sent
  have keepsNumber : ((fun x : Send => x.id == id) ∘ fun x => if x.id == id then x.turned s.clk hops else x) = fun x => x.id == id := by
    funext x
    show ((if x.id == id then x.turned s.clk hops else x).id == id) = (x.id == id)
    split <;> rfl
  calc (s.turnSend id hops).sendOf id
      = (s.sendOf id).map fun x => if x.id == id then x.turned s.clk hops else x := by
        rw [sendOf, turnSend, List.find?_map, keepsNumber, sendOf]
    _ = some (e.turned s.clk hops) := by rw [sent, Option.map_some, if_pos number]

/-! ### The three commands, their send being due (R213) -/

@[simp] theorem State.atClk_part (at_ g : Nat) : (s.atClk at_).part g = s.part g := rfl

@[simp] theorem State.atClk_sendOf (at_ id : Nat) : (s.atClk at_).sendOf id = s.sendOf id := rfl

theorem State.atClk_arrived {at_ time : Nat} (due : time ≤ max s.clk at_) : decide ((s.atClk at_).clk < time) = false :=
  decide_eq_false (Nat.not_lt.mpr due)

section
variable {id at_ : Nat} {e : Send} (sent : s.sendOf id = some e) (due : e.due ≤ max s.clk at_)
include sent due

/-- A send to its own partition moves its tokens from in_hand to the object. -/
theorem exec_localSendApply_due (own : e.remote = false) (pos : 0 < e.tokens)
    (intact : ((s.part e.src).sync.obj e.obj).ok = true) (thawed : (s.part e.src).sync.frozen.contains e.obj = false)
    (room : ((s.part e.src).sync.obj e.obj).nat + e.tokens ≤ 0xFFFF) :
    exec (.localSendApply id at_) s = .next
      (((((s.atClk at_).dropSend id).modSync e.src fun p => { p with inHand := lower16 p.inHand e.tokens }).modSync e.src
        fun p => p.gain e.obj e.tokens).sendsDone e) := by
  have here : (s.atClk at_).sendOf id = some e := sent
  have taken : (((s.atClk at_).dropSend id).modSync e.src fun p => { p with inHand := lower16 p.inHand e.tokens }).part e.src =
      { s.part e.src with sync := { (s.part e.src).sync with inHand := lower16 (s.part e.src).sync.inHand e.tokens } } :=
    State.modSync_part_same _ _ _
  show execLocalSendApply id at_ s = _
  simp only [execLocalSendApply, here, own, State.atClk_arrived due, State.handDown_eq pos]
  rw [State.give_eq pos (by rwa [taken]) (by rwa [taken]) (by rwa [taken])]
  rfl

/-- A send to another partition reaches it, and turns into its acknowledgement. -/
theorem exec_remoteSendApply_due (far : e.remote = true) (onItsWay : e.phase = 0) :
    exec (.remoteSendApply id at_) s = .next
      ((if s.cutOff e.dst = true then (s.atClk at_).strand e.dst e.tokens
        else (s.atClk at_).give ((s.atClk at_).sendCtx e) e.dst e.obj e.tokens).turnSend id e.hops) := by
  have here : (s.atClk at_).sendOf id = some e := sent
  show execRemoteSendApply id at_ s = _
  simp only [execRemoteSendApply, here, far, onItsWay, State.atClk_arrived due]
  rfl

/-- The acknowledgement takes the send's tokens from the out count of its source. -/
theorem exec_sendAckReceive_due (far : e.remote = true) (applied : e.phase = 1) :
    exec (.sendAckReceive id at_) s = .next
      ((((s.atClk at_).dropSend id).modSync e.src fun p => { p with out := lower16 p.out e.tokens }).sendsDone e) := by
  have here : (s.atClk at_).sendOf id = some e := sent
  show execSendAckReceive id at_ s = _
  simp only [execSendAckReceive, here, far, applied, State.atClk_arrived due]
  rfl

end

/-- Settles O26, command by command: each changes the counts of one partition once, and ends the send or turns it round. -/
theorem sendsMoveTheirTokensOnce : Obligations.SendsMoveTheirTokensOnce := by
  intro s id at_ e sent due pos
  refine ⟨?own, ?reached, ?cutOff, ?acknowledged⟩
  case own =>
    intro own _ intact thawed room
    refine ⟨_, exec_localSendApply_due sent due own pos intact thawed room, ?ended, ?inHand, ?objects, ?out, ?stranded, ?others⟩
    case ended => simp [State.dropSend_sendOf]
    case inHand => simp [lower16_nat]
    case objects =>
      simp only [State.sendsDone_part, State.modSync_part_same]
      exact PartSync.gain_obj_nat { (s.part e.src).sync with inHand := lower16 _ _ } pos room
    case out => simp
    case stranded => simp
    case others =>
      intro g other
      simp [State.modSync_sync_other _ other]
  case reached =>
    intro far onItsWay reached intact thawed room
    have given := State.give_eq (s := s.atClk at_) (c := (s.atClk at_).sendCtx e) pos thawed intact room
    have run := exec_remoteSendApply_due sent due far onItsWay
    rw [if_neg (ne_true_of_eq_false reached), given] at run
    refine ⟨_, run, State.turnSend_sendOf (by simpa using sent) _, ?objects, ?inHand, ?out, ?stranded, ?others⟩
    case objects => simpa using PartSync.gain_obj_nat _ pos room
    case inHand => simp
    case out => simp
    case stranded => simp
    case others =>
      intro g other
      simp [State.modSync_sync_other _ other]
  case cutOff =>
    intro far onItsWay cut room
    have run := exec_remoteSendApply_due sent due far onItsWay
    rw [if_pos cut, State.strand_eq (s := s.atClk at_) pos room] at run
    refine ⟨_, run, State.turnSend_sendOf (by simpa using sent) _, ?counts, ?others⟩
    case counts => simp
    case others =>
      intro g other
      simp [State.modSync_sync_other _ other]
  case acknowledged =>
    intro far applied _
    refine ⟨_, exec_sendAckReceive_due sent due far applied, ?ended, ?counts, ?others⟩
    case ended => simp [State.dropSend_sendOf]
    case counts => simp [lower16]
    case others =>
      intro g other
      simp [State.modSync_sync_other _ other]

end Sys2Proof.Machine
end
section
/-! What a bulk address is (spec/08_memory.md R181, R183): the channels of a context are distinct, the rotation of a row is a
bijection of its columns, and a row, a column and a byte of it make one key. -/

namespace Sys2Proof.Machine

/-! ### The channel list (R30, R181) -/

theorem bitsOf_nodup (n x : Nat) : (bitsOf n x).Nodup := List.nodup_range.filter _

/-- A partition has four channels, and no two partitions share one. -/
theorem State.chList_nodup (s : State) (c : Nat) : (s.chList c).Nodup := by
  refine List.pairwise_flatMap.2 ⟨fun g _ => by simp, (bitsOf_nodup _ _).imp fun {g h} other => ?_⟩
  simp only [List.mem_cons, List.not_mem_nil, or_false]
  omega

/-! ### The rotation of a row (R183) -/

theorem rotOf_eq (row C : Nat) :
    rotOf row C =
      (let x1 := (row ^^^ (row >>> 7)) * 0x2C1B3C6D % 2 ^ 32
       (x1 ^^^ (x1 >>> 16)) * C / 2 ^ 32) :=
  Nat.shiftRight_eq_div_pow _ _

/-- The hash is a 32-bit number, so that scaled to `C` it stays below `C`. -/
theorem rotOf_lt (row : Nat) {C : Nat} (pos : C ≠ 0) : rotOf row C < C := by
  rw [rotOf_eq]
  generalize (row ^^^ (row >>> 7)) * 0x2C1B3C6D = x
  have word : x % 2 ^ 32 < 2 ^ 32 := Nat.mod_lt _ (by decide)
  have hash : x % 2 ^ 32 ^^^ (x % 2 ^ 32) >>> 16 < 2 ^ 32 :=
    Nat.xor_lt_two_pow word (Nat.lt_of_le_of_lt (Nat.shiftRight_le _ _) word)
  refine (Nat.div_lt_iff_lt_mul (by decide)).2 ?_
  rw [Nat.mul_comm C]
  exact Nat.mul_lt_mul_of_pos_right hash (Nat.pos_of_ne_zero pos)

/-- Of two columns that a rotation brings to one place the first is no farther. -/
theorem rotate_le {C i j r : Nat} (hi : i < C) (same : (i + r) % C = (j + r) % C) : i ≤ j := by
  have whole : (i + r - (j + r)) % C = 0 := Nat.sub_mod_eq_zero_of_mod_eq same
  rw [Nat.add_sub_add_right, Nat.mod_eq_of_lt (by omega)] at whole
  omega

theorem rotate_injective {C i j r : Nat} (hi : i < C) (hj : j < C) (same : (i + r) % C = (j + r) % C) : i = j :=
  Nat.le_antisymm (rotate_le hi same) (rotate_le hj same.symm)

theorem rotate_surjective {C j r : Nat} (hj : j < C) (hr : r < C) : ∃ i, i < C ∧ (i + r) % C = j := by
  refine ⟨(j + (C - r)) % C, Nat.mod_lt _ (by omega), ?_⟩
  rw [Nat.mod_add_mod, Nat.add_assoc, Nat.sub_add_cancel (Nat.le_of_lt hr), Nat.add_mod_right, Nat.mod_eq_of_lt hj]

/-! ### Rows, columns and bytes -/

/-- The bytes of a space, by channels and by rows. -/
theorem space_bytes (C n : Nat) : C * n * 262144 = n * 1024 * C * 256 := by
  rw [Nat.mul_comm C n, Nat.mul_right_comm n 1024 C, Nat.mul_assoc _ 1024 256]

/-- Row, column and byte of an address lie in their ranges, and make the address again. -/
theorem place_of_addr {C n a : Nat} (inside : a < C * n * 262144) :
    a / 256 / C < n * 1024 ∧ a / 256 % C < C ∧ (a / 256 / C * C + a / 256 % C) * 256 + a % 256 = a := by
  have pos : 0 < C := Nat.pos_of_ne_zero fun zero => by simp [zero] at inside
  refine ⟨?_, Nat.mod_lt _ pos, ?_⟩
  · rw [Nat.div_lt_iff_lt_mul pos, Nat.div_lt_iff_lt_mul (by decide), ← space_bytes]
    exact inside
  · rw [Nat.div_add_mod', Nat.div_add_mod']

/-- The address of a row, a column and a byte lies in the space, and has them as its parts. -/
theorem addr_of_place {C n row col byte : Nat} (hr : row < n * 1024) (hc : col < C) (hb : byte < 256) :
    (row * C + col) * 256 + byte < C * n * 262144 ∧ ((row * C + col) * 256 + byte) / 256 / C = row ∧
      ((row * C + col) * 256 + byte) / 256 % C = col ∧ ((row * C + col) * 256 + byte) % 256 = byte := by
  have granule : ((row * C + col) * 256 + byte) / 256 = row * C + col := by omega
  refine ⟨?_, ?_, ?_, by omega⟩
  · have whole : (row + 1) * C ≤ n * 1024 * C := Nat.mul_le_mul_right _ hr
    rw [Nat.add_mul] at whole
    rw [space_bytes]
    omega
  · rw [granule, Nat.mul_comm, Nat.mul_add_div (Nat.zero_lt_of_lt hc), Nat.div_eq_of_lt hc, Nat.add_zero]
  · rw [granule, Nat.mul_comm, Nat.mul_add_mod, Nat.mod_eq_of_lt hc]

/-- A key names one channel and one offset inside it. -/
theorem bulkKey_injective {ch dh off pos : Nat} (ho : off < chanBytes) (hp : pos < chanBytes)
    (same : bulkKey ch off = bulkKey dh pos) : ch = dh ∧ off = pos := by
  unfold bulkKey chanBytes rowsPerChan at *
  omega

/-! ### The addresses of a context with a valid window (R183, R184) -/

section
variable {s : State} {c : Nat}

/-- The first row unit of a context's window. -/
def State.winBase (s : State) (c : Nat) : Nat := fld (s.memCtx c).win.v.toNat 17 9

/-- The row units of a context's window. -/
def State.winCount (s : State) (c : Nat) : Nat := fld (s.memCtx c).win.v.toNat 8 0

/-- The columns of a context's rows: one for each channel of its list. -/
def State.columns (s : State) (c : Nat) : Nat := (s.chList c).length

/-- The channel that a column of a context's row lies in. -/
def State.columnChan (s : State) (c row col : Nat) : Option Nat :=
  (s.chList c)[(col + rotOf row (s.columns c)) % s.columns c]?

/-- A row meets every channel of the list, in some column. -/
theorem State.exists_column {ch : Nat} (listed : ch ∈ s.chList c) (row : Nat) :
    ∃ col, col < s.columns c ∧ s.columnChan c row col = some ch := by
  obtain ⟨j, hj, there⟩ := List.getElem_of_mem listed
  obtain ⟨col, hc, turned⟩ := rotate_surjective (C := s.columns c) hj (rotOf_lt row (Nat.ne_zero_of_lt hj))
  exact ⟨col, hc, by rw [columnChan, turned, List.getElem?_eq_getElem hj, there]⟩

/-- In one row no two columns share a channel. -/
theorem State.columnChan_injective {row i j : Nat} (hi : i < s.columns c) (hj : j < s.columns c)
    (same : s.columnChan c row i = s.columnChan c row j) : i = j :=
  rotate_injective hi hj ((List.getElem?_inj (Nat.mod_lt _ (Nat.zero_lt_of_lt hi)) (s.chList_nodup c)).1 same)

/-- An address with a place lies in the space. -/
theorem State.lt_of_bulkLoc {a k : Nat} (located : s.bulkLoc c a = some k) : a < s.columns c * s.winCount c * 262144 := by
  refine Nat.lt_of_not_le fun outside => ?_
  have nowhere : s.bulkLoc c a = none := by
    rw [columns, winCount] at outside
    simp only [bulkLoc, if_pos outside, ite_self]
  rw [nowhere] at located
  cases located

variable (valid : bitOf (s.memCtx c).win.v.toNat 31 = true)
include valid

theorem State.bulkLoc_inside {a : Nat} (inside : a < s.columns c * s.winCount c * 262144) :
    ∃ ch, s.columnChan c (a / 256 / s.columns c) (a / 256 % s.columns c) = some ch ∧
      s.bulkLoc c a = some (bulkKey ch ((s.winBase c * 1024 + a / 256 / s.columns c) * 256 + a % 256)) := by
  have nonempty : s.columns c ≠ 0 := fun zero => by simp [zero] at inside
  have listed := List.getElem?_eq_getElem (l := s.chList c) (Nat.mod_lt
    (a / 256 % s.columns c + rotOf (a / 256 / s.columns c) (s.columns c)) (Nat.pos_of_ne_zero nonempty))
  refine ⟨_, listed, ?_⟩
  rw [columns] at nonempty inside listed
  rw [winCount] at inside
  simp only [bulkLoc, valid, beq_false_of_ne nonempty, Nat.not_le.2 inside, Bool.not_true, Bool.or_self, if_false, listed]
  rfl

/-- Where a byte of a column of a row lies. -/
theorem State.bulkLoc_place {row col byte ch : Nat} (hr : row < s.winCount c * 1024) (hc : col < s.columns c) (hb : byte < 256)
    (column : s.columnChan c row col = some ch) :
    (row * s.columns c + col) * 256 + byte < s.columns c * s.winCount c * 262144 ∧
      s.bulkLoc c ((row * s.columns c + col) * 256 + byte) = some (bulkKey ch ((s.winBase c * 1024 + row) * 256 + byte)) := by
  obtain ⟨inside, rowIs, colIs, byteIs⟩ := addr_of_place hr hc hb
  obtain ⟨dh, listed, located⟩ := State.bulkLoc_inside valid inside
  rw [rowIs, colIs, column] at listed
  cases listed
  exact ⟨inside, by rw [located, rowIs, byteIs]⟩

/-- In a window inside the channel two addresses never share a place. -/
theorem State.bulkLoc_injective (fits : s.winBase c + s.winCount c ≤ 384) {a b k : Nat} (ha : s.bulkLoc c a = some k)
    (hb : s.bulkLoc c b = some k) : a = b := by
  obtain ⟨rowA, colA, backA⟩ := place_of_addr (State.lt_of_bulkLoc ha)
  obtain ⟨rowB, colB, backB⟩ := place_of_addr (State.lt_of_bulkLoc hb)
  obtain ⟨chA, listedA, locatedA⟩ := State.bulkLoc_inside valid (State.lt_of_bulkLoc ha)
  obtain ⟨chB, listedB, locatedB⟩ := State.bulkLoc_inside valid (State.lt_of_bulkLoc hb)
  have key := Option.some.inj (locatedA.symm.trans (ha.trans (hb.symm.trans locatedB)))
  have channelSize : chanBytes = 384 * 1024 * 256 := rfl
  obtain ⟨channel, offset⟩ := bulkKey_injective (by omega) (by omega) key
  have byte : a % 256 = b % 256 := by omega
  have row : a / 256 / s.columns c = b / 256 / s.columns c := by omega
  have column : a / 256 % s.columns c = b / 256 % s.columns c := by
    rw [channel, ← listedB, row] at listedA
    exact State.columnChan_injective colA colB listedA
  rw [← backA, ← backB, row, column, byte]

/-- Every byte of the window in a channel of the list has an address. -/
theorem State.exists_address {ch off : Nat} (listed : ch ∈ s.chList c) (above : s.winBase c * 262144 ≤ off)
    (below : off < (s.winBase c + s.winCount c) * 262144) :
    ∃ a, a < s.columns c * s.winCount c * 262144 ∧ s.bulkLoc c a = some (bulkKey ch off) := by
  obtain ⟨col, hc, column⟩ := State.exists_column listed (off / 256 - s.winBase c * 1024)
  obtain ⟨inside, located⟩ := State.bulkLoc_place valid (by omega) hc (Nat.mod_lt off (by decide : 0 < 256)) column
  have offset : (s.winBase c * 1024 + (off / 256 - s.winBase c * 1024)) * 256 + off % 256 = off := by omega
  exact ⟨_, inside, by rw [located, offset]⟩

end

/-- Settles O52: an address is a row, a column and a byte; the rotation permutes the columns of a row, and the channels of the
list are distinct. -/
theorem bulkAddressesMapOneToOne : Obligations.BulkAddressesMapOneToOne := by
  refine ⟨fun row C => ⟨rotOf_eq row C, rotOf_lt row⟩, ?_⟩
  intro s c w chs C base count valid _ fits
  refine ⟨?place, ?injective, ?onto, ?row⟩
  case place => exact fun a inside => State.bulkLoc_inside valid inside
  case injective => exact fun a b k => State.bulkLoc_injective valid fits
  case onto => exact fun ch listed off above below => State.exists_address valid listed above below
  case row =>
    intro row hr ch listed
    obtain ⟨col, hc, column⟩ := State.exists_column listed row
    have located := (State.bulkLoc_place valid hr hc (by decide : 0 < 256) column).2
    rw [Nat.add_zero, Nat.add_zero] at located
    exact ⟨col, hc, located⟩

end Sys2Proof.Machine
end
section
/-! What the states of granules and lines do to accesses (spec/08_memory.md R184, R191, R192, R195, R196): the pair that holds a
state, a write inside one granule, and the reads that follow. -/

namespace Sys2Proof.Machine
variable {s : State}

/-! ### The stored pair (R191) -/

theorem State.granState_eq (s : State) (gk : Nat) :
    s.granState gk = if (s.granPair gk).n = ~~~(s.granPair gk).v then (s.granPair gk).v.toNat else 3 := by
  simp only [granState, Paired.ok, beq_iff_eq]

theorem State.granState_le (s : State) (gk : Nat) : s.granState gk ≤ 3 := by
  rw [granState_eq]
  split
  · exact Nat.le_of_lt_succ (s.granPair gk).v.isLt
  · exact Nat.le_refl 3

theorem State.granState_of_broken {gk : Nat} (broken : (s.granPair gk).n ≠ ~~~(s.granPair gk).v) : s.granState gk = 3 :=
  (s.granState_eq gk).trans (if_neg broken)

/-- States of granules are read from their table alone. -/
theorem State.granState_congr {t : State} (table : t.gran = s.gran) (gk : Nat) : t.granState gk = s.granState gk := by
  unfold granState granPair
  rw [table]

/-- A state other than unwritten is listed, so its pair reads back whatever the table held. -/
theorem State.setGran_granPair (s : State) (gk : Nat) {st : Nat} (set : 1 ≤ st) (small : st ≤ 3) :
    (s.setGran gk st).granPair gk = pairOf 2 st := by
  have listed : pairOf 2 st ≠ pairOf 2 0 := by
    intro zero
    have same : (pairOf 2 st).nat = (pairOf 2 0).nat := congrArg Paired.nat zero
    rw [pairOf_nat (by omega), pairOf_nat (by omega)] at same
    omega
  have table : (s.setGran gk st).gran = Tab.put s.gran gk (pairOf 2 0) (pairOf 2 st) := by
    unfold setGran
    dsimp only
    split
    · rfl
    · rfl
  rw [granPair, table, Tab.put, if_neg listed, Tab.get_set_same]

/-! ### A range inside one granule (R184) -/

/-- The bytes of a granule of a space: lines of 64 in cluster memory, granules of 256 in the bulk space. -/
def pieceSize (space : Nat) : Nat := if space = 1 then 64 else 256

theorem granPieces_single {space addr n : Nat} (nonempty : n ≠ 0)
    (one : addr / pieceSize space = (addr + n - 1) / pieceSize space) : granPieces space addr n = [(addr, n)] := by
  have pos : 0 < pieceSize space := by unfold pieceSize; split <;> decide
  have size : (if (space == 1) = true then 64 else 256) = pieceSize space := by simp only [pieceSize, beq_iff_eq]
  simp only [granPieces, beq_false_of_ne nonempty, size]
  generalize pieceSize space = size at pos one
  have low : addr / size * size ≤ addr := Nat.div_mul_le_self addr size
  have high : addr + n - 1 < addr / size * size + size := one ▸ Nat.lt_div_mul_add pos
  have piece : max addr (addr / size * size) = addr ∧ min (addr + n) ((addr / size + 1) * size) - addr = n := by
    rw [Nat.add_mul]
    omega
  simp only [← one, Nat.add_sub_cancel_left, List.range_one, List.map_singleton, Nat.add_zero, piece, Bool.false_eq_true, if_false]

theorem State.writeRange_single (ag : Agent) {space addr key : Nat} {bs : List Byte} (nonempty : bs ≠ [])
    (one : addr / pieceSize space = (addr + bs.length - 1) / pieceSize space)
    (located : s.locOf ag space addr = some key) (reachable : s.walled ag key = false) :
    s.writeRange ag space addr bs = (0, s.writeGran key bs) := by
  have bytes : slice bs 0 bs.length = bs := List.take_length
  rw [writeRange, granPieces_single (by simpa using nonempty) one]
  simp [located, reachable, bytes]

/-! ### A write that meets no checkpoint (R192, R314) -/

theorem State.cow_of_free {gk : Nat} (free : s.heldAt gk = none) : s.cow gk = s := by
  simp only [cow, free]

theorem State.cowFull_of_free {gk : Nat} (free : s.heldAt gk = none) : s.cowFull gk = false := by
  simp only [cowFull, free]

/-- The memory that the bytes of a write are laid on: a part write clears a granule that held no value. -/
def State.ground (s : State) (gk n : Nat) : List Host.Cell :=
  if n ≠ granSize gk ∧ (s.granState gk = 0 ∨ s.granState gk = 1) then Memory.putAll s.mem (granKey gk) (zeros (granSize gk))
  else s.mem

/-- The state that a write of `n` bytes gives a granule. -/
def State.stateWritten (s : State) (gk n : Nat) : Nat := if s.granState gk = 3 ∧ n ≠ granSize gk then 3 else 2

/-- Words waiting for write-back, those of a granule dropped. -/
def State.dropWriteBacks (s : State) (gk : Nat) : State :=
  { s with memc := { s.memc with writeBacks := s.memc.writeBacks.filter fun w => w.granule != gk } }

theorem State.writeGran_whole {key : Nat} {bs : List Byte} (free : s.heldAt (granOf key) = none)
    (whole : bs.length = granSize (granOf key)) :
    s.writeGran key bs =
      ({ s.dropWriteBacks (granOf key) with mem := Memory.putAll s.mem key bs }.clearEcc (granKey (granOf key) / 8)
        ((granKey (granOf key) + granSize (granOf key)) / 8)).setGran (granOf key) 2 := by
  unfold writeGran
  rw [cow_of_free free]
  simp only [whole, beq_self_eq_true]
  rfl

theorem State.writeGran_part {key : Nat} {bs : List Byte} (free : s.heldAt (granOf key) = none)
    (part : bs.length ≠ granSize (granOf key)) :
    ∃ ecc, let t := { s.dropWriteBacks (granOf key) with mem := Memory.putAll (s.ground (granOf key) bs.length) key bs, ecc := ecc }
      s.writeGran key bs = if s.granState (granOf key) = 3 then (if (s.granPair (granOf key)).ok then t else t.pairNote 3)
        else t.setGran (granOf key) 2 := by
  unfold writeGran ground
  rw [cow_of_free free]
  simp only [beq_false_of_ne part, part, ne_eq, not_false_eq_true, true_and, Bool.or_eq_true, beq_iff_eq]
  by_cases blank : s.granState (granOf key) = 0 ∨ s.granState (granOf key) = 1
  · simp only [blank, if_true]
    exact ⟨_, rfl⟩
  · simp only [blank, if_false]
    exact ⟨_, rfl⟩

theorem State.writeGran_mem {key : Nat} {bs : List Byte} (free : s.heldAt (granOf key) = none) :
    (s.writeGran key bs).mem = Memory.putAll (s.ground (granOf key) bs.length) key bs := by
  by_cases whole : bs.length = granSize (granOf key)
  · rw [writeGran_whole free whole, setGran_mem, ground, if_neg (fun h => h.1 whole)]
    rfl
  · obtain ⟨ecc, written⟩ := writeGran_part free whole
    rw [written]
    split
    · split
      · rfl
      · exact report_mem ..
    · exact setGran_mem ..

theorem State.writeGran_granState {key : Nat} {bs : List Byte} (free : s.heldAt (granOf key) = none) (q : Nat) :
    (s.writeGran key bs).granState q = if q = granOf key then s.stateWritten (granOf key) bs.length else s.granState q := by
  by_cases whole : bs.length = granSize (granOf key)
  · have becomes : s.stateWritten (granOf key) bs.length = 2 := if_neg fun h => h.2 whole
    rw [writeGran_whole free whole, becomes]
    exact granState_setGran _ _ _ _ (by decide) (by decide)
  obtain ⟨ecc, written⟩ := writeGran_part free whole
  rw [written]
  by_cases poisoned : s.granState (granOf key) = 3
  · have stays : s.stateWritten (granOf key) bs.length = s.granState (granOf key) := (if_pos ⟨poisoned, whole⟩).trans poisoned.symm
    have kept : (if q = granOf key then s.granState (granOf key) else s.granState q) = s.granState q :=
      ite_eq_right_iff.2 fun here => by rw [here]
    rw [if_pos poisoned, stays, kept]
    split
    · rfl
    · exact granState_congr (report_gran ..) q
  · have becomes : s.stateWritten (granOf key) bs.length = 2 := if_neg fun h => poisoned h.1
    rw [if_neg poisoned, becomes]
    exact granState_setGran _ _ _ _ (by decide) (by decide)

theorem Memory.get_putAll_zeros {m : List Host.Cell} (wf : Memory.wf m = true) {k base n : Nat} (low : base ≤ k) (high : k < base + n) :
    Memory.get (Memory.putAll m base (zeros n)) k = 0 := by
  have inside : k - base < (zeros n).length := by simp only [zeros, List.length_replicate]; omega
  have cell := Memory.get_putAll_inside wf base (k - base) (zeros n) inside
  simpa only [Nat.add_sub_cancel' low, zeros, List.getElem_replicate] using cell

section
variable (wf : Memory.wf s.mem = true) {gk n : Nat}
include wf

theorem State.ground_wf : Memory.wf (s.ground gk n) = true := by
  unfold ground
  split
  · exact Memory.wf_putAll wf _ _
  · exact wf

theorem State.ground_inside (part : n ≠ granSize gk) {k : Nat} (low : granKey gk ≤ k) (high : k < granKey gk + granSize gk) :
    Memory.get (s.ground gk n) k = if s.granState gk = 0 ∨ s.granState gk = 1 then 0 else Memory.get s.mem k := by
  unfold ground
  split
  · next blank => rw [if_pos blank.2, Memory.get_putAll_zeros wf low high]
  · next kept => rw [if_neg fun blank => kept ⟨part, blank⟩]

omit wf in
theorem State.ground_outside {k : Nat} (outside : k < granKey gk ∨ granKey gk + granSize gk ≤ k) :
    Memory.get (s.ground gk n) k = Memory.get s.mem k := by
  unfold ground
  split
  · exact Memory.get_putAll_other _ _ _ _ (by simpa only [zeros, List.length_replicate] using outside)
  · rfl

end

/-! ### Reads (R192, R195) -/

@[simp] theorem State.upset_nil (gk : Nat) : s.upset gk [] = s := rfl

theorem State.readGran_written {gk : Nat} (written : s.granState gk = 2) (clean : s.upsets gk = []) : s.readGran gk = (stOk, s) := by
  simp [readGran, written, clean, countCe]

theorem State.readGran_broken {gk : Nat} (broken : (s.granPair gk).n ≠ ~~~(s.granPair gk).v) :
    s.readGran gk = (stEcc, s.report 0 3 stPairBroken) := by
  have halves : (s.granPair gk).ok = false := beq_false_of_ne broken
  unfold readGran
  simp only [granState_of_broken broken, halves]
  rfl

/-- A write of a whole granule leaves no upset word in it. -/
theorem State.writeGran_upsets {key : Nat} {bs : List Byte} (free : s.heldAt (granOf key) = none)
    (whole : bs.length = granSize (granOf key)) : (s.writeGran key bs).upsets (granOf key) = [] := by
  have words : (granKey (granOf key) + granSize (granOf key)) / 8 = granKey (granOf key) / 8 + granSize (granOf key) / 8 := by
    unfold granSize
    split
    · omega
    · omega
  unfold upsets
  rw [writeGran_whole free whole, setGran_ecc]
  simp only [clearEcc, Tab.eraseRange, words, List.filter_filter, List.filter_eq_nil_iff, Bool.and_eq_true,
    Bool.or_eq_true, decide_eq_true_eq]
  omega

theorem execGranuleRead_outside {c g n unit space addr : Nat} {ups : List (Nat × Nat)}
    (nowhere : s.locOf (reqAgent c g n unit) space addr = none) :
    execGranuleRead c g n unit space addr ups s =
      .next ((s.memFault (reqAgent c g n unit) stOutOfWindow space addr).send (.data stOutOfWindow [])) := by
  simp only [execGranuleRead, nowhere]

theorem execGranuleRead_fenced {c g n unit space addr key : Nat} {ups : List (Nat × Nat)}
    (located : s.locOf (reqAgent c g n unit) space addr = some key) (fenced : s.walled (reqAgent c g n unit) key = true) :
    execGranuleRead c g n unit space addr ups s = .next ((s.wallFault (reqAgent c g n unit)).send (.data stFenced [])) := by
  simp only [execGranuleRead, located, fenced, if_true]

/-- What a read answers in a partition that is not fenced off. -/
theorem execGranuleRead_located {c g n unit space addr key : Nat} {ups : List (Nat × Nat)}
    (located : s.locOf (reqAgent c g n unit) space addr = some key) (reachable : s.walled (reqAgent c g n unit) key = false) :
    let r := (s.upset (granOf key) ups).readGran (granOf key)
    execGranuleRead c g n unit space addr ups s =
      .next (if r.1 = stOk then
          r.2.send (.data stOk ((List.range (granSize (granOf key))).map fun i => r.2.peek (granKey (granOf key) + i)))
        else (r.2.memFault (reqAgent c g n unit) r.1 space addr).send (.data r.1 [])) := by
  simp only [execGranuleRead, located, reachable, Bool.false_eq_true, if_false]
  exact ite_next_of_iff beq_iff_eq rfl

/-! ### The write command (R192, R286, R314) -/

/-- The first granule of a write that must wait for a granule of its checkpoint's pool. -/
def State.poolWait (s : State) (c space addr n : Nat) : Option Nat :=
  if space == 0 then ((granPieces 0 addr n).filterMap fun p => (s.bulkLoc c p.1).map granOf).find? s.cowFull else none

theorem execGranuleWrite_eq (c g n unit space addr : Nat) (bytes : List Byte) :
    execGranuleWrite c g n unit space addr bytes s =
      .next (if space = 0 ∧ s.locked c addr bytes.length = true then s
        else (s.poolWait c space addr bytes.length).elim (s.writeRange (reqAgent c g n unit) space addr bytes).2 s.urge) := by
  have waits : (space == 0 && s.locked c addr bytes.length) = true ↔ space = 0 ∧ s.locked c addr bytes.length = true := by
    simp only [Bool.and_eq_true, beq_iff_eq]
  refine ite_next_of_iff waits ?_
  unfold State.poolWait
  by_cases bulk : (space == 0) = true
  · simp only [bulk, if_true]
    cases List.find? s.cowFull _ with
    | none => rfl
    | some gk => rfl
  · simp only [bulk]
    rfl

theorem State.poolWait_single {c g n unit space addr key len : Nat} (nonempty : len ≠ 0) (free : s.heldAt (granOf key) = none)
    (located : s.locOf (reqAgent c g n unit) space addr = some key)
    (one : addr / pieceSize space = (addr + len - 1) / pieceSize space) :
    s.poolWait c space addr len = none := by
  unfold poolWait
  split
  · next bulk =>
    obtain rfl := eq_of_beq bulk
    have place : s.bulkLoc c addr = some key := (if_neg (by decide)).symm.trans located
    simp [granPieces_single nonempty one, place, cowFull_of_free free]
  · rfl

/-- An access to memory cuts no partition off. -/
theorem MemOnly.walled {t : State} (access : MemOnly s t) (ag : Agent) (key : Nat) : t.walled ag key = s.walled ag key := by
  rw [access]
  rfl

theorem State.writeGran_locOf {key : Nat} {bs : List Byte} (free : s.heldAt (granOf key) = none)
    (whole : bs.length = granSize (granOf key)) (ag : Agent) (space addr : Nat) :
    (s.writeGran key bs).locOf ag space addr = s.locOf ag space addr := by
  rw [writeGran_whole free whole, locOf_setGran]
  rfl

/-- The bytes of a written granule, as a read finds them. -/
theorem State.peek_written {gk : Nat} (written : s.granState gk = 2) {bs : List Byte} (size : bs.length = granSize gk)
    (cells : ∀ i, ∀ h : i < bs.length, Memory.get s.mem (granKey gk + i) = bs[i]) :
    ((List.range (granSize gk)).map fun i => s.peek (granKey gk + i)) = bs := by
  refine List.ext_getElem (by simp [size]) fun i hi hj => ?_
  rw [List.getElem_map, List.getElem_range, peek, granOf_granKey_add gk i (size ▸ hj), written]
  exact cells i hj

theorem execGranuleRead_written {c g n unit space addr key : Nat} {bs : List Byte}
    (located : s.locOf (reqAgent c g n unit) space addr = some key) (reachable : s.walled (reqAgent c g n unit) key = false)
    (written : s.granState (granOf key) = 2) (clean : s.upsets (granOf key) = []) (size : bs.length = granSize (granOf key))
    (cells : ∀ i, ∀ h : i < bs.length, Memory.get s.mem (granKey (granOf key) + i) = bs[i]) :
    execGranuleRead c g n unit space addr [] s = .next (s.send (.data stOk bs)) := by
  have run := execGranuleRead_located (ups := []) located reachable
  rw [State.upset_nil, State.readGran_written written clean] at run
  rw [run, if_pos rfl, State.peek_written written size cells]

/-- Settles O60: the stored pair decides the state, and a broken one takes the read's branch of a poisoned granule. -/
theorem brokenGranuleStatesReadAsPoisoned : Obligations.BrokenGranuleStatesReadAsPoisoned := by
  refine ⟨fun s gk => ⟨s.granState_le gk, s.granState_eq gk⟩, fun s gk st set small => ?stored, ?read⟩
  case stored =>
    rw [s.setGran_granPair gk set small]
    exact ⟨pairOf_nat (by omega), rfl⟩
  case read =>
    intro s c g n unit space addr key located reachable broken
    have run := execGranuleRead_located (ups := []) located reachable
    rw [State.upset_nil, State.readGran_broken broken] at run
    exact run

/-- Settles O23: the write is one piece, which writes its granule; what the granule then holds is what the read sends. -/
theorem granuleWritesFollowTheStateTable : Obligations.GranuleWritesFollowTheStateTable := by
  intro s c g n unit space addr key bs wf nonempty _ unlocked free located reachable one low high
  have someByte : bs.length ≠ 0 := by simpa using nonempty
  have run : exec (.granuleWrite c g n unit space addr bs) s = .next (s.writeGran key bs) := by
    have unlocked' : ¬(space = 0 ∧ s.locked c addr bs.length = true) := fun h => by simp [unlocked h.1] at h
    refine (execGranuleWrite_eq c g n unit space addr bs).trans ?_
    rw [if_neg unlocked', State.poolWait_single someByte free located one, State.writeRange_single _ nonempty one located reachable]
    rfl
  have cells (i : Nat) (h : i < bs.length) : Memory.get (s.writeGran key bs).mem (key + i) = bs[i] := by
    rw [State.writeGran_mem free, Memory.get_putAll_inside (State.ground_wf wf) key i bs h]
  have others {k : Nat} (outside : k < key ∨ key + bs.length ≤ k) :
      Memory.get (s.writeGran key bs).mem k = Memory.get (s.ground (granOf key) bs.length) k := by
    rw [State.writeGran_mem free, Memory.get_putAll_other _ _ _ _ outside]
  refine ⟨_, run, s.writeGran_within key bs, cells, ?rest, ?outside, State.writeGran_granState free, ?readBack⟩
  case rest =>
    intro k low' high' outside
    rw [others outside, State.ground_inside wf (by omega) low' high']
  case outside =>
    intro k outside
    rw [others (by omega), State.ground_outside outside]
  case readBack =>
    intro whole
    have start : granKey (granOf key) = key := by omega
    have becomes : (s.writeGran key bs).granState (granOf key) = 2 := by
      rw [State.writeGran_granState free, if_pos rfl]
      exact if_neg fun h => h.2 whole
    exact execGranuleRead_written ((State.writeGran_locOf free whole ..).trans located)
      (((s.writeGran_within key bs).walled ..).trans reachable) becomes (State.writeGran_upsets free whole) whole (start.symm ▸ cells)

end Sys2Proof.Machine
end
section
/-! The commands of memory: windows, reads, write-back, writes and scrub (spec/08_memory.md R182, R184, R192, R193, R196, R197),
the Retriever's descriptors and the acceptance of its units (R199, R200), and the traffic generator (R202 to R204). -/

namespace Sys2Proof.Machine
variable {s : State}

/-! ### Windows, write-back and scrub -/

theorem execWindowWrite_accepted {c value : Nat} (accepted : s.windowRefusal c (winMask value) = none) :
    let s0 := { s with loader := if s.loader.busy == some c then { s.loader with winChanged := true } else s.loader }
    let s1 := s0.modMemCtx c fun m => { m with win := pairOf 32 (winMask value) }
    execWindowWrite c value s =
      .next (if bitOf (winMask value) 31 then s1.clearRows (s1.chList c) (fld (winMask value) 17 9) (fld (winMask value) 8 0) else s1) := by
  have noted : (if s.loader.busy == some c then { s with loader := { s.loader with winChanged := true } } else s) =
      { s with loader := if s.loader.busy == some c then { s.loader with winChanged := true } else s.loader } := by
    split <;> rfl
  simp only [execWindowWrite, accepted, noted]

theorem execWindowWrite_refused {c value st : Nat} (refused : s.windowRefusal c (winMask value) = some st) :
    execWindowWrite c value s =
      .next { s with memc := { s.memc with winRefused := true, lastRefusal := st, refusedCtx := c % 1024 } } := by
  simp only [execWindowWrite, refused]

theorem execScrubAccess_line {idx bank at_ : Nat} (ups : List (Nat × Nat)) (enabled : s.memc.cmEn = true) (small : bank < 8) :
    execScrubAccess true idx bank at_ ups s =
      .next (if (((s.clu idx).scrubClk[bank]?).getD 0) + s.memc.interval ≤ (s.atClk at_).clk then (s.atClk at_).scrubLine idx bank ups
        else s.atClk at_) := by
  unfold execScrubAccess
  simp only [if_true, State.atClk_memc, enabled, small, decide_true, Bool.true_and]
  exact ite_next_of_iff decide_eq_true_iff rfl

theorem execScrubAccess_bulk {idx bank at_ : Nat} (ups : List (Nat × Nat)) (enabled : s.memc.bulkEn = true) :
    execScrubAccess false idx bank at_ ups s =
      .next (if (s.chan idx).scrubClk + s.memc.interval ≤ (s.atClk at_).clk then (s.atClk at_).scrubBulk idx ups
        else s.atClk at_) := by
  unfold execScrubAccess
  simp only [Bool.false_eq_true, if_false, State.atClk_memc, enabled, Bool.true_and]
  exact ite_next_of_iff decide_eq_true_iff rfl

/-- Settles O22, command by command: each premise decides one branch of its command. -/
theorem memoryCommandsAct : Obligations.MemoryCommandsAct := by
  refine ⟨?accepted, ?refused, ?read, ?writeBack, ?write, ?line, ?bulk⟩
  case accepted => exact fun s c value => execWindowWrite_accepted
  case refused => exact fun s c value st => execWindowWrite_refused
  case read =>
    intro s c g n unit space addr ups ag
    exact ⟨execGranuleRead_outside, fun key => execGranuleRead_fenced, fun key located reachable =>
      ⟨State.readGran_within _ _, execGranuleRead_located located reachable⟩⟩
  case writeBack =>
    intro s cm idx w first
    show execEccWriteback cm idx s = _
    simp only [execEccWriteback, first]
    exact ite_next_of_iff beq_iff_eq rfl
  case write =>
    intro s c g n unit space addr bytes
    refine (execGranuleWrite_eq c g n unit space addr bytes).trans ?_
    unfold State.poolWait
    generalize (if (space == 0) = true then List.find? _ _ else none) = held
    cases held with
    | none => rfl
    | some gk => rfl
  case line => exact fun s idx bank at_ ups enabled small => execScrubAccess_line ups enabled small
  case bulk => exact fun s idx bank at_ ups enabled => execScrubAccess_bulk (bank := bank) ups enabled

/-! ### The Retriever (R199, R200) -/

@[simp] theorem State.atClk_mayIssue (at_ g : Nat) : (s.atClk at_).mayIssue g = s.mayIssue g := rfl
@[simp] theorem State.atClk_clu (at_ k : Nat) : (s.atClk at_).clu k = s.clu k := rfl

/-- A unit's port cannot take it, or its range is locked (R286, R402). -/
def State.unitWaits (s : State) (c qp : Nat) (u : UnitW) : Bool :=
  !s.canWrite u.space qp || (u.space == 0 && s.locked c u.addr u.bytes.length)

/-- The state once a unit was written: its progress word is written, and the unit taken from its transfer. -/
def State.unitDone (s : State) (g n : Nat) (ag : Agent) (r : Run) (u : UnitW) (us : List UnitW) : State :=
  let d : RetD := ⟨r.rec_⟩
  let prog := r.prog + b2n u.counts
  let s1 := (s.writeProg ag d.progCm prog).progress g
  (if u.space == 3 then s1.qpHeard d.qp else s1).modRunOf (18 * g + n) r.idx fun x => { x with
    units := us, prog := prog, finished := x.issued && us.isEmpty }

section
variable {g n at_ c : Nat} {r : Run} (issues : s.mayIssue g = some c)
include issues

/-- A copy between memories denies no port, and reads all its rows at once. -/
theorem execRetrieverCopy_memory (begins : (s.clu (18 * g + n)).descriptor 0 = some r) (dst : (⟨r.rec_⟩ : RetD).dstSpace < 2)
    (src : (⟨r.rec_⟩ : RetD).srcSpace < 2) : execRetrieverCopy g n at_ s = .next ((s.atClk at_).retrieverCopy c g n r) := by
  simp only [execRetrieverCopy, State.atClk_mayIssue, State.atClk_clu, issues, begins, if_neg (Nat.not_le.2 dst),
    if_neg (Nat.not_le.2 src)]
  rfl

/-- A copy from a port that does not deny it sends its first requests. -/
theorem execRetrieverCopy_port (begins : (s.clu (18 * g + n)).descriptor 0 = some r) (dst : (⟨r.rec_⟩ : RetD).dstSpace < 2)
    (src : 2 ≤ (⟨r.rec_⟩ : RetD).srcSpace) (granted : (s.atClk at_).portDeny c (⟨r.rec_⟩ : RetD).srcSpace (⟨r.rec_⟩ : RetD).qp = 0) :
    execRetrieverCopy g n at_ s = .next ((((s.atClk at_).beginRet c g n r).modRunOf (18 * g + n) r.idx fun y =>
      { y with aux := [0, 0, 0, 0, 0] }).pumpPorts) := by
  simp only [execRetrieverCopy, State.atClk_mayIssue, State.atClk_clu, issues, begins, if_neg (Nat.not_le.2 dst), if_pos src, granted]
  rfl

theorem execRetrieverFillZeros_begins (begins : (s.clu (18 * g + n)).descriptor 1 = some r) :
    let d : RetD := ⟨r.rec_⟩
    execRetrieverFillZeros g n at_ s =
      .next (((s.atClk at_).beginRet c g n r).giveUnits (18 * g + n) r.idx ((List.range d.rows).flatMap fun row =>
        unitsOf d.dstSpace ((s.atClk at_).retAddr c g n r.rep d.dstSpace (d.dst + row * d.dstPitch)) (zeros (d.rowUnits * 64)) true) 0) := by
  simp only [execRetrieverFillZeros, State.atClk_mayIssue, State.atClk_clu, issues, begins]

theorem execRetrieverDefineZero_begins (begins : (s.clu (18 * g + n)).descriptor 2 = some r) :
    execRetrieverDefineZero g n at_ s = .next ((s.atClk at_).retState c g n 1 r) := by
  simp only [execRetrieverDefineZero, State.atClk_mayIssue, State.atClk_clu, issues, begins]

theorem execRetrieverInvalidate_begins (begins : (s.clu (18 * g + n)).descriptor 3 = some r) :
    execRetrieverInvalidate g n at_ s = .next ((s.atClk at_).retState c g n 0 r) := by
  simp only [execRetrieverInvalidate, State.atClk_mayIssue, State.atClk_clu, issues, begins]

section
variable {u : UnitW} {us : List UnitW}
  (oldest : ((s.clu (18 * g + n)).runs.find? fun r => recKind r.rec_ == 3 && !r.units.isEmpty) = some r) (units : r.units = u :: us)
include oldest units

theorem execUnitAccept_waits (waits : (s.atClk at_).unitWaits c (⟨r.rec_⟩ : RetD).qp u = true) :
    execUnitAccept g n at_ s = .next (s.atClk at_) := by
  rw [State.unitWaits] at waits
  simp only [execUnitAccept, State.atClk_mayIssue, State.atClk_clu, issues, oldest, units, waits, if_true]

/-- A unit that need not wait is written; a status of the write ends the run. -/
theorem execUnitAccept_takes (goes : (s.atClk at_).unitWaits c (⟨r.rec_⟩ : RetD).qp u = false)
    (room : u.space = 0 → ∀ key, (s.atClk at_).bulkLoc c u.addr = some key → (s.atClk at_).cowFull (key / 256) = false) :
    let w := (s.atClk at_).takeUnit (retAgent c g n r) (⟨r.rec_⟩ : RetD).qp u
    execUnitAccept g n at_ s =
      .next (if w.1 ≠ 0 then w.2.endRun (18 * g + n) r.idx w.1 else w.2.unitDone g n (retAgent c g n r) r u us) := by
  have notFull : (if (u.space == 0) = true then match (s.atClk at_).bulkLoc c u.addr with
      | some key => (s.atClk at_).cowFull (key / 256)
      | none => false
      else false) = false := by
    split
    · next bulk =>
      split
      · next key located => exact room (eq_of_beq bulk) key located
      · rfl
    · rfl
  rw [State.unitWaits] at goes
  simp only [execUnitAccept, State.atClk_mayIssue, State.atClk_clu, issues, oldest, units, goes, Bool.false_eq_true, if_false]
  exact (if_neg (ne_true_of_eq_false notFull)).trans (ite_next_of_iff bne_iff_ne rfl)

end
end

/-- Settles O24, descriptor by descriptor, and the oldest transfer's next unit by whether it must wait. -/
theorem retrieverTransfersRunToTheirProgressWord : Obligations.RetrieverTransfersRunToTheirProgressWord := by
  intro s g n at_ c issues s1 k
  refine ⟨?copy, ?fill, ?defineZero, ?invalidate, ?accept⟩
  case copy => exact fun r begins => ⟨execRetrieverCopy_memory issues begins, execRetrieverCopy_port issues begins⟩
  case fill => exact fun r begins => execRetrieverFillZeros_begins issues begins
  case defineZero => exact fun r begins => execRetrieverDefineZero_begins issues begins
  case invalidate => exact fun r begins => execRetrieverInvalidate_begins issues begins
  case accept =>
    exact fun r u us oldest units => ⟨execUnitAccept_waits issues oldest units, execUnitAccept_takes issues oldest units⟩

/-! ### The traffic generator (R202 to R204) -/

/-- A choice by a test is the choice by what the test decides. -/
theorem ite_of_iff {α : Type} {b : Bool} {chosen : Prop} [Decidable chosen] (test : b = true ↔ chosen) (x y : α) :
    (if b = true then x else y) = if chosen then x else y :=
  ite_congr (propext test) (fun _ => rfl) fun _ => rfl

/-- Settles O25: each command is one conditional over its generator's registers. -/
theorem trafficGeneratorRunsAndStops : Obligations.TrafficGeneratorRunsAndStops := by
  refine ⟨fun s ch fails => ⟨?refused, ?started⟩, fun s ch => rfl, ?ended⟩
  case refused => exact fun refused => if_pos refused
  case started =>
    intro accepted t s1 s2
    refine (if_neg (ne_true_of_eq_false accepted)).trans ?_
    exact congrArg _ (ite_of_iff beq_iff_eq _ _)
  case ended =>
    intro s ch fails busy t s1
    show execTgRunEnd ch fails s = _
    have compared : (if ((s.chan ch).tg.mode == 0) = true then s.tgFails ch fails else s) = if t.mode = 0 then s.tgFails ch fails else s :=
      ite_of_iff beq_iff_eq _ _
    simp only [execTgRunEnd, busy, compared, Bool.not_true, Bool.false_eq_true, if_false]
    exact congrArg _ (ite_of_iff bne_iff_ne _ _)

end Sys2Proof.Machine
end
section
/-! The census and the fences of partitions, command by command (spec/09_sync_objects_and_conservation.md R211, R216 to R218,
R221; spec/17_partitions_reset_and_recovery.md R368, R371, R372, R374, R375, R384). -/

namespace Sys2Proof.Machine
variable {s : State}

/-! ### The census commands (R216, R221) -/

@[simp] theorem State.atClk_stepOver (at_ c : Nat) : (s.atClk at_).stepOver c = s.stepOver c := rfl

theorem execStepBoundaryCensus_over {c : Nat} (at_ : Nat) (ended : s.stepOver c = true) :
    let r := (s.atClk at_).takeCensus c true
    let s1 := r.2.atClk ((s.atClk at_).clk + 289)
    execStepBoundaryCensus c at_ s = .next (if r.1 = true then s1.barrier c else s1) := by
  simp only [execStepBoundaryCensus, State.atClk_stepOver, ended, Bool.not_true, Bool.false_eq_true, if_false]

theorem execStepBoundaryCensus_notOver {c : Nat} (at_ : Nat) (notOver : s.stepOver c = false) :
    execStepBoundaryCensus c at_ s = .next (s.atClk at_) := by
  simp only [execStepBoundaryCensus, State.atClk_stepOver, notOver, Bool.not_false, if_true]

/-- The state in which a census command has named its context. -/
def State.censusNamed (s : State) (c : Nat) : State := { s with sync := { s.sync with cmdCtx := c } }

/-- The state in which a census command holds the block up to a clock, its census passed or not. -/
def State.censusHeld (s : State) (ok : Bool) (until_ : Nat) : State :=
  { s with sync := { s.sync with lastStatus := if ok then stOk else stCensus, busyTo := until_ } }

/-- The state in which a census command is refused. -/
def State.censusRefused (s : State) : State := { s with sync := { s.sync with cmdRefused := true } }

theorem execSyncCensus_eq (c : Nat) :
    let r := (s.censusNamed c).takeCensus c false
    execSyncCensus c s =
      .next (if s.syncRefused c = true then (s.censusNamed c).censusRefused else r.2.censusHeld r.1 (s.clk + 289)) :=
  (apply_ite Host.Outcome.next ..).symm

theorem execSyncReseed_eq (c : Nat) :
    let r := (s.censusNamed c).takeCensus c false
    execSyncReseed c s =
      .next (if s.syncRefused c = true then (s.censusNamed c).censusRefused
        else (r.2.reseedAll c).censusHeld r.1 (s.clk + 545)) :=
  (apply_ite Host.Outcome.next ..).symm

/-- Settles O27: whether the step is over, and whether a census command is refused, decides. -/
theorem censusAndReseedCommandsRun : Obligations.CensusAndReseedCommandsRun := by
  refine ⟨fun s c at_ => execStepBoundaryCensus_over at_, fun s c at_ => execStepBoundaryCensus_notOver at_,
    fun s c => ⟨fun accepted => ⟨?census, ?reseed⟩, fun refused i command => ?refused⟩⟩
  case census => exact (execSyncCensus_eq c).trans (congrArg _ (if_neg (ne_true_of_eq_false accepted)))
  case reseed => exact (execSyncReseed_eq c).trans (congrArg _ (if_neg (ne_true_of_eq_false accepted)))
  case refused =>
    simp only [List.mem_cons, List.not_mem_nil, or_false] at command
    rcases command with rfl | rfl
    · exact (execSyncCensus_eq c).trans (congrArg _ (if_pos refused))
    · exact (execSyncReseed_eq c).trans (congrArg _ (if_pos refused))

/-! ### Fences (R371, R372) -/

theorem State.fence_of_cutOff {g : Nat} (cause : Nat) (off : s.cutOff g = true) : s.fence g cause = s := if_pos off

/-- What a fence drops in a partition after its context has stopped. -/
def State.cutDown (s : State) (g : Nat) : State :=
  let s1 := ((s.abandon g).fenceCobblers g).modMon g fun m => { m with quiet := 0, hangTold := false }
  { s1 with gov := { s1.gov with ballastCtx := none } }

theorem State.cutPart_of_resident {g c : Nat} (cause : Nat) (resident : s.residentOf g = some c) :
    let t1 := s.modCtl g fun p => { p with state := 1, cause := cause, fences := satAdd 0xFFFF p.fences 1, fenceClk := s.clk }
    s.cutPart g cause = (t1.stopCtx c).cutDown g := by
  simp only [State.cutPart, State.cutDown, resident]

theorem State.cutPart_of_noResident {g : Nat} (cause : Nat) (nobody : s.residentOf g = none) :
    let t1 := s.modCtl g fun p => { p with state := 1, cause := cause, fences := satAdd 0xFFFF p.fences 1, fenceClk := s.clk }
    s.cutPart g cause = t1.cutDown g := by
  simp only [State.cutPart, State.cutDown, nobody]

section
variable {g : Nat} (running : s.cutOff g = false)
include running

theorem State.fence_eq_cutPart (cause : Nat) : s.fence g cause = (s.cutPart g cause).endFenced g :=
  if_neg (ne_true_of_eq_false running)

theorem State.fence_of_resident (cause : Nat) {c : Nat} (resident : s.residentOf g = some c) :
    let t1 := s.modCtl g fun p => { p with state := 1, cause := cause, fences := satAdd 0xFFFF p.fences 1, fenceClk := s.clk }
    s.fence g cause = ((t1.stopCtx c).cutDown g).endFenced g := by
  rw [State.fence_eq_cutPart running, State.cutPart_of_resident cause resident]

theorem State.fence_of_noResident (cause : Nat) (nobody : s.residentOf g = none) :
    let t1 := s.modCtl g fun p => { p with state := 1, cause := cause, fences := satAdd 0xFFFF p.fences 1, fenceClk := s.clk }
    s.fence g cause = (t1.cutDown g).endFenced g := by
  rw [State.fence_eq_cutPart running, State.cutPart_of_noResident cause nobody]

end

/-! ### Hangs (R368) -/

/-- The hang of a partition counted and reported. -/
def State.hangReported (s : State) (g : Nat) : State :=
  (s.modMon g fun m => { m with hangs := satAdd 0xFFFF m.hangs 1, hangTold := true }).report 2 0
    (openStatus 0) g ((s.residentOf g).getD noCtx) (s.hangDetail g).1 (s.hangDetail g).2

section
variable {g : Nat} (at_ : Nat) (armed : (s.part g).mon.hangTicks ≠ 0) (reached : (s.part g).mon.hangTicks ≤ (s.part g).mon.quiet)
  (untold : (s.part g).mon.hangTold = false) (running : s.cutOff g = false)
include armed reached untold running

/-- The guard of a hang, as the command tests it. -/
theorem State.hang_due : ¬ ((s.part g).mon.hangTicks == 0 || decide ((s.part g).mon.quiet < (s.part g).mon.hangTicks) ||
    (s.part g).mon.hangTold || s.cutOff g) = true := by
  simp only [beq_false_of_ne armed, Nat.not_lt.2 reached, untold, running, decide_false, Bool.or_self, Bool.false_eq_true,
    not_false_eq_true]

theorem execHangDetected_goesOn (action : (s.part g).mon.hangAction = 0) :
    execHangDetected g at_ s = .next ((s.atClk at_).hangReported g) := by
  refine (if_neg (State.hang_due armed reached untold running)).trans ?_
  simp only [State.atClk_part, action]
  rfl

theorem execHangDetected_fences (action : (s.part g).mon.hangAction = 1) :
    execHangDetected g at_ s = .next (((s.atClk at_).hangReported g).fence g 1) := by
  refine (if_neg (State.hang_due armed reached untold running)).trans ?_
  simp only [State.atClk_part, action]
  rfl

theorem execHangDetected_stops (action : (s.part g).mon.hangAction = 2) {c : Nat} (resident : s.residentOf g = some c) :
    execHangDetected g at_ s = .next (((s.atClk at_).hangReported g).stopCtx c) := by
  refine (if_neg (State.hang_due armed reached untold running)).trans ?_
  simp only [State.atClk_part, action]
  show Host.Outcome.next (match s.residentOf g with
    | some c => ((s.atClk at_).hangReported g).stopCtx c
    | none => (s.atClk at_).hangReported g) = _
  rw [resident]

end

/-! ### The drain and its limit (R218, R372) -/

/-- The books of a partition's resident context settled, where there is one. -/
def State.settleResident (s : State) (g : Nat) : Bool × State :=
  match s.residentOf g with
  | some c => s.settle c
  | none => (true, s)

/-- The partition fenced after its drain, its books settled or not, and the fence reported. -/
def State.fenced (s : State) (g : Nat) : State :=
  let st := s.settleResident g
  let t := st.2.modCtl g fun p => { p with state := 2, settleFailed := !st.1 }
  t.report t.cutSeverity 0 (fenceStatus (s.part g).ctl.cause st.1) g ((s.residentOf g).getD noCtx) 0 (at' (s.part g).ctl.cause 28)

/-- The reset that has waited for the drain, begun. -/
def State.resetWaited (s : State) (g : Nat) (full settled : Bool) : State :=
  (s.resetPhase2 g).modCtl g fun q => { q with
    resetAfter := none, fullSearch := full, resets := satAdd 0xFFFF q.resets 1, resetResult := if settled then 0 else 3 }

/-- The open reads of a partition quarantined, and counted. -/
def State.quarantineReads (s : State) (g : Nat) : State :=
  { s with tags := s.tags.map fun (t : PortTag) =>
      if t.g == g && !t.quarantined then { t with quarantined := true, held := true } else t }.modCtl g
    fun p => { p with quarantined := satAdd 0xFFFF p.quarantined (s.openTags g).length }

section
variable {g : Nat} (at_ : Nat) (drains : (s.part g).ctl.state = 1)
include drains

theorem execFenceDrainComplete_done (home : (s.part g).sync.out.nat = 0) (closed : s.openTags g = []) :
    execFenceDrainComplete g at_ s = .next (match (s.part g).ctl.resetAfter with
      | some full => ((s.atClk at_).fenced g).resetWaited g full ((s.atClk at_).settleResident g).1
      | none => (s.atClk at_).fenced g) := by
  have done : ¬ ((s.part g).ctl.state != 1 || (s.part g).sync.out.nat != 0 || !(s.openTags g).isEmpty) = true := by
    rw [drains, home, closed]
    decide
  refine (if_neg done).trans ?_
  rw [State.atClk_part]
  cases (s.part g).ctl.resetAfter <;> rfl

theorem execDrainLimitExpire_draining :
    execDrainLimitExpire g at_ s =
      .next (if (s.atClk at_).clk < (s.part g).ctl.fenceClk + s.partRegs.drainLimit * 1100 then s.atClk at_
        else (s.atClk at_).quarantineReads g) := by
  have early : ((s.part g).ctl.state != 1 || decide ((s.atClk at_).clk < (s.part g).ctl.fenceClk + s.partRegs.drainLimit * 1100)) = true ↔
      (s.atClk at_).clk < (s.part g).ctl.fenceClk + s.partRegs.drainLimit * 1100 := by
    simp only [drains, bne_self_eq_false, Bool.false_or, decide_eq_true_eq]
  exact ite_next_of_iff early rfl

end

/-! ### The reset command (R374, R384) -/

/-- The registers of a reset command written. -/
def State.resetNamed (s : State) (g : Nat) (full : Bool) : State :=
  { s with partRegs := { s.partRegs with gpart := g, fullSearch := full, lastStatus := stOk } }

/-- A reset of the partition waits for its drain. -/
def State.resetWaits (s : State) (g : Nat) (full : Bool) (clk : Nat) : State :=
  s.modCtl g fun p => { p with resetAfter := some full, resetClk := clk, phase := 1 }

/-- A reset of the partition begins at once. -/
def State.resetBegins (s : State) (g : Nat) (full : Bool) (clk : Nat) : State :=
  (s.resetPhase2 g).modCtl g fun p => { p with
    fullSearch := full, resetClk := clk, resets := satAdd 0xFFFF p.resets 1, resetResult := if p.settleFailed then 3 else 0 }

section
variable {g : Nat} (full : Bool) (at_ : Nat)

theorem execPartReset_running (running : (s.part g).ctl.state = 0) :
    execPartReset g full at_ s =
      .next ((((s.atClk at_).resetNamed g full).fence g 5).resetWaits g full (s.atClk at_).clk) := by
  simp only [execPartReset, State.atClk_part, running]
  rfl

theorem execPartReset_draining (draining : (s.part g).ctl.state = 1) :
    execPartReset g full at_ s = .next (((s.atClk at_).resetNamed g full).resetWaits g full (s.atClk at_).clk) := by
  simp only [execPartReset, State.atClk_part, draining]
  rfl

theorem execPartReset_resetting (resetting : (s.part g).ctl.state = 3) :
    let t := (s.atClk at_).resetNamed g full
    execPartReset g full at_ s = .next { t with partRegs := { t.partRegs with cmdRefused := true, refuseReason := 5 } } := by
  simp only [execPartReset, State.atClk_part, resetting]
  rfl

theorem execPartReset_cut (cut : (s.part g).ctl.state = 2 ∨ (s.part g).ctl.state = 4) :
    execPartReset g full at_ s = .next (((s.atClk at_).resetNamed g full).resetBegins g full (s.atClk at_).clk) := by
  rcases cut with cut | cut
  all_goals
    simp only [execPartReset, State.atClk_part, cut]
    rfl

end

/-! ### The phases of a reset (R374, R375) -/

/-- How long a reset has taken, in ms. -/
def State.resetMs (s : State) (g : Nat) : Nat := (s.clk - (s.part g).ctl.resetClk) / 1100000

/-- A reset that failed with a result. -/
def State.resetFailed (s : State) (g r : Nat) : State :=
  (s.modCtl g fun p => { p with
    state := 4, resetResult := r, phase := 0, lastResetMs := min 0xFFFF (s.resetMs g) }).tellReset g r

/-- The last phase of a reset over, its partition running. -/
def State.resetDone (s : State) (g : Nat) : State :=
  let t := (s.clearCm g).modCtl g fun p => { p with
    state := 0, phase := 0, settleFailed := false, lastResetMs := min 0xFFFF (s.resetMs g) }
  t.tellReset g (t.part g).ctl.resetResult

section
variable {g : Nat} (at_ : Nat) (ok : Bool) (resets : (s.part g).ctl.state = 3)
include resets

theorem execResetPhaseComplete_held (phase : (s.part g).ctl.phase = 2) :
    execResetPhaseComplete g ok at_ s = .next ((s.atClk at_).modCtl g fun p => { p with phase := 3 }) := by
  simp only [execResetPhaseComplete, State.atClk_part, resets, phase, bne_self_eq_false, Bool.false_eq_true, if_false]

theorem execResetPhaseComplete_trained (phase : (s.part g).ctl.phase = 3) :
    execResetPhaseComplete g ok at_ s = .next (if ok = true then
      (s.atClk at_).modCtl g fun p => { p with phase := 4, searched := p.searched + b2n p.fullSearch }
      else (s.atClk at_).resetFailed g 1) := by
  simp only [execResetPhaseComplete, State.atClk_part, resets, phase, bne_self_eq_false, Bool.false_eq_true, if_false]
  exact (apply_ite Host.Outcome.next ..).symm

theorem execResetPhaseComplete_tested (phase : (s.part g).ctl.phase = 4) :
    execResetPhaseComplete g ok at_ s = .next (if ok = true then (s.atClk at_).modCtl g fun p => { p with phase := 5 }
      else (s.atClk at_).resetFailed g 2) := by
  simp only [execResetPhaseComplete, State.atClk_part, resets, phase, bne_self_eq_false, Bool.false_eq_true, if_false]
  exact (apply_ite Host.Outcome.next ..).symm

theorem execResetPhaseComplete_cleared (phase : (s.part g).ctl.phase = 5) :
    execResetPhaseComplete g ok at_ s = .next ((s.atClk at_).resetDone g) := by
  simp only [execResetPhaseComplete, State.atClk_part, resets, phase, bne_self_eq_false, Bool.false_eq_true, if_false]
  rfl

end

/-- Settles O38, command by command: the state and phase of the partition, and what the command finds of it, decide. -/
theorem partitionsAreFencedDrainedAndReset : Obligations.PartitionsAreFencedDrainedAndReset := by
  intro s g at_ s1 m p
  refine ⟨?hang, rfl, rfl, fun cause => State.fence_of_cutOff cause, ?fence, ?drained, ?limit, ?reset, ?phases⟩
  case hang =>
    exact fun armed reached untold running => ⟨execHangDetected_goesOn at_ armed reached untold running,
      execHangDetected_fences at_ armed reached untold running,
      fun action c => execHangDetected_stops at_ armed reached untold running action⟩
  case fence =>
    exact fun cause running => ⟨fun c => State.fence_of_resident running cause, State.fence_of_noResident running cause⟩
  case drained => exact execFenceDrainComplete_done at_
  case limit => exact execDrainLimitExpire_draining at_
  case reset =>
    exact fun full => ⟨execPartReset_running full at_, execPartReset_draining full at_, execPartReset_resetting full at_,
      execPartReset_cut full at_⟩
  case phases =>
    exact fun resets ok => ⟨execResetPhaseComplete_held at_ ok resets, execResetPhaseComplete_trained at_ ok resets,
      execResetPhaseComplete_tested at_ ok resets, execResetPhaseComplete_cleared at_ ok resets⟩

end Sys2Proof.Machine
end
section
/-! The loader, command by command (spec/10_avavo_images_and_loader.md R233 to R235, R239, R240, R242). -/

namespace Sys2Proof.Machine
variable {s : State}

@[simp] theorem State.atClk_tagOf (at_ id : Nat) : (s.atClk at_).tagOf id = s.tagOf id := rfl
@[simp] theorem State.atClk_load (at_ c : Nat) : (s.atClk at_).load c = s.load c := rfl
@[simp] theorem State.atClk_run (at_ c : Nat) : (s.atClk at_).run c = s.run c := rfl

/-! ### The go command (R233, R234, R372) -/

/-- The registers of the load command, as a go writes them. -/
def State.goNamed (s : State) (src q c : Nat) : State :=
  { s with loader := { s.loader with src := src, qp := q, ctx := c } }

/-- An accepted go takes the settings as they stand, for an image of which nothing is held or asked for. -/
def State.loadBegun (s : State) (src q c : Nat) : State :=
  { s with loader := { s.loader with
    busy := some c, curSrc := src, curQp := q, curLen := s.loader.len, curAddr := s.loader.addr.nat,
    curRankCount := s.loader.rankCount, curRankBase := s.loader.rankBase, bytes := [], pieces := [], asked := 0,
    winChanged := false } }.modLoad c fun x => { x with state := if s.loader.len == 0 then 2 else 1 }

section
variable {src q c : Nat} (at_ : Nat)

theorem execLoadGo_refused (refused : ((s.atClk at_).goNamed src q c).goOk c = false) :
    execLoadGo src q c at_ s = .next (((s.atClk at_).goNamed src q c).loadReject c 0x2F 0) :=
  if_pos ((Bool.not_eq_true' _).mpr refused)

variable (accepted : ((s.atClk at_).goNamed src q c).goOk c = true)
include accepted

/-- The guard of an accepted go, as the command tests it. -/
theorem State.go_accepted : ¬ (!((s.atClk at_).goNamed src q c).goOk c) = true := by
  rw [accepted]
  decide

theorem execLoadGo_fenced (fenced : s.fencedOff c = true) :
    execLoadGo src q c at_ s =
      .next ((((s.atClk at_).goNamed src q c).loadBegun src q c).endLoad c stFenced 0 0 noIndex 0) :=
  (if_neg (State.go_accepted at_ accepted)).trans (if_pos fenced)

theorem execLoadGo_fetches (unfenced : s.fencedOff c = false) (port : 2 ≤ src)
    (allowed : (((s.atClk at_).goNamed src q c).loadBegun src q c).portDeny c src q = 0) :
    execLoadGo src q c at_ s = .next (((s.atClk at_).goNamed src q c).loadBegun src q c).pumpPorts := by
  refine (if_neg (State.go_accepted at_ accepted)).trans ?_
  refine (if_neg (ne_true_of_eq_false unfenced)).trans ((if_neg (Nat.not_lt.2 port)).trans (if_neg ?_))
  exact mt bne_iff_ne.1 (not_not_intro allowed)

end

/-! ### The fetch and the check (R234, R235, R239) -/

theorem execLoadFetchData_taken {tag : Nat} {t : PortTag} (status at_ : Nat) (bs : List Byte) (opened : s.tagOf tag = some t)
    (loads : t.op = 1) : execLoadFetchData tag status at_ bs s = .next ((s.atClk at_).loadAnswer t status bs) := by
  simp only [execLoadFetchData, State.atClk_tagOf, opened, loads, beq_self_eq_true, if_true]

/-- The fetched image, with the rank base its load was started with. -/
def State.fetchedImage (s : State) : Image := { Image.parse s.loader.bytes with rankBase := s.loader.curRankBase }

section
variable {c : Nat} (at_ : Nat) (loading : s.loader.busy = some c) (fetched : (s.load c).state = 2)
include loading fetched

theorem execLoadCheck_rejects {r : Nat × Nat × Nat} (failed : (s.atClk at_).checkLoad c s.fetchedImage = some r) :
    execLoadCheck at_ s = .next ((s.atClk at_).rejectLoad c r.1 r.2.1 r.2.2 0) := by
  rw [State.fetchedImage] at failed
  simp only [execLoadCheck, State.atClk_loader, State.atClk_load, loading, fetched, failed, bne_self_eq_false, Bool.false_eq_true,
    if_false]

theorem execLoadCheck_commits (passed : (s.atClk at_).checkLoad c s.fetchedImage = none) :
    execLoadCheck at_ s = .next ((s.atClk at_).commitLoad c s.fetchedImage) := by
  rw [State.fetchedImage] at passed
  simp only [execLoadCheck, State.atClk_loader, State.atClk_load, loading, fetched, passed, bne_self_eq_false, Bool.false_eq_true,
    if_false, State.fetchedImage]

end

/-! ### Abort and unload (R240, R242) -/

/-- The context register of the load command, as an abort or an unload writes it. -/
def State.loadNamed (s : State) (c : Nat) : State := { s with loader := { s.loader with ctx := c } }

/-- There is nothing left to abort or to unload. -/
def State.loadAlreadyDone (s : State) (c : Nat) : State := s.modLoad c fun l => { l with status := stAlreadyDone, reason := 0 }

/-- An unload waits for the next step boundary barrier. -/
def State.unloadDeferred (s : State) (c : Nat) : State :=
  (s.modLoad c fun l => { l with state := 5 }).modRun c fun r => { r with unloadDue := true }

section
variable (c at_ : Nat)

theorem execLoadAbort_eq :
    let s1 := (s.atClk at_).loadNamed c
    execLoadAbort c at_ s =
      .next (if s.loader.busy = some c then s1.endLoad c stAborted 0 0 noIndex 0 else s1.loadAlreadyDone c) :=
  ite_next_of_iff beq_iff_eq rfl

theorem execDeferredUnload_eq :
    execDeferredUnload c at_ s =
      .next (if (s.run c).unloadDue = true ∧ ((s.run c).inStep = false ∨ (s.run c).stopped = true) then (s.atClk at_).doUnload c
        else s.atClk at_) := by
  refine ite_next_of_iff ?_ rfl
  rw [State.atClk_run, Bool.and_eq_true, Bool.or_eq_true, Bool.not_eq_true']

end

section
variable {c : Nat} (at_ : Nat)

theorem execUnload_loading (loading : s.loader.busy = some c) :
    execUnload c at_ s = .next (((s.atClk at_).loadNamed c).endLoad c stAborted 0 0 noIndex 0) :=
  if_pos (beq_iff_eq.2 loading)

variable (notLoading : s.loader.busy ≠ some c)
include notLoading

theorem execUnload_notLoaded (notLoaded : (s.load c).state ≠ 4) :
    execUnload c at_ s = .next (((s.atClk at_).loadNamed c).loadAlreadyDone c) :=
  (if_neg (mt beq_iff_eq.1 notLoading)).trans (if_pos (bne_iff_ne.2 notLoaded))

theorem execUnload_loaded (loaded : (s.load c).state = 4) (idle : s.loadBusy = false) :
    let s1 := (s.atClk at_).loadNamed c
    execUnload c at_ s =
      .next (if s1.released c = true ∧ (s.run c).stopped = false then s1.unloadDeferred c else s1.doUnload c) := by
  refine (if_neg (mt beq_iff_eq.1 notLoading)).trans ?_
  refine (if_neg (mt bne_iff_ne.1 (not_not_intro loaded))).trans ((if_neg (ne_true_of_eq_false idle)).trans (ite_next_of_iff ?_ rfl))
  rw [Bool.and_eq_true, Bool.not_eq_true']
  rfl

end

/-- Settles O28, command by command: whether the go is accepted, whose tag answers, what the check finds, and the state of
the context decide. -/
theorem loadsAndUnloadsRunOrAreRefused : Obligations.LoadsAndUnloadsRunOrAreRefused := by
  refine ⟨fun s src q c at_ => ⟨execLoadGo_refused at_, fun accepted => ⟨?fenced, ?fetches⟩⟩,
    fun s tag status at_ bs t => execLoadFetchData_taken status at_ bs, ?check, fun s c at_ => ?stop,
    fun s c at_ => execDeferredUnload_eq c at_⟩
  case fenced => exact execLoadGo_fenced at_ accepted
  case fetches => exact execLoadGo_fetches at_ accepted
  case check =>
    intro s at_ c loading fetched im
    split
    next r failed => exact execLoadCheck_rejects at_ loading fetched failed
    next passed => exact execLoadCheck_commits at_ loading fetched passed
  case stop =>
    exact ⟨execLoadAbort_eq c at_, execUnload_loading at_, execUnload_notLoaded at_, execUnload_loaded at_⟩

end Sys2Proof.Machine
end

section
/-! The storage ports' pauses and outages (spec/19_host_and_service_ports.md R408, R409;
spec/10_avavo_images_and_loader.md R242; spec/14_checkpoint.md R320). -/

namespace Sys2Proof.Machine
variable {s : State}

@[simp] theorem State.atClk_sport (at_ p : Nat) : (s.atClk at_).sport p = s.sport p := rfl

/-! ### Pauses (R408) -/

/-- The priorities that a port holds paused, after a pause frame for one of them. -/
def StorPort.maskAfter (x : StorPort) (prio : Nat) (pause : Bool) : Nat :=
  if pause then x.pausedMask ||| 2 ^ prio else x.pausedMask - (x.pausedMask &&& 2 ^ prio)

/-- The port after a pause frame at a clock. -/
def StorPort.pauseTaken (x : StorPort) (prio : Nat) (pause : Bool) (clk : Nat) : StorPort :=
  let mask := x.maskAfter prio pause
  let now := bitOf mask x.prio
  { x with
    pauseRx := satAdd 0xFFFFFFFF x.pauseRx 1, pausedMask := mask, paused := now,
    pausedSince := if now && !x.paused then clk else x.pausedSince, stuckTold := x.stuckTold && now }

theorem execPfcPauseReceive_eq {p prio : Nat} (pause : Bool) (at_ : Nat) (port : p ≤ 1) (priority : prio ≤ 7) :
    let s1 := s.atClk at_
    let s2 := s1.modSport p fun x => x.pauseTaken prio pause s1.clk
    execPfcPauseReceive p prio pause at_ s =
      .next (if bitOf ((s.sport p).maskAfter prio pause) (s.sport p).prio = true then s2 else s2.pumpStor p) := by
  have valid : ¬ (decide (1 < p) || decide (7 < prio)) = true := by
    simp only [Bool.or_eq_true, decide_eq_true_eq]
    omega
  exact if_neg valid

theorem execPfcStuck_paused {p : Nat} (at_ : Nat) (paused : (s.sport p).paused = true) (untold : (s.sport p).stuckTold = false) :
    let s1 := s.atClk at_
    execPfcStuck p at_ s =
      .next (if s1.clk < (s.sport p).pausedSince + (s.sport p).stuckMs * 1100000 then s1
        else (s1.modSport p fun x => { x with stuckTold := true }).report 0 12 stPfcStuck noPart noCtx p) := by
  refine ite_next_of_iff ?_ rfl
  simp only [State.atClk_sport, paused, untold, Bool.not_true, Bool.false_or]
  exact decide_eq_true_iff

/-! ### Outages (R242, R320, R409) -/

/-- The port's ready queue pairs. -/
def State.readyQps (s : State) (p : Nat) : List Nat :=
  (s.stor.qps.filter fun e => e.2.port == p && e.2.state == 1).map (·.1)

theorem execStorPortDownTimeout_down {p t : Nat} (at_ : Nat) (down : (s.sport p).downSince = some t) :
    let s1 := s.atClk at_
    execStorPortDownTimeout p at_ s =
      .next (if s1.clk < t + 10 * 1100000000 then s1
        else (s.readyQps p).foldl (fun u q => u.qpFail q stLinkDown) (s1.modSport p fun x => { x with downSince := none })) := by
  simp only [execStorPortDownTimeout, State.atClk_sport, down]
  exact (apply_ite Host.Outcome.next ..).symm

/-- Settles O45, command by command: the port's pause, the time it has been down, and whether it is up decide. -/
theorem storagePortsPauseAndComeAndGo : Obligations.StoragePortsPauseAndComeAndGo := by
  intro s p at_ port s1 x
  have known : decide (1 < p) = false := decide_eq_false (Nat.not_lt.2 port)
  refine ⟨fun prio pause => execPfcPauseReceive_eq pause at_ port, execPfcStuck_paused at_,
    fun t => execStorPortDownTimeout_down at_, ?down, ?up⟩
  case down =>
    intro up s2 s3 s4
    have wasUp : ¬ (decide (1 < p) || !(s.sport p).up) = true := by
      rw [known, up]
      decide
    exact if_neg wasUp
  case up =>
    intro down s2 s3
    have wasDown : ¬ (decide (1 < p) || (s.sport p).up) = true := by
      rw [known, down]
      decide
    exact if_neg wasDown

end Sys2Proof.Machine
end

section
/-! What becomes of a packet of the fabric (spec/12_gradient_exchange_and_collectives.md R266 to R268, R270;
spec/15_fabric_links_and_topology.md R329 to R333). -/

namespace Sys2Proof.Machine
variable {s : State}

/-! ### The Collar and the epoch (R266, R330, R331) -/

section
variable {h : HeldPkt}

theorem State.arrive_noJob (foreign : s.slotOfJob h.pkt.job = none) : s.arrive h = s.dropForeign h := by
  simp only [State.arrive, foreign]

variable {slot : Nat} (held : s.slotOfJob h.pkt.job = some slot)
include held

theorem State.arrive_noRank (foreign : s.ctxOfRank slot h.pkt.rank = none) : s.arrive h = s.dropForeign h := by
  simp only [State.arrive, held, foreign]

variable {c : Nat} (hosts : s.ctxOfRank slot h.pkt.rank = some c)
include hosts

theorem State.arrive_stale (behind : epochDiff h.pkt.epoch (s.job_ slot).epoch.nat < 0) : s.arrive h = s.dropStale h c := by
  simp only [State.arrive, held, hosts, behind, if_true]

/-- A packet of an epoch to come is parked while the slot's park has room for its cells, and is held otherwise. -/
theorem State.arrive_ahead (ahead : 0 < epochDiff h.pkt.epoch (s.job_ slot).epoch.nat) :
    s.arrive h = if 64 < (s.job_ slot).cells + 1 + h.pkt.data.length / 64 then s.hold h
      else (s.freePkt h).modJob slot fun j => { j with park := j.park ++ [(h.port, h.pkt)] } := by
  simp only [State.arrive, held, hosts, Int.not_lt.2 (Int.le_of_lt ahead), if_false, ahead, if_true]

variable (current : epochDiff h.pkt.epoch (s.job_ slot).epoch.nat = 0)
include current

theorem State.arrive_unitDone (unit : h.pkt.typ = 0x10) {t : State} (took : s.takeUnitPkt c h.pkt = .done t) :
    s.arrive h = t.freePkt h := by
  simp only [State.arrive, held, hosts, current, Int.lt_irrefl, if_false, unit, beq_self_eq_true, if_true, took]

theorem State.arrive_unitWaits (unit : h.pkt.typ = 0x10) (waits : s.takeUnitPkt c h.pkt = .wait) : s.arrive h = s.hold h := by
  simp only [State.arrive, held, hosts, current, Int.lt_irrefl, if_false, unit, beq_self_eq_true, if_true, waits]

variable (accept : h.pkt.typ = 0x13)
include accept

theorem State.arrive_accept (phases : h.pkt.group ≠ 0xFFF) :
    s.arrive h = (s.accepted c h.pkt.group h.pkt.phase h.pkt.stage h.pkt.rank h.pkt.aux).freePkt h := by
  simp only [State.arrive, held, hosts, current, Int.lt_irrefl, if_false, accept, beq_false_of_ne phases]
  rfl

theorem State.arrive_ledgerAccept (ledger : h.pkt.group = 0xFFF) :
    s.arrive h = (s.ledgerAccept c h.pkt.phase h.pkt.aux).freePkt h := by
  simp only [State.arrive, held, hosts, current, Int.lt_irrefl, if_false, accept, ledger]
  rfl

end

/-! ### The commands that take a packet from a link (R329, R330, R333) -/

/-- A packet of this device arrives, and the held packets are tried again. -/
theorem State.fromLink_mine {h : HeldPkt} {t : State} (mine : s.mine h.pkt = true) (came : s.arrive h = t) :
    s.fromLink h = t.retryHeld :=
  (if_pos mine).trans (congrArg State.retryHeld came)

section
variable {p v : Nat} {k : Packet} (cells : s.hasCells p v k = true)
include cells

theorem execFabricPacketReceive_cells :
    execFabricPacketReceive p v k s = .next (s.fromLink ⟨p, v, (s.port p).gen, k⟩) :=
  if_pos cells

theorem execAcceptReceive_cells (accept : k.typ = 0x13) :
    execAcceptReceive p v k s = .next (s.fromLink ⟨p, v, (s.port p).gen, k⟩) := by
  refine if_pos ?_
  rw [cells, accept]
  rfl

/-- A packet of another device goes on. -/
theorem execFabricPacketReceive_forwards (other : s.mine k = false) :
    execFabricPacketReceive p v k s = .next (s.forward ⟨p, v, (s.port p).gen, k⟩) :=
  (execFabricPacketReceive_cells cells).trans (congrArg _ (if_neg (ne_true_of_eq_false other)))

variable (mine : s.mine k = true) {t : State} (came : s.arrive ⟨p, v, (s.port p).gen, k⟩ = t)
include mine came

theorem execFabricPacketReceive_arrives : execFabricPacketReceive p v k s = .next t.retryHeld := by
  rw [execFabricPacketReceive_cells cells, State.fromLink_mine mine came]

/-- An accept arrives alike by either command. -/
theorem exec_accept_arrives (accept : k.typ = 0x13) :
    ∀ i ∈ [Instr.fabricPacketReceive p v k, .acceptReceive p v k], exec i s = .next t.retryHeld := by
  intro i named
  rw [List.mem_cons, List.mem_singleton] at named
  obtain rfl | rfl := named
  · exact execFabricPacketReceive_arrives cells mine came
  · show execAcceptReceive p v k s = _
    rw [execAcceptReceive_cells cells accept, State.fromLink_mine mine came]

end

/-! ### Outgoing packets (R332) -/

/-- The state without the waiting packet at a place. -/
def State.withoutWaiting (s : State) (i : Nat) : State :=
  { s with fab := { s.fab with waiting := s.fab.waiting.eraseIdx i } }

section
variable {i : Nat} {k : Packet} (waits : s.fab.waiting[i]? = some k)
include waits

theorem execPacketRoute_mine (mine : s.mine k = true) :
    execPacketRoute i s = .next ((s.withoutWaiting i).arrive ⟨63, pktVc k, 256, k⟩).retryHeld := by
  simp only [execPacketRoute, waits, mine, if_true, State.withoutWaiting]

variable (other : s.mine k = false)
include other

theorem execPacketRoute_noRoute (route : s.routeTo k = none) :
    execPacketRoute i s = .next ((s.withoutWaiting i).report 0 9 stNoRoute) := by
  simp only [execPacketRoute, waits, other, Bool.false_eq_true, if_false, route, State.withoutWaiting]

theorem execPacketRoute_down (route : s.routeTo k = some none) : execPacketRoute i s = .next (s.maskDown k.dstDev) := by
  simp only [execPacketRoute, waits, other, Bool.false_eq_true, if_false, route]

theorem execPacketRoute_given {p : Nat} (route : s.routeTo k = some (some p)) :
    execPacketRoute i s = .next ((s.withoutWaiting i).givePacket p (pktVc k) k) := by
  simp only [execPacketRoute, waits, other, Bool.false_eq_true, if_false, route, State.withoutWaiting]

end

/-! ### A stage of a reduce phase (R270) -/

theorem execReduceStage_begun {g n idx c : Nat} {r : Run} (m st : Nat) (issues : s.mayIssue g = some c)
    (begun : ((s.clu (18 * g + n)).runs.find? fun r => r.idx == idx && recKind r.rec_ == 5 && r.begun && !r.finished) = some r) :
    let x := s.phaseOf c g n r
    execReduceStage g n idx m st s =
      .next (if x.p.op = 2 ∧ m ∈ x.here ∧ st < x.plan.length then s.sendStage x m st else s) := by
  simp only [execReduceStage, issues, begun]
  refine ite_next_of_iff ?_ rfl
  rw [Bool.and_eq_true, Bool.and_eq_true, beq_iff_eq, List.contains_iff_mem, decide_eq_true_iff, and_assoc]

/-- Settles O29, command by command: whose packet it is, what its Collar and epoch are against the job's, its type, and its
route decide. -/
theorem packetsAreDeliveredParkedOrSentOn : Obligations.PacketsAreDeliveredParkedOrSentOn := by
  refine ⟨fun s p v k cells => ?receive, fun s i k waits => ⟨execPacketRoute_mine waits, ?route⟩,
    fun s g n idx m st c r issues begun => execReduceStage_begun m st issues begun⟩
  case receive =>
    refine ⟨execFabricPacketReceive_forwards cells, fun mine => ⟨?noJob, fun slot held => ⟨?noRank, fun c hosts =>
      ⟨?stale, ?ahead, ?unit, ?accept, ?ledgerAccept⟩⟩⟩⟩
    case noJob => exact fun foreign => execFabricPacketReceive_arrives cells mine (State.arrive_noJob foreign)
    case noRank => exact fun foreign => execFabricPacketReceive_arrives cells mine (State.arrive_noRank held foreign)
    case stale => exact fun stale => execFabricPacketReceive_arrives cells mine (State.arrive_stale held hosts stale)
    case ahead => exact fun ahead => execFabricPacketReceive_arrives cells mine (State.arrive_ahead held hosts ahead)
    case unit =>
      intro current unit
      refine execFabricPacketReceive_arrives cells mine ?_
      split
      next t took => exact State.arrive_unitDone held hosts current unit took
      next waits => exact State.arrive_unitWaits held hosts current unit waits
    case accept =>
      exact fun current accept phases =>
        exec_accept_arrives cells mine (State.arrive_accept held hosts current accept phases) accept
    case ledgerAccept =>
      exact fun current accept ledger =>
        exec_accept_arrives cells mine (State.arrive_ledgerAccept held hosts current accept ledger) accept
  case route =>
    intro other
    split
    next route => exact execPacketRoute_noRoute waits other route
    next route => exact execPacketRoute_down waits other route
    next p route => exact execPacketRoute_given waits other route

end Sys2Proof.Machine
end

section
/-! The ledger between its barrier and its confirmation: the partner's transfers, the votes of the herd, the decision of the
job (spec/13_step_ledger_and_replay.md R282, R287, R289 to R291, R308; spec/17_partitions_reset_and_recovery.md R372). -/

namespace Sys2Proof.Machine
variable {s : State} {c : Nat}

@[simp] theorem State.atClk_led (at_ c : Nat) : (s.atClk at_).led c = s.led c := rfl

/-- A ledger's stream whose digest differs from its sender's, reported. -/
def State.streamDiffers (s : State) (c : Nat) : State :=
  (s.modLed c fun l => { l with lastStatus := stDigestMismatch }).report 1 7 stDigestMismatch noPart c

/-! ### Transfers of the ward (R282, R287, R372) -/

/-- A step record in the ward's slot, and listed. -/
def State.wardRecord (s : State) (c step : Nat) (bytes : List Byte) : State :=
  (s.ledWrite c (s.wardSlot c step) bytes).modLed c fun l => { l with wardRecs := l.wardRecs.filter (· != step) ++ [step] }

/-- A gradient in its slot of the ward's ring, and listed. -/
def State.wardGradient (s : State) (c step : Nat) (bytes : List Byte) : State :=
  let l := s.led c
  (s.ledWrite c ((l.retRow + step % l.k * l.gRows) * s.rowBytes c) bytes).modLed c fun l => { l with
    wardGrads := l.wardGrads.filter (· != step) ++ [step] }

/-- The slot of the ring that a step's gradient needs holds another step's. -/
def Led.ringHeld (l : Led) (step : Nat) : Bool := l.wardGrads.any fun j => j != step && j % l.k == step % l.k

/-- A stored transfer of so many bytes accepted from the ward. -/
def State.wardAccepted (s : State) (c ward step bytes : Nat) : State :=
  (s.modLed c fun l => { l with lastStatus := stOk }).acceptTo c ward step (ceilDiv bytes 2048)

section
variable {kind step digest : Nat} {bytes : List Byte} (on : (s.led c).state ≠ 0) (ward : (s.led c).wardDev ≠ 0xFFF)
include on ward

/-- The guard of a transfer, as the command tests it. -/
theorem State.ward_known : ¬ ((s.led c).state == 0 || (s.led c).wardDev == 0xFFF) = true := by
  rw [beq_false_of_ne on, beq_false_of_ne ward]
  decide

theorem execLedgerTransferReceive_fenced (fenced : s.fencedOff c = true) :
    execLedgerTransferReceive c kind step bytes digest s = .next (s.ledFenced c) :=
  (if_neg (State.ward_known on ward)).trans (if_pos fenced)

variable (unfenced : s.fencedOff c = false)
include unfenced

theorem execLedgerTransferReceive_differs (differs : dg bytes ≠ digest) :
    execLedgerTransferReceive c kind step bytes digest s = .next (s.streamDiffers c) :=
  (if_neg (State.ward_known on ward)).trans ((if_neg (ne_true_of_eq_false unfenced)).trans (if_pos (bne_iff_ne.2 differs)))

variable (same : dg bytes = digest)
include same

/-- A transfer whose digest matches is stored by its kind. -/
theorem execLedgerTransferReceive_same :
    execLedgerTransferReceive c kind step bytes digest s =
      .next (if kind = 0 then (s.wardRecord c step bytes).wardAccepted c (s.led c).wardDev step bytes.length
        else if (s.led c).ringHeld step = true then s
        else (s.wardGradient c step bytes).wardAccepted c (s.led c).wardDev step bytes.length) := by
  have matched : ¬ (dg bytes != digest) = true := mt bne_iff_ne.1 (not_not_intro same)
  refine (if_neg (State.ward_known on ward)).trans ((if_neg (ne_true_of_eq_false unfenced)).trans ((if_neg matched).trans ?_))
  exact ite_next_of_iff beq_iff_eq (ite_next_of_iff Iff.rfl rfl)

end

/-! ### Votes (R289, R308) -/

section
variable {v : Vote} (on : (s.led c).state ≠ 0) (intact : v.stepN = not64 v.step)
include on intact

theorem execVoteReceive_collected (voting : (s.led c).state = 2) (open_ : (s.led c).verdict = none)
    (reached : v.step ≤ (s.led c).voteStep) (first : ((s.led c).votes.any fun x => x.member == v.member) = false) :
    execVoteReceive c v s = .next ((s.modLed c fun l => { l with votes := l.votes ++ [v] }).tryVerdict c) := by
  simp only [execVoteReceive, beq_false_of_ne on, beq_iff_eq.2 intact, beq_iff_eq.2 voting, open_, Option.isNone_none,
    decide_eq_true reached, first, Bool.not_false, Bool.and_self, Bool.false_eq_true, if_true, if_false]

/-- A vote for a boundary that the context has not reached is kept. -/
theorem execVoteReceive_early (ahead : (s.led c).voteStep < v.step) :
    execVoteReceive c v s = .next (s.modLed c fun l => { l with
      early := l.early.filter (fun x => x.member != v.member || x.step != v.step) ++ [v] }) := by
  simp only [execVoteReceive, beq_false_of_ne on, beq_iff_eq.2 intact, Nat.not_le.2 ahead, decide_eq_true ahead, decide_false,
    Bool.and_false, Bool.false_and, Bool.true_or, Bool.false_eq_true, if_true, if_false]

end

/-- An open boundary has waited 4,096 ticks since its barrier, as the two timeouts test it. -/
theorem Led.waited_iff {α : Type} (l : Led) (answer : Option α) (tick : Nat) :
    (l.state == 2 && answer.isNone && decide (l.voteTick + 4096 ≤ tick)) = true ↔
      l.state = 2 ∧ answer = none ∧ l.voteTick + 4096 ≤ tick := by
  simp only [Bool.and_eq_true, beq_iff_eq, Option.isNone_iff_eq_none, decide_eq_true_iff, and_assoc]

theorem execVoteTimeout_eq (s : State) (c : Nat) :
    execVoteTimeout c s =
      .next (if (s.led c).state = 2 ∧ (s.led c).verdict = none ∧ (s.led c).voteTick + 4096 ≤ s.tickNo then
        (s.formVerdict c).tryOwn c else s) :=
  ite_next_of_iff (Led.waited_iff _ _ _) rfl

theorem execDecisionTimeout_eq (s : State) (c : Nat) :
    execDecisionTimeout c s =
      .next (if (s.led c).state = 2 ∧ (s.led c).decision = none ∧ (s.led c).voteTick + 4096 ≤ s.tickNo then
        s.decide_ c false false else s) :=
  ite_next_of_iff (Led.waited_iff _ _ _) rfl

/-! ### The decision and the partner's confirmation (R290, R291) -/

section
variable (on : (s.led c).state ≠ 0)
include on

theorem execDecisionReceive_fromAbove (from_ step at_ : Nat) (yes due : Bool) :
    execDecisionReceive c true from_ step yes due at_ s =
      .next (if (s.led c).state = 2 ∧ (s.led c).decision = none ∧ step = (s.led c).voteStep then
        ((s.atClk at_).decide_ c yes due).decisionDown c step yes due else s.atClk at_) := by
  refine (if_neg (mt eq_of_beq on)).trans ((if_pos rfl).trans (ite_next_of_iff ?_ rfl))
  simp only [State.atClk_led, Bool.and_eq_true, beq_iff_eq, Option.isNone_iff_eq_none, and_assoc]

theorem execDecisionReceive_fromBelow (from_ step at_ : Nat) (yes due : Bool) :
    let s1 := (s.atClk at_).modLed c fun l => { l with
      ups := l.ups.filter (fun u => u.1 != step || u.2.1 != from_) ++ [(step, from_, yes, due)] }
    execDecisionReceive c false from_ step yes due at_ s = .next (if (s.led c).state = 2 then s1.treeUp c else s1) :=
  (if_neg (mt eq_of_beq on)).trans ((if_neg Bool.false_ne_true).trans (congrArg _ (ite_of_iff beq_iff_eq _ _)))

theorem execMirrorConfirmedReceive_eq (step : Nat) :
    execMirrorConfirmedReceive c step s =
      .next (if step ≠ (s.led c).confirmed.nat then s else s.modLed c fun l => { l with
        mirrorValid := true, state := if l.state == 3 then (if step < l.replayTo then 6 else 1) else l.state }) := by
  refine ite_next_of_iff ?_ rfl
  rw [beq_false_of_ne on, Bool.false_or, bne_iff_ne]

end

/-- Settles O30, command by command: the ledger's state, the boundary it has open and what arrives decide. -/
theorem ledgerTransfersVotesAndDecisionsAreTaken : Obligations.LedgerTransfersVotesAndDecisionsAreTaken := by
  intro s c on l
  refine ⟨fun _ _ _ _ ward => execLedgerTransferReceive_fenced on ward, ?transfer, ?vote, execVoteTimeout_eq s c,
    execDecisionTimeout_eq s c, ?decision, execMirrorConfirmedReceive_eq on⟩
  case transfer =>
    intro kind step digest bytes ward unfenced ok
    refine ⟨execLedgerTransferReceive_differs on ward unfenced, fun same record => ?_, fun same gradient => ?_⟩
    · exact (execLedgerTransferReceive_same on ward unfenced same).trans (congrArg _ (if_pos record))
    · exact (execLedgerTransferReceive_same on ward unfenced same).trans (congrArg _ (if_neg gradient))
  case vote => exact fun v intact => ⟨execVoteReceive_collected on intact, execVoteReceive_early on intact⟩
  case decision =>
    exact fun from_ step at_ yes due =>
      ⟨execDecisionReceive_fromAbove on from_ step at_ yes due, execDecisionReceive_fromBelow on from_ step at_ yes due⟩

end Sys2Proof.Machine
end

section
/-! The recovery of a ledger context: rollback and its exchange, restores, the tail, spares, seeding, and the ledger's commands
(spec/13_step_ledger_and_replay.md R281, R292 to R296, R298, R299, R302, R304, R306, R307). -/

namespace Sys2Proof.Machine
variable {s : State} {c : Nat}

/-- The context register of the ledger's commands, as a command writes it. -/
def State.ledNamed (s : State) (c : Nat) : State := { s with ledRegs := { s.ledRegs with ctx := c } }

/-- The status of an accepted command of the ledger. -/
def State.ledOk (s : State) : State := { s with ledRegs := { s.ledRegs with lastStatus := stOk } }

/-! ### Rollback and its exchange (R292 to R294, R304, R320) -/

section
variable (at_ : Nat)

theorem execLedgerRollback_refused (refused : (s.led c).state ∉ [1, 2, 3, 6]) :
    execLedgerRollback c at_ s = .next (((s.atClk at_).ledNamed c).ledRefuse (openStatus 5)) := by
  refine if_pos ?_
  rw [Bool.not_eq_true']
  exact eq_false_of_ne_true (mt List.contains_iff_mem.1 refused)

/-- The rolled back context tells the member above it its confirmed step, and whether its shard must be had elsewhere. -/
theorem execLedgerRollback_accepted (accepted : (s.led c).state ∈ [1, 2, 3, 6]) :
    let l := s.led c
    let s1 := (s.atClk at_).ledNamed c
    let need := l.ownRows != 0 && !s1.clean c l.confirmed.nat
    let s2 := s1.ledOk.quiesce c
    let i := s1.memberOf c l.jobGroup
    execLedgerRollback c at_ s = .next (if i = 0 then s2
      else s2.treeMsg c l.jobGroup (treeAbove i)
        (leBytes 8 l.confirmed.nat ++ leBytes 8 (not64 l.confirmed.nat) ++ leBytes 1 3 ++ leBytes 1 (b2n need))) := by
  have goes : ¬ (!([1, 2, 3, 6].contains (s.led c).state)) = true := by
    rw [List.contains_iff_mem.2 accepted]
    decide
  exact (if_neg goes).trans (congrArg _ (ite_of_iff beq_iff_eq _ _))

/-- The context with at least the agreed target confirmed. -/
def State.atTarget (s : State) (c target : Nat) : State :=
  if (s.led c).confirmed.nat < target then
    (s.confirmStep c target).modLed c fun l => { l with mirrorValid := (s.led c).mirrorValid }
  else s

/-- The context without its partner: it has no mirror, and a drain under way ends. -/
def State.withoutPartner (s : State) (c : Nat) : State :=
  (if (s.ckpt c).state == 2 || (s.ckpt c).state == 3 then s.ckptEnd c stAborted 0 else s).modLed c fun l =>
    { l with mirrorValid := false, seeded := false }

theorem execRollbackExchange_quiescing (target : Nat) (needTail lost : Bool) (quiescing : (s.led c).state = 4) :
    let s1 := (s.atClk at_).atTarget c target
    let s2 := if lost = true then s1.withoutPartner c else s1
    execRollbackExchange c target needTail lost at_ s =
      .next (if (s2.led c).state = 7 then s2 else s2.settleShard c target needTail) :=
  (if_neg (mt bne_iff_ne.1 (not_not_intro quiescing))).trans (congrArg _ (ite_of_iff beq_iff_eq _ _))

end

/-! ### Restore from the partner's mirror (R295) -/

theorem execMirrorRestore_partner (bytes : List Byte) (digest : Option Nat) (on : (s.led c).state ≠ 0)
    (mirrors : (s.led c).wardValid = true) :
    execMirrorRestore c 0 bytes digest s =
      .next (s.streamTo c (s.led c).wardDev 2 (s.led c).wardStep (s.mirrorBytes c)) :=
  (if_neg (mt eq_of_beq on)).trans ((if_pos rfl).trans (if_pos mirrors))

/-- The bytes of the own and side rows. -/
def State.shardLen (s : State) (c : Nat) : Nat := ((s.led c).ownRows + (s.led c).sideRows) * s.rowBytes c

/-- The bytes of its mirror's stream that an owner has once it takes the next ones; none beyond the last is taken. -/
def State.streamedWith (s : State) (c : Nat) (bytes : List Byte) : Nat :=
  (s.led c).streamed + (bytes.take (s.shardLen c - (s.led c).streamed)).length

/-- The owner's shard with the next bytes of its mirror's stream. -/
def State.shardStreamed (s : State) (c : Nat) (bytes : List Byte) : State :=
  let l := s.led c
  ((s.ledWrite c (l.ownRow * s.rowBytes c + l.streamed) (bytes.take (s.shardLen c - l.streamed))).modLed c fun l =>
    { l with streamed := s.streamedWith c bytes }).setXfer c 2 (s.streamedWith c bytes / 64)

section
variable (bytes : List Byte) (restoring : (s.led c).state = 5) (unsettled : (s.led c).settled = false)
  (seeded : (s.led c).seeded = true) (unfenced : s.fencedOff c = false)
include restoring unsettled seeded unfenced

/-- With the last bytes of the stream comes the partner's digest; one that comes before them is passed over. -/
theorem execMirrorRestore_owner (digest : Option Nat) :
    let s1 := s.shardStreamed c bytes
    execMirrorRestore c 1 bytes digest s = .next (match digest with
      | none => s1
      | some d => if s.streamedWith c bytes < s.shardLen c then s1
        else if dg (s1.shardBytes c) == d then s1.settled c else s1.streamBad c 2 6) := by
  have on : (s.led c).state ≠ 0 := by
    rw [restoring]
    decide
  have waits : ¬ ((s.led c).state != 5 || (s.led c).settled || !(s.led c).seeded) = true := by
    rw [restoring, unsettled, seeded]
    decide
  refine (if_neg (mt eq_of_beq on)).trans ((if_neg Bool.false_ne_true).trans ((if_neg waits).trans ?_))
  refine (if_neg (ne_true_of_eq_false unfenced)).trans ?_
  cases digest with
  | none => rfl
  | some d => exact (apply_ite Host.Outcome.next ..).symm

end

/-! ### The tail of the target step (R296, R302, R318) -/

/-- The step whose tail runs again: the confirmed step of a running context, else the target. -/
def Led.tailStep (l : Led) : Nat := if l.state == 1 then l.confirmed.nat else l.target

/-- The seed and hyper blocks of a step record, in their places. -/
def State.blocksFrom (s : State) (c seedAddr : Nat) (b : List Byte) : State :=
  (List.range (leAt b 112 2)).foldl (fun t p =>
    t.ledWrite c ((⟨leAt b (256 + 128 * p) 64⟩ : CobP).hyper * 64) (slice b (256 + 128 * p + 64) 64))
    (s.ledWrite c (seedAddr * 64) (slice b 48 64))

section
variable (copy : List Byte) (needed : (s.led c).needTail = true) (idle : (s.run c).tail = false)
  (settled : ((s.led c).state = 5 ∧ (s.led c).settled = true) ∨
    ((s.led c).state = 1 ∧ s.notStarted c = true ∧ (s.run c).inStep = false))
include needed idle settled

/-- The guard of a tail replay, as the command tests it. -/
theorem State.tail_due : ¬ (!((s.led c).needTail && !(s.run c).tail && ((s.led c).state == 5 && (s.led c).settled ||
    (s.led c).state == 1 && s.notStarted c && !(s.run c).inStep))) = true := by
  simp only [needed, idle, Bool.not_false, Bool.true_and, Bool.not_eq_true', Bool.not_eq_false, Bool.or_eq_true, Bool.and_eq_true,
    beq_iff_eq, and_assoc]
  exact settled

/-- Of the first step no record exists, and its blocks stand; a later step's must be had. -/
theorem execTailReplay_missing (missing : (s.targetRecord c (s.led c).tailStep copy).1 = none) :
    execTailReplay c copy s = .next (if ((s.led c).tailStep == (s.led c).c0) = true then s.startTail c
      else (s.targetRecord c (s.led c).tailStep copy).2.halt c 3) := by
  refine (if_neg (State.tail_due needed idle settled)).trans ?_
  rw [Led.tailStep] at missing ⊢
  simp only [missing]
  exact (apply_ite Host.Outcome.next ..).symm

theorem execTailReplay_found {b : List Byte} (found : (s.targetRecord c (s.led c).tailStep copy).1 = some b) :
    execTailReplay c copy s =
      .next (((s.targetRecord c (s.led c).tailStep copy).2.blocksFrom c (s.led c).seedAddr b).startTail c) := by
  refine (if_neg (State.tail_due needed idle settled)).trans ?_
  rw [Led.tailStep] at found ⊢
  simp only [found, State.blocksFrom]

end

/-! ### A spare takes over (R298, R302) -/

/-- The bank that is given for a step. -/
def bankOf (banks : List (Nat × List Byte)) (step : Nat) : Option (Nat × List Byte) := banks.find? fun b => b.1 == step

/-- The records of the steps that are to be replayed. -/
def replaysFrom (target : Nat) (records : List (Nat × List Byte)) : List (Nat × List Byte) := records.filter fun e => target < e.1

/-- Every step to be replayed has its input bank, and it is the one its record names. -/
def banksAgree (replays banks : List (Nat × List Byte)) : Bool :=
  replays.all fun e => match bankOf banks e.1 with
    | some b => dg b.2 == leAt e.2 32 16
    | none => false

/-- The input banks in the places that the ledger had for them before the takeover. -/
def State.banksWritten (s before : State) (c : Nat) (replays banks : List (Nat × List Byte)) : State :=
  replays.foldl (fun t e => match bankOf banks e.1 with
    | some b => t.ledWrite c (before.inBank c e.1).1 b.2
    | none => t) s

/-- A spare with the records it is given, restoring at the target. -/
def State.spareAt (s : State) (c target : Nat) (records : List (Nat × List Byte)) : State :=
  let s1 := records.foldl (fun t e => t.ledWrite c (s.ownSlot c e.1) e.2) s
  let replays := replaysFrom target records
  (s1.modRun c fun r => { r with step := target + 1, boundary := true, inStep := false }).modLed c fun l => { l with
    state := 5, target := target, confirmed := pairOf 64 target, settled := l.ownRows == 0, seeded := l.ownRows != 0,
    held := replays.map (·.1), replayTo := replays.foldl (fun a e => max a e.1) target, streamed := 0, failed := 0 }

theorem execSpareTakeover_taken (target : Nat) (records banks : List (Nat × List Byte)) (weights : List Byte)
    (open_ : (s.led c).state ∈ [1, 4, 5]) (notStarted : s.notStarted c = true) :
    let replays := replaysFrom target records
    let s2 := s.spareAt c target records
    execSpareTakeover c target records banks weights s =
      .next (if banksAgree replays banks = true then (s2.banksWritten s c replays banks).fillWeights c weights
        else s2.halt c 5) := by
  have goes : ¬ (!([1, 4, 5].contains (s.led c).state) || !s.notStarted c) = true := by
    rw [List.contains_iff_mem.2 open_, notStarted]
    decide
  have differs : (!banksAgree (replaysFrom target records) banks) = true ↔ ¬ banksAgree (replaysFrom target records) banks = true := by
    rw [Bool.not_eq_true', Bool.not_eq_true]
  exact (if_neg goes).trans ((ite_next_of_iff differs rfl).trans (congrArg _ (ite_not ..)))

/-! ### Seeding (R299) -/

section
variable (on : (s.led c).state ≠ 0)
include on

theorem execMirrorSeeding_begins (step : Nat) (bytes : List Byte) (digest : Option Nat) (partner : (s.led c).partnerDev ≠ 0xFFF)
    (shard : (s.led c).ownRows ≠ 0) :
    execMirrorSeeding c 0 step bytes digest s =
      .next (((s.modLed c fun l => { l with mirrorValid := false, seeded := false }).streamTo c (s.led c).partnerDev 3
        (s.led c).confirmed.nat (s.shardBytes c)).setXfer c 3 0) := by
  have streams : ¬ ((s.led c).partnerDev == 0xFFF || (s.led c).ownRows == 0) = true := by
    rw [beq_false_of_ne partner, beq_false_of_ne shard]
    decide
  exact (if_neg (mt eq_of_beq on)).trans (if_neg streams)

theorem execMirrorSeeding_partner (step : Nat) (bytes : List Byte) (ward : (s.led c).wardDev ≠ 0xFFF)
    (unfenced : s.fencedOff c = false) :
    let n := (s.led c).streamed + bytes.length
    execMirrorSeeding c 1 step bytes none s =
      .next (((s.ledWrite c ((s.led c).mirRow * s.rowBytes c + (s.led c).streamed) bytes).modLed c fun l =>
        { l with wardValid := false, streamed := n, wardRows := n / s.rowBytes c }).setXfer c 3 (n / 64)) :=
  (if_neg (mt eq_of_beq on)).trans ((if_neg (mt eq_of_beq ward)).trans (if_neg (ne_true_of_eq_false unfenced)))

theorem execMirrorSeeding_returned (step d : Nat) (bytes : List Byte) (partner : (s.led c).partnerDev ≠ 0xFFF) :
    execMirrorSeeding c 2 step bytes (some d) s =
      .next (if dg (s.shardBytes c) = d then
          (s.modLed c fun l => { l with
            mirrorValid := true, seeded := true, seeds := satAdd 0xFFFF l.seeds 1, lastStatus := stOk }).setXfer c 3
              (s.shardLen c / 64)
        else s.streamDiffers c) :=
  (if_neg (mt eq_of_beq on)).trans ((if_neg (mt eq_of_beq partner)).trans (ite_next_of_iff beq_iff_eq rfl))

end

/-! ### The commands and the enable (R281, R306, R307) -/

theorem execLedgerHalt_on (on : (s.led c).state ≠ 0) : execLedgerHalt c s = .next ((s.ledNamed c).ledOk.halt c 7) :=
  if_neg (mt eq_of_beq on)

/-- The digest of the configuration no longer stands. -/
def State.cfgStale (s : State) : State := { s with glb := { s.glb with digestStale := true } }

/-- The first configuration word of a ledger that is off, as a write leaves it. -/
def State.ledCfg0 (s : State) (c value : Nat) : State :=
  s.cfgStale.modLed c fun l => { l with cfg := l.cfg.set 0 (at' (fld value 30 3) 3) }

section
variable {value : Nat} (selected : s.ledRegs.sel = c)
include selected

theorem execLedgerEnableWrite_turnsOff (on : (s.led c).state ≠ 0) (disable : bitOf value 31 = false) :
    execLedgerEnableWrite value s = .next (s.cfgStale.modLed c Led.off) := by
  subst selected
  exact (if_pos (bne_iff_ne.2 on)).trans (congrArg _ (if_neg (ne_true_of_eq_false disable)))

variable (off : (s.led c).state = 0)
include off

theorem execLedgerEnableWrite_staysOff (disable : bitOf value 31 = false) :
    execLedgerEnableWrite value s = .next (s.ledCfg0 c value) := by
  subst selected
  exact (if_neg (mt bne_iff_ne.1 (not_not_intro off))).trans (if_pos ((Bool.not_eq_true' _).mpr disable))

theorem execLedgerEnableWrite_enables (enable : bitOf value 31 = true) :
    let s1 := s.ledCfg0 c value
    execLedgerEnableWrite value s = .next (if s1.canEnable c = true then
        (s1.ledOk.modLed c Led.on).modRun c fun r => { r with step := (s1.led c).confirmed.nat + 1 }
      else s1.ledRefuse stConfigMismatch) := by
  subst selected
  have goes : ¬ (!bitOf value 31) = true := by
    rw [enable]
    decide
  exact (if_neg (mt bne_iff_ne.1 (not_not_intro off))).trans ((if_neg goes).trans (apply_ite Host.Outcome.next ..).symm)

end

/-- Settles O31, command by command: the ledger's state, and what the command brings or finds, decide. -/
theorem ledgerRollsBackAndRestores : Obligations.LedgerRollsBackAndRestores := by
  intro s c l
  refine ⟨fun at_ => ⟨execLedgerRollback_refused at_, execLedgerRollback_accepted at_⟩, ?exchange, ?mirror, ?owner, ?tail, ?spare,
    ?seeds, ?seeded, ?returned, execLedgerHalt_on, rfl, ?enable⟩
  case exchange => exact fun target at_ needTail lost => execRollbackExchange_quiescing at_ target needTail lost
  case mirror => exact fun bytes digest => execMirrorRestore_partner bytes digest
  case owner =>
    exact fun bytes digest restoring unsettled seeded unfenced =>
      execMirrorRestore_owner bytes restoring unsettled seeded unfenced digest
  case tail =>
    intro copy needed idle settled j r
    split
    next missing => exact execTailReplay_missing copy needed idle settled missing
    next b found => exact execTailReplay_found copy needed idle settled found
  case spare =>
    exact fun target records banks weights open_ notStarted =>
      execSpareTakeover_taken target records banks weights open_ notStarted
  case seeds => exact fun step bytes digest on => execMirrorSeeding_begins on step bytes digest
  case seeded => exact fun step bytes on => execMirrorSeeding_partner on step bytes
  case returned => exact fun step d bytes on => execMirrorSeeding_returned on step d bytes
  case enable =>
    exact fun value selected => ⟨execLedgerEnableWrite_turnsOff selected, execLedgerEnableWrite_staysOff selected,
      execLedgerEnableWrite_enables selected⟩

end Sys2Proof.Machine
end

section
/-! A step of the block (spec/00_scope.md; notes/assumptions/5.md), and what a partition that is cut off does not do
(spec/17_partitions_reset_and_recovery.md R372, R375). -/

namespace Sys2Proof.Machine
variable {s : State}

/-- Settles O1: the front of the queue decides. -/
theorem stepTakesFrontCommand : Obligations.StepTakesFrontCommand := by
  refine ⟨fun s c rest waiting => ?command, fun s empty => ?idle⟩
  case command =>
    rw [step, waiting]
    rfl
  case idle =>
    rw [step]
    split
    next => rfl
    next c rest waiting => rw [empty] at waiting; contradiction

theorem State.mayIssue_of_cutOff {g : Nat} (off : s.cutOff g = true) : s.mayIssue g = none := if_pos off

/-- Settles O40: each of these commands asks first who may issue in the partition. -/
theorem aCutOffPartitionIssuesNothing : Obligations.ACutOffPartitionIssuesNothing := by
  intro s g n u idx m st at_ off
  have nobody : s.mayIssue g = none := State.mayIssue_of_cutOff off
  have nobodyNow : (s.atClk at_).mayIssue g = none := nobody
  refine ⟨?timed, ?stage, ?mark⟩
  case timed =>
    simp only [List.forall_mem_cons, exec, execRecordDispatch, execRecordWaitMet, execPassIssue, execAwlTileIssue, execBankDrain,
      execRetrieverCopy, execRetrieverFillZeros, execRetrieverDefineZero, execRetrieverInvalidate, execUnitAccept, nobodyNow]
    simp only [List.not_mem_nil, false_implies, implies_true, and_true, and_self]
    rfl
  case stage => simp only [exec, execReduceStage, nobody]
  case mark => simp only [exec, execStepEndMark, nobody]

end Sys2Proof.Machine
end

section
/-! Every command is answered (spec/00_scope.md; notes/assumptions/15.md): each arm is a tree of tests with a next state at every
leaf. -/

namespace Sys2Proof.Machine
variable {s : State}

/-- The command's answer is a next state. -/
def Answered (o : Host.Outcome State Fault Refusal) : Prop := ∃ t, o = .next t

theorem Answered.next {t : State} : Answered (.next t) := ⟨t, rfl⟩

theorem Answered.ite {c : Prop} [Decidable c] {o p : Host.Outcome State Fault Refusal} (h : Answered o) (k : Answered p) :
    Answered (if c then o else p) := by
  split
  · exact h
  · exact k

/-- Each arm is a tree of tests: one leaf, two leaves, more, and last the arms that look something up. -/
theorem exec_answered (i : Instr) : Answered (exec i s) := by
  cases i with
  | registerWrite | pairedReadLatch | pairedWriteWord | relock | governorEnergyCheck | arithClear | tgStop | clearStrikes
  | ckptAbort | fabRetrain | fabFullSearch | fabPortOff | fabPortOn | engineSearch | engineSearchCached | partFence | ctxStop
  | sheepdogAck | sheepdogPop | brownOut | busMasterDisable | functionLevelReset | hostLinkDown | cnpReceive | qpReset
  | usbBusReset | i3cIbi | mgmtRead | mgmtWrite | mgmtDownloadChunk | meterFetch | meterNonce | meterInterval | meterTimeMark
  | meterBreak | meterRestore | meterCalibration | meterFwChunk | thermalThrottle | railPoll | unitFault | vAonLoss =>
    exact .next
  | weltLinkDown | tickEdge | beaconReceive | startDisarm | tickPeriodWrite | memArbWrite | tgStart | tgRunEnd
  | stepBoundaryCensus | syncReseed | syncCensus | loadAbort | deferredUnload | fabricPacketReceive | acceptReceive
  | deterministicWrite | voteTimeout | decisionTimeout | mirrorConfirmedReceive | ledgerRollback | rollbackExchange | ledgerHalt
  | ckptTake | ckptTimerExpire | ckptUnitAccept | ckptDigestTreeReceive | ckptCompletionReceive | linkIdleTimeout | portDown
  | portTrainingDone | fullSearchRetry | fabCommit | fabDevWrite | fabCtxJobWrite | laneOutRequest | combLineLow | calCycleStart
  | laserLoss | laserRestored | tableModeUpdate | adcSampleDone | adcSettingsWrite | drainLimitExpire | ctxAbort | leaseLapse
  | vAonValid | vbusAbove | pllLockTimeout | bootSlotRead | leaveRomWait | bringupTraining | selfTestStart | busMasterEnable
  | flrComplete | rateRecovery | pfcStuck | qpModify | usbRead | usbEp1Chunk | reportDatagramSend | heartbeatSend
  | reportAckReceive | meterHeartbeatSend | meterHeartbeatTimeout | meterSelfPeriod | recordIntervalEnd | vMtrFail | vMtrReturn
  | thermalTrip | tripRecovery | storagePortDown | storagePortUp | hostLinkUp | weltLinkRestored | pfcPauseReceive =>
    exact .ite .next .next
  | holdoverExpire | spareTakeover | censusMarkerReceive | searchComplete | lockVisit | switchSlotWrite | mapApply
  | planEntryWrite | selfTestComplete | usbWrite | sidebandRecovery | sidebandRetry | updBegin | updConfirm | updRevert | updAbort
  | meterSnapshot =>
    exact .ite .next (.ite .next .next)
  | nextContextWrite =>
    exact .ite (.ite .next .next) .next
  | startArm | voteReceive | ledgerEnableWrite | tableModeWrite | pllLock =>
    exact .ite .next (.ite .next (.ite .next .next))
  | scrubAccess | fabJobWrite =>
    exact .ite (.ite .next .next) (.ite .next .next)
  | decisionReceive | helloReceive | leaseGrant =>
    exact .ite .next (.ite (.ite .next .next) .next)
  | loadGo | unload | updVerify | updActivate =>
    exact .ite .next (.ite .next (.ite .next (.ite .next .next)))
  | ledgerTransferReceive | ckptDrainStart =>
    exact .ite .next (.ite .next (.ite .next (.ite .next (.ite .next .next))))
  | ckptRestore | frameReceive =>
    exact .ite .next (.ite .next (.ite .next (.ite .next (.ite .next (.ite .next .next)))))
  | echoSend | echoReceive | recordDispatch | recordWaitMet | recordRetire | stepEndMark | passIssue | awlTileIssue | bankDrain
  | codebookCalibrate | driftSample | windowWrite | granuleRead | eccWriteback | granuleWrite | retrieverCopy | retrieverFillZeros
  | retrieverDefineZero | retrieverInvalidate | unitAccept | localSendApply | remoteSendApply | sendAckReceive | loadFetchData
  | loadCheck | cobblerQueueEnter | cobblerUpdate | cobblerEmit | reduceStage | packetRoute | mirrorRestore | tailReplay
  | mirrorSeeding | laneOutReply | calSlotEnd | circuitIdentReceive | partAssignWrite | hangDetected | fenceDrainComplete
  | partReset | resetPhaseComplete | railSequence | hostInboundRequest | hostCompletionReceive | hostCompletionTimeout
  | storPacketReceive | ackTimeout | storPortDownTimeout | reportResend | trialTimerExpire | attributionFrame | meterTickClose =>
    dsimp only [exec, execEchoSend, execEchoReceive, execRecordDispatch, execRecordWaitMet, execRecordRetire, execStepEndMark,
      execPassIssue, execAwlTileIssue, execBankDrain, execCodebookCalibrate, execDriftSample, execWindowWrite, execGranuleRead,
      execEccWriteback, execGranuleWrite, execRetrieverCopy, execRetrieverFillZeros, execRetrieverDefineZero,
      execRetrieverInvalidate, execUnitAccept, execLocalSendApply, execRemoteSendApply, execSendAckReceive, execLoadFetchData,
      execLoadCheck, execCobblerQueueEnter, execCobblerUpdate, execCobblerEmit, execReduceStage, execPacketRoute,
      execMirrorRestore, execTailReplay, execMirrorSeeding, execLaneOutReply, execCalSlotEnd, execCircuitIdentReceive,
      execPartAssignWrite, execHangDetected, execFenceDrainComplete, execPartReset, execResetPhaseComplete, execRailSequence,
      execHostInboundRequest, execHostCompletionReceive, execHostCompletionTimeout, execStorPacketReceive, execAckTimeout,
      execStorPortDownTimeout, execReportResend, execTrialTimerExpire, execAttributionFrame, execMeterTickClose]
    repeat' split
    all_goals exact .next

/-- Settles O5: no leaf of an arm is a fault or a refusal. -/
theorem everyCommandAnswered : Obligations.EveryCommandAnswered := fun _ _ => exec_answered _

end Sys2Proof.Machine
end

section
/-! The event queue of the aggregator (spec/17_partitions_reset_and_recovery.md R369): what an event folds into, what it displaces. -/

namespace Sys2Proof.Machine

theorem Event.same_iff (x e : Event) :
    x.same e = true ↔ x.status = e.status ∧ x.source = e.source ∧ x.gpart = e.gpart ∧ x.ctx = e.ctx ∧ x.loc = e.loc := by
  simp only [Event.same, Bool.and_eq_true, beq_iff_eq, and_assoc]

/-- An event folds into an entry that no datagram has carried and that tells the same. -/
def Event.foldsInto (e x : Event) : Prop :=
  x.sent = false ∧ x.status = e.status ∧ x.source = e.source ∧ x.gpart = e.gpart ∧ x.ctx = e.ctx ∧ x.loc = e.loc

theorem Event.foldsInto_iff (e x : Event) : (!x.sent && x.same e) = true ↔ e.foldsInto x := by
  rw [Bool.and_eq_true, Bool.not_eq_true', x.same_iff e, Event.foldsInto]

section
variable {e x : Event} {a b : List Event}

theorem foldEvent_first (folds : e.foldsInto x) (before : ∀ y ∈ a, ¬ e.foldsInto y) :
    foldEvent e (a ++ x :: b) = some (a ++ { x with repeat_ := min 0xFFFF (x.repeat_ + 1) } :: b) := by
  induction a with
  | nil => exact if_pos ((e.foldsInto_iff x).2 folds)
  | cons y ys ih =>
    rw [List.forall_mem_cons] at before
    exact (if_neg (mt (e.foldsInto_iff y).1 before.1)).trans (congrArg (Option.map (y :: ·)) (ih before.2))

theorem foldEvent_none {q : List Event} (others : ∀ y ∈ q, ¬ e.foldsInto y) : foldEvent e q = none := by
  induction q with
  | nil => rfl
  | cons y ys ih =>
    rw [List.forall_mem_cons] at others
    exact (if_neg (mt (e.foldsInto_iff y).1 others.1)).trans (congrArg (Option.map (y :: ·)) (ih others.2))

theorem dropNote_oldest (note : x.severity = 0) (before : ∀ y ∈ a, y.severity ≠ 0) : dropNote (a ++ x :: b) = some (a ++ b) := by
  induction a with
  | nil => exact if_pos (beq_iff_eq.2 note)
  | cons y ys ih =>
    rw [List.forall_mem_cons] at before
    exact (if_neg (mt beq_iff_eq.1 before.1)).trans (congrArg (Option.map (y :: ·)) (ih before.2))

theorem dropNote_none {q : List Event} (noNote : ∀ y ∈ q, y.severity ≠ 0) : dropNote q = none := by
  induction q with
  | nil => rfl
  | cons y ys ih =>
    rw [List.forall_mem_cons] at noNote
    exact (if_neg (mt beq_iff_eq.1 noNote.1)).trans (congrArg (Option.map (y :: ·)) (ih noNote.2))

end

section
variable {d : Dog} {e : Event}

theorem Dog.enter_folds {q : List Event} (folded : foldEvent e d.queue = some q) : d.enter e = { d with queue := q } := by
  rw [Dog.enter, folded]

variable (fresh : foldEvent e d.queue = none)
include fresh

theorem Dog.enter_room (room : d.queue.length < 256) : d.enter e = { d with queue := d.queue ++ [e] } := by
  rw [Dog.enter, fresh]
  exact if_pos room

variable (full : 256 ≤ d.queue.length)
include full

theorem Dog.enter_displaces {q : List Event} (severe : e.severity = 3) (dropped : dropNote d.queue = some q) :
    d.enter e = { d with queue := q ++ [e] } := by
  rw [Dog.enter, fresh, dropped]
  exact (if_neg (Nat.not_lt.2 full)).trans (if_pos (beq_iff_eq.2 severe))

theorem Dog.enter_lost (kept : e.severity ≠ 3 ∨ dropNote d.queue = none) :
    d.enter e = { d with lost := min 0xFFFF (d.lost + 1) } := by
  rw [Dog.enter, fresh]
  refine (if_neg (Nat.not_lt.2 full)).trans ?_
  by_cases severe : e.severity = 3
  · rw [kept.resolve_left (not_not_intro severe)]
    exact if_pos (beq_iff_eq.2 severe)
  · exact if_neg (mt beq_iff_eq.1 severe)

end

/-- Settles O56: the fold finds the first entry that tells the same, and where it finds none the room in the queue and the oldest
note decide. -/
theorem eventsFoldQueueReplaceOrAreLost : Obligations.EventsFoldQueueReplaceOrAreLost := by
  intro d e
  have apart : ∀ y : Event, (y.sent = true ∨ ¬ (y.status = e.status ∧ y.source = e.source ∧ y.gpart = e.gpart ∧ y.ctx = e.ctx ∧
      y.loc = e.loc)) → ¬ e.foldsInto y := by
    intro y other folds
    obtain ⟨unsent, tellsSame⟩ := folds
    rcases other with sent | differs
    · exact absurd sent (ne_true_of_eq_false unsent)
    · exact differs tellsSame
  refine ⟨?folds, fun others => ?fresh, d.enter_length e⟩
  case folds =>
    intro a b x queue unsent tellsSame before
    exact Dog.enter_folds (queue ▸ foldEvent_first ⟨unsent, tellsSame⟩ fun y hy => apart y (before y hy))
  case fresh =>
    have fresh := foldEvent_none fun y hy => apart y (others y hy)
    refine ⟨Dog.enter_room fresh, fun full => ⟨?displaces, ?lost⟩⟩
    case displaces =>
      intro a b x severe queue note before
      exact Dog.enter_displaces fresh full severe (queue ▸ dropNote_oldest note before)
    case lost => exact fun kept => Dog.enter_lost fresh full (kept.imp_right dropNote_none)

end Sys2Proof.Machine
end

section
/-! What the work of units leaves alone: every operation of the clusters' units, of memory, of the Cobblers and of the sync objects
keeps the control part of the state (Safety.lean). -/

namespace Sys2Proof.Machine
variable {s : State}

/-- The control part of a state, field by field as `ControlKept` compares it. -/
def State.control (s : State) : List (Nat × PairSeq) × List PairLatch × Glb × List Bool × List (Nat × Bool) × Tick × Gov ×
    List (Nat × Start) × List (Nat × LoadCtx) × LoadCtl × PartRegs × List (Nat × Nat) × LedRegs × CkptRegs × Opt × Usb × Sideband ×
    Fuses × List (List Byte) × Boot × Upd × Mgmt × Therm × Meter :=
  (s.pairSeqs, s.latches, s.glb, s.weltUp, s.weltNext, s.tick, s.gov, s.starts, s.loads, s.loader, s.partRegs, s.ctxJobs, s.ledRegs,
    s.ckptRegs, s.opt, s.usb, s.sb, s.fuses, s.flash, s.boot, s.upd, s.mgmt, s.therm, s.meter)

theorem controlKept_of_control {t : State} (h : t.control = s.control) : ControlKept s t := by
  simp only [State.control, Prod.mk.injEq] at h
  obtain ⟨pairSeqs, latches, glb, weltUp, weltNext, tick, gov, starts, loads, loader, partRegs, ctxJobs, ledRegs, ckptRegs, opt, usb,
    sb, fuses, flash, boot, upd, mgmt, therm, meter⟩ := h
  exact ⟨pairSeqs, latches, glb, weltUp, weltNext, tick, gov, starts, loads, loader, partRegs, ctxJobs, ledRegs, ckptRegs, opt, usb,
    sb, fuses, flash, boot, upd, mgmt, therm, meter⟩

theorem MemOnly.control {t : State} (h : MemOnly s t) : t.control = s.control := by rw [h]; rfl

theorem Reported.control {t : State} (h : Reported s t) : t.control = s.control := by rw [h]; rfl

/-- A fold that carries the state in one of its components keeps the control part when each step does. -/
theorem foldl_control {α β : Type} (π : β → State) {f : β → α → β} (h : ∀ b a, (π (f b a)).control = (π b).control) (l : List α)
    (b : β) :
    (π (l.foldl f b)).control = (π b).control :=
  foldl_keeps (fun x => (π x).control = (π b).control) rfl fun x a kept => (h x a).trans kept

/-- Either of two answers that carry the state. -/
theorem ite_control {α : Type} (π : α → State) {c : Prop} [Decidable c] {x y : α} {k : State} (h : (π x).control = k.control)
    (h' : (π y).control = k.control) : (π (if c then x else y)).control = k.control := by
  split
  · exact h
  · exact h'

/-- An answer beside the state: stated so that the pair is never compared with the operation that made the state. -/
theorem pair_control {α : Type} {x : α} {t k : State} (h : t.control = k.control) : (x, t).2.control = k.control := h

theorem triple_control {α β : Type} {x : α} {y : β} {t k : State} (h : t.control = k.control) : (x, y, t).2.2.control = k.control := h

/-! ### Updates of one field -/

variable (s)

@[simp] theorem State.atClk_control (at_ : Nat) : (s.atClk at_).control = s.control := rfl
@[simp] theorem State.send_control (m : Msg) : (s.send m).control = s.control := rfl
@[simp] theorem State.modMon_control (g : Nat) (f : PartMon → PartMon) : (s.modMon g f).control = s.control := rfl
@[simp] theorem State.modSync_control (g : Nat) (f : PartSync → PartSync) : (s.modSync g f).control = s.control := rfl
@[simp] theorem State.modClu_control (k : Nat) (f : Clu → Clu) : (s.modClu k f).control = s.control := rfl
@[simp] theorem State.modChan_control (ch : Nat) (f : Chan → Chan) : (s.modChan ch f).control = s.control := rfl
@[simp] theorem State.modRun_control (c : Nat) (f : CtxRun → CtxRun) : (s.modRun c f).control = s.control := rfl
@[simp] theorem State.modRunOf_control (k idx : Nat) (f : Run → Run) : (s.modRunOf k idx f).control = s.control := rfl
@[simp] theorem State.modArith_control (c : Nat) (f : Arith → Arith) : (s.modArith c f).control = s.control := rfl
@[simp] theorem State.modCens_control (c : Nat) (f : Census → Census) : (s.modCens c f).control = s.control := rfl
@[simp] theorem State.modDrift_control (c i : Nat) (f : Drift → Drift) : (s.modDrift c i f).control = s.control := rfl
@[simp] theorem State.modLed_control (c : Nat) (f : Led → Led) : (s.modLed c f).control = s.control := rfl
@[simp] theorem State.progress_control (g : Nat) : (s.progress g).control = s.control := rfl
@[simp] theorem State.stopCtx_control (c : Nat) : (s.stopCtx c).control = s.control := rfl
@[simp] theorem State.dropSend_control (id : Nat) : (s.dropSend id).control = s.control := rfl
@[simp] theorem State.endRun_control (k idx status : Nat) (stopped : Bool) : (s.endRun k idx status stopped).control = s.control := rfl
@[simp] theorem State.giveUnits_control (k idx : Nat) (us : List UnitW) (status : Nat) :
    (s.giveUnits k idx us status).control = s.control := rfl
@[simp] theorem State.qpHeard_control (q : Nat) : (s.qpHeard q).control = s.control := rfl

@[simp] theorem State.countOps_control (c cls n : Nat) : (s.countOps c cls n).control = s.control := by
  unfold State.countOps; split <;> rfl

/-! ### Reports and accesses to memory -/

@[simp] theorem State.report_control (sev src st g c l d : Nat) : (s.report sev src st g c l d).control = s.control :=
  (s.report_reported sev src st g c l d).control
@[simp] theorem State.pairNote_control (src g c l : Nat) : (s.pairNote src g c l).control = s.control := s.report_control ..
@[simp] theorem State.wallFault_control (ag : Agent) : (s.wallFault ag).control = s.control := s.report_control ..
@[simp] theorem State.markBad_control (c : Nat) : (s.markBad c).control = s.control := (s.markBad_within c).control
@[simp] theorem State.memFault_control (ag : Agent) (st sp a : Nat) : (s.memFault ag st sp a).control = s.control :=
  (s.memFault_within ag st sp a).control
@[simp] theorem State.poison_control (gk : Nat) : (s.poison gk).control = s.control := (s.poison_within gk).control
@[simp] theorem State.countCe_control (gk n : Nat) : (s.countCe gk n).control = s.control := (s.countCe_within gk n).control
@[simp] theorem State.readGran_control (gk : Nat) : (s.readGran gk).2.control = s.control := (s.readGran_within gk).control
@[simp] theorem State.urge_control (gk : Nat) : (s.urge gk).control = s.control := (s.urge_within gk).control
@[simp] theorem State.touch_control (ag : Agent) (sp a n : Nat) : (s.touch ag sp a n).2.control = s.control :=
  (s.touch_within ag sp a n).control
@[simp] theorem State.readRange_control (ag : Agent) (sp a n : Nat) : (s.readRange ag sp a n).2.2.control = s.control :=
  (s.readRange_within ag sp a n).control
@[simp] theorem State.writeRange_control (ag : Agent) (sp a : Nat) (bs : List Byte) : (s.writeRange ag sp a bs).2.control = s.control :=
  (s.writeRange_within ag sp a bs).control
@[simp] theorem State.rangeState_control (ag : Agent) (sp a n st : Nat) : (s.rangeState ag sp a n st).2.control = s.control :=
  (s.rangeState_within ag sp a n st).control
@[simp] theorem State.writeProg_control (ag : Agent) (p v : Nat) : (s.writeProg ag p v).control = s.control :=
  (s.writeProg_within ag p v).control
@[simp] theorem State.fetchRec_control (ag : Agent) (j n pos : Nat) : (s.fetchRec ag j n pos).2.2.control = s.control :=
  (s.fetchRec_within ag j n pos).control
@[simp] theorem State.granuleWrite_control (c g n unit sp a : Nat) (bs : List Byte) :
    (s.granuleWrite c g n unit sp a bs).control = s.control := s.writeRange_control ..

@[simp] theorem State.upset_control (gk : Nat) (ups : List (Nat × Nat)) : (s.upset gk ups).control = s.control := by
  refine foldl_control id (fun t u => ?_) ups s
  dsimp only [id]
  repeat' split
  all_goals rfl

/-- Writing back what a scrub corrected is memory's own. -/
theorem State.writeBacks_control (ws : List WriteBack) :
    ({ s with memc := { s.memc with writeBacks := ws } } : State).control = s.control := rfl

@[simp] theorem State.scanWords_control (gk lo hi : Nat) : (s.scanWords gk lo hi).control = s.control := by
  refine ite_control id (ite_control id ?line ?row) ?counted
  case line => exact (State.report_control ..).trans (s.poison_control gk)
  case row => exact (State.report_control ..).trans (s.poison_control gk)
  case counted => exact (State.writeBacks_control _ _).trans (s.countCe_control ..)

@[simp] theorem State.scrubBulk_control (ch : Nat) (ups : List (Nat × Nat)) : (s.scrubBulk ch ups).control = s.control := by
  unfold State.scrubBulk
  dsimp only
  repeat' split
  all_goals simp

@[simp] theorem State.scrubLine_control (k bank : Nat) (ups : List (Nat × Nat)) : (s.scrubLine k bank ups).control = s.control := by
  unfold State.scrubLine
  dsimp only
  rw [State.modClu_control]
  split <;> simp

/-! ### Sync objects (R213 to R221) -/

@[simp] theorem State.censusFail_control (c : Nat) (f : CensusFail) : (s.censusFail c f).control = s.control := by
  simp [State.censusFail]

@[simp] theorem State.breakObj_control (c g o : Nat) : (s.breakObj c g o).control = s.control := by simp [State.breakObj]

@[simp] theorem State.limitFault_control (g k n : Nat) : (s.limitFault g k n).control = s.control := by
  unfold State.limitFault
  repeat' split
  all_goals simp

@[simp] theorem State.strand_control (g n : Nat) : (s.strand g n).control = s.control := by
  unfold State.strand; split <;> simp

@[simp] theorem State.handDown_control (g n : Nat) : (s.handDown g n).control = s.control := by
  unfold State.handDown; split <;> simp

@[simp] theorem State.give_control (c g o n : Nat) : (s.give c g o n).control = s.control := by
  unfold State.give
  dsimp only
  repeat' split
  all_goals simp

@[simp] theorem State.sendsDone_control (e : Send) : (s.sendsDone e).control = s.control := by
  unfold State.sendsDone; split <;> simp

/-! ### Tile instructions -/

@[simp] theorem State.raise_control (ag : Agent) (mask row col : Nat) (e : Evs) (st : Nat) :
    (s.raise ag mask row col e st).2.control = s.control := by
  unfold State.raise
  split
  · rfl
  · dsimp only
    split <;> simp

@[simp] theorem State.storeElem_control (j : Job) (p t o : Nat) (u : Val) : (s.storeElem j p t o u).2.2.control = s.control :=
  s.writeRange_control ..

@[simp] theorem State.fetchTile_control (j : Job) (tile : Nat) : (s.fetchTile j tile).2.control = s.control := by
  refine foldl_control (β := Nat × State) Prod.snd (fun b r => ?_) _ (0, s)
  split <;> simp

@[simp] theorem State.checkDone_control (k idx : Nat) : (s.checkDone k idx).control = s.control := by
  unfold State.checkDone
  dsimp only
  split <;> simp

@[simp] theorem State.advance_control (j : Job) (k : Nat) (r : Run) (tile : Nat) : (s.advance j k r tile).control = s.control := by
  simp [State.advance]

@[simp] theorem State.putElem_control (j : Job) (k idx p t o : Nat) (f : Fold) (u : Val) :
    (s.putElem j k idx p t o f u).2.control = s.control := by
  unfold State.putElem
  dsimp only
  split <;> simp

@[simp] theorem State.putRows_control (j : Job) (k idx p : Nat) : (s.putRows j k idx p).2.control = s.control := by
  refine foldl_control (β := Option Nat × State) Prod.snd (fun acc t => ?_) _ (none, s)
  refine foldl_control (β := Option Nat × State) Prod.snd (fun a2 b => ?_) _ acc
  refine ite_control _ rfl (ite_control _ rfl (ite_control _ (by simp) (ite_control _ (by simp) ?_)))
  · have stored (x : State) (l : List (Nat × Nat)) :
        (l.foldl (fun y e => (y.writeRange j.ag j.d.space (y.dstAddr j p t e.1) (leBytes 1 e.2)).2) x).control = x.control :=
      foldl_control id (fun y e => y.writeRange_control ..) l x
    simp [stored]

@[simp] theorem State.drainBank_control (j : Job) (k idx p upTo : Nat) (accs : List (Nat × Acc)) :
    (s.drainBank j k idx p upTo accs).2.control = s.control := by
  have drained := foldl_control (α := Nat × Acc) (β := Option Nat × State) Prod.snd (f := fun acc e =>
    if acc.1.isSome || upTo < e.1 then acc
    else
      let t := e.1 / 2 ^ 24
      let o := e.1 % 2 ^ 24
      let seen := match (acc.2.clu k).runs.find? fun r => r.idx == idx with | some r => r.seen | none => []
      let x := acc.2.drainElem j p t o { acc := e.2, seen := seen }
      let s1 := acc.2.modRunOf k idx fun r => { r with seen := x.1.seen }
      s1.putElem j k idx p t o x.1 x.2) (fun acc e => by dsimp only; split <;> simp) accs (none, s)
  unfold State.drainBank
  dsimp only
  split
  · exact drained
  · exact (State.putRows_control ..).trans drained

@[simp] theorem State.runPass_control (j : Job) (k idx tile : Nat) (cover : Nat → Nat → Option (Nat × Nat))
    (accs parts : List (Nat × Acc)) :
    (s.runPass j k idx tile cover accs parts).2.2.control = s.control := by
  refine foldl_control (β := Option (Nat × Nat) × List (Nat × Acc) × State) (·.2.2) (fun acc i => ?_) _ (none, accs, s)
  dsimp only
  split
  · rfl
  · split <;> simp

@[simp] theorem State.stopPass_control (j : Job) (k idx p status key : Nat) (accs : List (Nat × Acc)) :
    (s.stopPass j k idx p status key accs).control = s.control := by simp [State.stopPass]

@[simp] theorem State.issuePass_control (c g n u : Nat) (r : Run) : (s.issuePass c g n u r).control = s.control := by
  unfold State.issuePass
  dsimp only
  repeat' split
  all_goals simp

/-! ### The Retriever -/

@[simp] theorem State.beginRet_control (c g n : Nat) (r : Run) : (s.beginRet c g n r).control = s.control := by simp [State.beginRet]

@[simp] theorem State.retState_control (c g n st : Nat) (r : Run) : (s.retState c g n st r).control = s.control := by
  unfold State.retState
  dsimp only
  rw [State.modRunOf_control, State.progress_control, State.writeProg_control]
  refine (foldl_control (β := Nat × Nat × State) (·.2.2) (fun acc row => ?_) _ _).trans (s.beginRet_control c g n r)
  split <;> simp

@[simp] theorem State.takeUnit_control (ag : Agent) (qp : Nat) (u : UnitW) : (s.takeUnit ag qp u).2.control = s.control := by
  unfold State.takeUnit; split <;> simp

/-! ### The Cobblers -/

@[simp] theorem State.cobBegin_control (ch : Nat) : (s.cobBegin ch).control = s.control := by
  unfold State.cobBegin
  dsimp only
  repeat' split
  all_goals rfl

@[simp] theorem State.dropPasses_control (hit : CobPass → Bool) (status : Option Nat) : (s.dropPasses hit status).control = s.control :=
  foldl_control (α := Nat × Chan) id (fun t x => t.cobBegin_control x.1) _ _

@[simp] theorem State.cobEnd_control (e : CobPass) (status : Nat) (stopped : Bool) :
    (s.cobEnd e status stopped).control = s.control := by
  simp [State.cobEnd]

@[simp] theorem State.slabRead_control (ag : Agent) (slabRow rec_ q i n C : Nat) :
    (s.slabRead ag slabRow rec_ q i n C).2.2.control = s.control := by
  refine foldl_control (β := Nat × List Byte × State) (·.2.2) (fun acc j => ?_) _ (0, [], s)
  dsimp only
  split <;> simp

@[simp] theorem State.slabWrite_control (ag : Agent) (slabRow rec_ q i C : Nat) (bs : List Byte) :
    (s.slabWrite ag slabRow rec_ q i C bs).control = s.control :=
  foldl_control id (fun t _ => t.writeRange_control ..) _ s

@[simp] theorem State.slotWord_control (ag : Agent) (progCm q phase count : Nat) :
    (s.slotWord ag progCm q phase count).control = s.control := s.writeRange_control ..

@[simp] theorem State.slotDone_control (e : CobPass) (ag : Agent) (p : CobP) (ch q count : Nat) :
    (s.slotDone e ag p ch q count).control = s.control := by simp [State.slotDone]

@[simp] theorem State.ledgerSlot_control (ag : Agent) (r : Run) (q C count : Nat) :
    (s.ledgerSlot ag r q C count).control = s.control := by
  unfold State.ledgerSlot; split <;> rfl

@[simp] theorem State.cobRecord_control (ag : Agent) (p : CobP) (r : Run) (q C i ch : Nat) :
    (s.cobRecord ag p r q C i ch).2.2.control = s.control := by
  unfold State.cobRecord
  extract_lets K hi lo m v g ge fails H gel x s1 s2 s3 s4
  have read : ge.2.2.control = s.control := by simp [ge, g, v, m, lo, hi]
  have cobbled : x.2.control = ge.2.2.control :=
    foldl_control (β := CobRow × State) Prod.snd (fun acc k => ite_control Prod.snd rfl (State.raise_control ..)) _ _
  have stored : s4.control = x.2.control := by simp [s4, s3, s2, s1]
  clear_value fails
  cases fails with
  | cons f rest => exact read
  | nil => simpa using stored.trans (cobbled.trans read)

@[simp] theorem State.emitRecord_control (ag : Agent) (p : CobP) (w : WSet) (f : Fmt) (side : Bool) (r : Run) (q C i : Nat) :
    (s.emitRecord ag p w f side r q C i).2.control = s.control := by
  unfold State.emitRecord
  extract_lets hi hs n e ev sides s1 s2
  have read : hi.2.2.control = s.control := s.slabRead_control ..
  have raised : ev.2.control = hi.2.2.control :=
    foldl_control (β := Option Nat × State) Prod.snd (fun acc x => ite_control Prod.snd rfl (State.raise_control ..)) _ _
  have stored : s2.control = ev.2.control := (State.writeRange_control ..).trans (State.slabWrite_control ..)
  exact ite_control Prod.snd read (pair_control (stored.trans (raised.trans read)))

end Sys2Proof.Machine
end

section
/-! The commands that do units' work, one by one, and what they leave alone (Safety.lean). -/

namespace Sys2Proof.Machine
variable {s : State}

/-- Where the command is answered with a next state, that state has the control part of `s`. -/
def ControlStays (s : State) (o : Host.Outcome State Fault Refusal) : Prop := ∀ t, o = .next t → t.control = s.control

theorem ControlStays.next {t : State} (h : t.control = s.control) : ControlStays s (.next t) := fun _ e => by cases e; exact h

theorem ControlStays.ite {c : Prop} [Decidable c] {o p : Host.Outcome State Fault Refusal} (h : ControlStays s o) (k : ControlStays s p) :
    ControlStays s (if c then o else p) := by
  split
  · exact h
  · exact k

theorem execRecordDispatch_control (g n at_ : Nat) : ControlStays s (execRecordDispatch g n at_ s) := by
  unfold execRecordDispatch
  dsimp only
  repeat' split
  all_goals exact .next (by simp)

theorem execStepEndMark_control (g n : Nat) : ControlStays s (execStepEndMark g n s) := by
  unfold execStepEndMark
  dsimp only
  repeat' split
  all_goals exact .next (by simp)

theorem execPassIssue_control (g n u at_ : Nat) : ControlStays s (execPassIssue g n u at_ s) := by
  unfold execPassIssue
  dsimp only
  split
  · exact .next rfl
  refine .ite (.next rfl) ?_
  split
  · exact .next rfl
  · exact .next (ite_control id (by simp) rfl)

theorem execAwlTileIssue_control (g n at_ : Nat) : ControlStays s (execAwlTileIssue g n at_ s) := by
  unfold execAwlTileIssue
  dsimp only
  repeat' split
  all_goals exact .next (by simp)

theorem execBankDrain_control (g n u at_ : Nat) : ControlStays s (execBankDrain g n u at_ s) := by
  unfold execBankDrain
  dsimp only
  repeat' split
  all_goals exact .next (by simp)

theorem execCodebookCalibrate_control (c instr grp : Nat) : ControlStays s (execCodebookCalibrate c instr grp s) := by
  unfold execCodebookCalibrate
  extract_lets im ag fr p w C rows x b ol outs s1
  have fetched : fr.2.2.control = s.control := s.readRange_control ..
  have rowsRead : x.2.2.control = fr.2.2.control :=
    foldl_control (β := Nat × List (List Nat) × State) (·.2.2) (fun _ _ =>
      ite_control (α := Nat × List (List Nat) × State) (·.2.2) rfl (triple_control (State.slabRead_control ..))) _ _
  have read : ol.2.2.control = s.control := by simp only [ol, b, State.readRange_control, rowsRead, fetched]
  refine .ite (.next fetched) (.ite (.next read) ?_)
  split
  · exact .next (by simp only [State.writeRange_control, State.modArith_control, s1, read])
  · exact .next (by simp only [State.report_control, State.modArith_control, s1, read])

theorem execDriftSample_control (g n idx blk : Nat) : ControlStays s (execDriftSample g n idx blk s) := by
  unfold execDriftSample
  split
  · exact .ite (.next rfl) (.next (by simp))
  · exact .next rfl

theorem execGranuleRead_control (c g n unit space addr : Nat) (ups : List (Nat × Nat)) :
    ControlStays s (execGranuleRead c g n unit space addr ups s) := by
  unfold execGranuleRead
  dsimp only
  repeat' split
  all_goals exact .next (by simp)

theorem execEccWriteback_control (cm : Bool) (idx : Nat) : ControlStays s (execEccWriteback cm idx s) := by
  unfold execEccWriteback
  dsimp only
  split
  · exact .next rfl
  · exact .ite (.next (State.poison_control ..)) (.next rfl)

theorem execGranuleWrite_control (c g n unit space addr : Nat) (bytes : List Byte) :
    ControlStays s (execGranuleWrite c g n unit space addr bytes s) := by
  unfold execGranuleWrite
  refine .ite (.next rfl) ?_
  split
  · exact .next (by simp)
  · exact .next (by simp)

theorem execScrubAccess_control (cm : Bool) (idx bank at_ : Nat) (ups : List (Nat × Nat)) :
    ControlStays s (execScrubAccess cm idx bank at_ ups s) :=
  .ite (.ite (.next (State.scrubLine_control ..)) (.next rfl)) (.ite (.next (State.scrubBulk_control ..)) (.next rfl))

theorem execRetrieverFillZeros_control (g n at_ : Nat) : ControlStays s (execRetrieverFillZeros g n at_ s) := by
  unfold execRetrieverFillZeros
  dsimp only
  repeat' split
  all_goals exact .next (by simp)

theorem execRetrieverDefineZero_control (g n at_ : Nat) : ControlStays s (execRetrieverDefineZero g n at_ s) := by
  unfold execRetrieverDefineZero
  dsimp only
  repeat' split
  all_goals exact .next (by simp)

theorem execRetrieverInvalidate_control (g n at_ : Nat) : ControlStays s (execRetrieverInvalidate g n at_ s) := by
  unfold execRetrieverInvalidate
  dsimp only
  repeat' split
  all_goals exact .next (by simp)

theorem execUnitAccept_control (g n at_ : Nat) : ControlStays s (execUnitAccept g n at_ s) := by
  unfold execUnitAccept
  dsimp only
  split
  · exact .next rfl
  split
  · exact .next rfl
  split
  · exact .next rfl
  refine .ite (.next rfl) (.ite (.next ?urged) (.ite (.next ?ended) (.next ?taken)))
  case urged => split <;> simp
  case ended => simp
  case taken => exact (State.modRunOf_control ..).trans (ite_control id (by simp) (by simp))

theorem execLocalSendApply_control (id at_ : Nat) : ControlStays s (execLocalSendApply id at_ s) := by
  unfold execLocalSendApply
  dsimp only
  repeat' split
  all_goals exact .next (by simp)

theorem execRemoteSendApply_control (id at_ : Nat) : ControlStays s (execRemoteSendApply id at_ s) := by
  unfold execRemoteSendApply
  dsimp only
  split
  · exact .next rfl
  · exact .ite (.next rfl) (.next (ite_control (fun x => x) (State.strand_control ..) (State.give_control ..)))

theorem execSendAckReceive_control (id at_ : Nat) : ControlStays s (execSendAckReceive id at_ s) := by
  unfold execSendAckReceive
  dsimp only
  repeat' split
  all_goals exact .next (by simp)

theorem execCobblerQueueEnter_control (ch : Nat) : ControlStays s (execCobblerQueueEnter ch s) := by
  unfold execCobblerQueueEnter
  dsimp only
  split
  · exact .next rfl
  · exact .ite (.next rfl) (.next ((State.cobBegin_control ..).trans (ite_control id rfl rfl)))

theorem execCobblerUpdate_control (ch : Nat) : ControlStays s (execCobblerUpdate ch s) := by
  unfold execCobblerUpdate
  split
  · exact .next rfl
  · extract_lets p C ag pag x s0 s1
    have cobbled : x.2.2.control = s.control :=
      foldl_control (β := Nat × Nat × State) (·.2.2) (fun _ _ =>
        ite_control (α := Nat × Nat × State) (·.2.2) rfl (triple_control (State.cobRecord_control ..))) _ _
    have stored : s1.control = x.2.2.control := by simp [s1, s0]
    have done := stored.trans cobbled
    exact .ite (.next ((State.cobEnd_control ..).trans done)) (.ite (.next ((State.slotDone_control ..).trans done)) (.next done))

theorem execCobblerEmit_control (ch : Nat) : ControlStays s (execCobblerEmit ch s) := by
  unfold execCobblerEmit
  split
  · exact .next rfl
  · extract_lets p C ag pag w fallen f x mons s1 s2
    have emitted : x.2.2.control = s.control :=
      foldl_control (β := Nat × Nat × State) (·.2.2) (fun _ _ =>
        ite_control (α := Nat × Nat × State) (·.2.2) rfl (triple_control (State.emitRecord_control ..))) _ _
    have watched : s1.control = x.2.2.control :=
      foldl_control (β := Nat × State) Prod.snd (fun acc i => ite_control id ((State.slabWrite_control ..).trans (State.slabRead_control ..))
        (State.slabRead_control ..)) _ _
    have stored : s2.control = s1.control := by simp [s2]
    have done := stored.trans (watched.trans emitted)
    exact .ite (.next ((State.cobEnd_control ..).trans done)) (.next ((State.slotDone_control ..).trans done))

/-- Settles O57, command by command: none of the operations of units' work writes a field of the control part. -/
theorem unitWorkLeavesControlAlone : Obligations.UnitWorkLeavesControlAlone := by
  intro i s t work answered
  refine controlKept_of_control ((?_ : ControlStays s (exec i s)) t answered)
  cases i with
  | recordDispatch g n at_ => exact execRecordDispatch_control g n at_
  | stepEndMark g n => exact execStepEndMark_control g n
  | passIssue g n u at_ => exact execPassIssue_control g n u at_
  | awlTileIssue g n at_ => exact execAwlTileIssue_control g n at_
  | bankDrain g n u at_ => exact execBankDrain_control g n u at_
  | codebookCalibrate c instr grp => exact execCodebookCalibrate_control c instr grp
  | driftSample g n idx blk => exact execDriftSample_control g n idx blk
  | granuleRead c g n unit space addr ups => exact execGranuleRead_control c g n unit space addr ups
  | eccWriteback cm idx => exact execEccWriteback_control cm idx
  | granuleWrite c g n unit space addr bytes => exact execGranuleWrite_control c g n unit space addr bytes
  | scrubAccess cm idx bank at_ ups => exact execScrubAccess_control cm idx bank at_ ups
  | retrieverFillZeros g n at_ => exact execRetrieverFillZeros_control g n at_
  | retrieverDefineZero g n at_ => exact execRetrieverDefineZero_control g n at_
  | retrieverInvalidate g n at_ => exact execRetrieverInvalidate_control g n at_
  | unitAccept g n at_ => exact execUnitAccept_control g n at_
  | localSendApply id at_ => exact execLocalSendApply_control id at_
  | remoteSendApply id at_ => exact execRemoteSendApply_control id at_
  | sendAckReceive id at_ => exact execSendAckReceive_control id at_
  | cobblerQueueEnter ch => exact execCobblerQueueEnter_control ch
  | cobblerUpdate ch => exact execCobblerUpdate_control ch
  | cobblerEmit ch => exact execCobblerEmit_control ch
  | _ => exact absurd work Bool.false_ne_true

end Sys2Proof.Machine
end

section
/-! The commands and writes of the fabric block (spec/15_fabric_links_and_topology.md R331, R335, R337, R342, R358). -/

namespace Sys2Proof.Machine
variable {s : State}

/-- The fabric block with the port of its last command written. -/
def State.fabNamed (s : State) (p : Nat) : State := { s with fab := { s.fab with cmdPort := p } }

theorem State.fabCmd_port {p : Nat} (act : State → State) (known : p ≤ 22) : s.fabCmd p act = act (s.fabNamed p) :=
  if_neg (Nat.not_lt.2 known)

theorem State.fabCmd_beyond {p : Nat} (act : State → State) (beyond : 22 < p) : s.fabCmd p act = (s.fabNamed p).fabRefuse :=
  if_pos beyond

section
variable {p : Nat} (known : p ≤ 22)
include known

theorem execFabRetrain_port :
    execFabRetrain p s = .next (if (s.port p).state = 0 then s.fabNamed p else (s.fabNamed p).portDown p) := by
  refine congrArg Host.Outcome.next ((State.fabCmd_port _ known).trans ?_)
  exact ite_of_iff beq_iff_eq _ _

theorem execFabFullSearch_port :
    execFabFullSearch p s = .next (if (s.port p).state = 0 then s.fabNamed p
      else ((s.fabNamed p).portDown p).modPort p fun x => { x with search := true }) := by
  refine congrArg Host.Outcome.next ((State.fabCmd_port _ known).trans ?_)
  exact ite_of_iff beq_iff_eq _ _

theorem execFabPortOn_port :
    execFabPortOn p s = .next (if (s.port p).state = 0 then (s.fabNamed p).modPort p fun x => { x with state := 1, search := false }
      else if (s.port p).state = 4 then (s.fabNamed p).portDown p else s.fabNamed p) := by
  refine congrArg Host.Outcome.next ((State.fabCmd_port _ known).trans ?_)
  refine (ite_of_iff beq_iff_eq _ _).trans (if_congr Iff.rfl rfl ?_)
  exact ite_of_iff beq_iff_eq _ _

end

/-- The roles that a device write may give, from the role it has (R335). -/
theorem fabDevWrite_allowed (now role dev : Nat) (bound : Bool) :
    ((now == 0 && role == 1 && dev != 0xFFF) || (now == 0 && role == 2) || (now == 2 && role == 1 && dev != 0xFFF) ||
      (now == 1 && role == 2 && !bound)) = true ↔
    (now = 0 ∧ role = 1 ∧ dev ≠ 0xFFF) ∨ (now = 0 ∧ role = 2) ∨ (now = 2 ∧ role = 1 ∧ dev ≠ 0xFFF) ∨
      (now = 1 ∧ role = 2 ∧ bound = false) := by
  simp only [Bool.or_eq_true, Bool.and_eq_true, beq_iff_eq, bne_iff_ne, Bool.not_eq_true', and_assoc, or_assoc]

/-- Settles O34, command by command: the port's number and state, the device's roles, and the contexts bound to a slot decide. -/
theorem fabricCommandsTakeEffectOrAreRefused : Obligations.FabricCommandsTakeEffectOrAreRefused := by
  intro s refused
  refine ⟨?commit, fun p known => ?port, fun p beyond => ?beyond, fun value => ?device, fun slot value => ?job,
    fun slot value => ?epoch, fun c value => ?binding⟩
  case commit => exact ite_next_of_iff Iff.rfl rfl
  case port =>
    exact ⟨execFabRetrain_port known, execFabFullSearch_port known, congrArg _ (State.fabCmd_port _ known),
      execFabPortOn_port known⟩
  case beyond =>
    have isRefused (act : State → State) :
        Host.Outcome.next (s.fabCmd p act) = (.next (s.fabNamed p).fabRefuse : Host.Outcome State Fault Refusal) :=
      congrArg _ (State.fabCmd_beyond act beyond)
    simp only [List.forall_mem_cons, List.not_mem_nil, false_implies, implies_true, and_true]
    exact ⟨isRefused _, isRefused _, isRefused _, isRefused _⟩
  case device => exact ite_next_of_iff (fabDevWrite_allowed ..) rfl
  case job => exact ite_next_of_iff Iff.rfl rfl
  case epoch => exact ite_next_of_iff Iff.rfl rfl
  case binding =>
    refine ite_next_of_iff ?_ rfl
    rw [Bool.and_eq_true, beq_iff_eq, beq_iff_eq]

end Sys2Proof.Machine
end

section
/-! Contexts, leases and the event queue (spec/17_partitions_reset_and_recovery.md R364, R365, R376, R377, R381 to R384). -/

namespace Sys2Proof.Machine
variable {s : State}

/-! ### Assignment and the next context (R364, R365) -/

theorem execPartAssignWrite_allowed {c mask : Nat} (allowed : s.assignRefusal c mask = none) :
    execPartAssignWrite c mask s = .next (s.modRun c fun r => { r with assign := pairOf 64 mask }) := by
  simp only [execPartAssignWrite, allowed]

theorem execPartAssignWrite_refused {c mask r : Nat} (refused : s.assignRefusal c mask = some r) :
    execPartAssignWrite c mask s = .next (s.partRefuse r) := by
  simp only [execPartAssignWrite, refused]

/-! ### Stop and abort (R381, R384) -/

/-- The context register of the partition command, as an abort writes it, the context stopped. -/
def State.abortStopped (s : State) (c at_ : Nat) : State :=
  { s.atClk at_ with partRegs := { s.partRegs with ctx := c } }.stopCtx c

/-- The records of a context abandoned in every partition where it is resident. -/
def State.abandonAll (s : State) (c : Nat) (gs : List Nat) : State := (gs.foldl (fun (t : State) g => t.abandon g) s).dropCobblers c

section
variable {c : Nat} (at_ : Nat)

theorem execCtxAbort_idle (idle : s.noRecords c = true) :
    let s2 := s.abortStopped c at_
    execCtxAbort c at_ s = .next { s2 with partRegs := { s2.partRegs with lastStatus := stAlreadyDone } } :=
  if_pos idle

theorem execCtxAbort_running (running : s.noRecords c = false) :
    let st := ((s.abortStopped c at_).abandonAll c ((s.partsOf c).filter fun g => s.residentOf g == some c)).settle c
    let s4 := if st.1 = true then st.2 else st.2.report 2 4 stCensus noPart c
    execCtxAbort c at_ s = .next { s4 with partRegs := { s4.partRegs with lastStatus := stAborted } } :=
  if_neg (ne_true_of_eq_false running)

end

/-! ### The lease (R376, R377) -/

/-- A grant is refused and counted. -/
def State.grantRefused (s : State) : State :=
  { s with dog := { s.dog with grantsRefused := satAdd 255 s.dog.grantsRefused 1 } }

section
variable {value : Nat} (at_ : Nat)

theorem execLeaseGrant_older (older : fld value 31 16 < fld s.dog.lease.v.toNat 31 16) :
    execLeaseGrant value at_ s = .next (s.atClk at_).grantRefused :=
  if_pos older

variable (current : fld s.dog.lease.v.toNat 31 16 ≤ fld value 31 16)
include current

theorem execLeaseGrant_runs (lasts : fld value 11 0 ≠ 0) :
    let s1 := s.atClk at_
    execLeaseGrant value at_ s = .next { s1 with dog := { s.dog with
      lease := pairOf 32 (at' (fld value 31 16) 16 + fld value 11 0), leaseState := 1,
      leaseEnd := s1.clk + fld value 11 0 * 1100000 } } :=
  (if_neg (Nat.not_lt.2 current)).trans (if_neg (mt beq_iff_eq.1 lasts))

theorem execLeaseGrant_off (ends : fld value 11 0 = 0) :
    let s1 := s.atClk at_
    execLeaseGrant value at_ s = .next (if (s.starts.any fun e => e.2.state == 3) = true then s1.grantRefused
      else { s1 with dog := { s.dog with lease := pairOf 32 (at' (fld value 31 16) 16), leaseState := 0, leaseEnd := 0 } }) := by
  refine (if_neg (Nat.not_lt.2 current)).trans ((if_pos (beq_iff_eq.2 ends)).trans ?_)
  exact ite_next_of_iff Iff.rfl rfl

end

/-- What a lapse does: it is reported, every loaded context stops, and phases, transfers, waiting packets and drains end. -/
def State.lapse (s : State) : State :=
  let s2 := { s with dog := { s.dog with leaseState := 2, lapses := satAdd 255 s.dog.lapses 1 } }.report 3 13 stLeaseLost
  let s3 := (((s.loads.filter fun e => e.2.state == 4).map (·.1)).foldl State.stopCtx s2).endPhases stLeaseLost
  let s4 := (s3.leds.map (·.1)).foldl (fun (t : State) c =>
    if (t.led c).sends.isEmpty then t else t.modLed c fun l => { l with sends := [], lastStatus := stLeaseLost }) s3
  let s5 := { s4 with fab := { s4.fab with waiting := [] } }
  (s5.ckpts.map (·.1)).foldl (fun (t : State) c => if (t.ckpt c).state == 2 then t.ckptEnd c stLeaseLost 0 else t) s5

theorem execLeaseLapse_not (at_ : Nat) (runs : s.dog.leaseState ≠ 1 ∨ (s.atClk at_).clk < s.dog.leaseEnd) :
    execLeaseLapse at_ s = .next (s.atClk at_) := by
  refine if_pos ?_
  rw [Bool.or_eq_true, bne_iff_ne, decide_eq_true_iff]
  exact runs

theorem execLeaseLapse_over (at_ : Nat) (running : s.dog.leaseState = 1) (expired : s.dog.leaseEnd ≤ (s.atClk at_).clk) :
    execLeaseLapse at_ s = .next (s.atClk at_).lapse := by
  refine if_neg ?_
  rw [Bool.or_eq_true, bne_iff_ne, decide_eq_true_iff]
  exact not_or.2 ⟨not_not_intro running, Nat.not_lt.2 expired⟩


/-- Settles O39, command by command: what is assigned, what is in flight, the lease's term and time, and an entry's severity decide. -/
theorem contextsLeasesAndTheEventQueueObeyTheirCommands : Obligations.ContextsLeasesAndTheEventQueueObeyTheirCommands := by
  intro s
  refine ⟨fun c mask allowed => execPartAssignWrite_allowed allowed, fun c mask r refused => execPartAssignWrite_refused refused,
    fun g value => ⟨fun named => ?next, fun cleared => ?clears⟩, fun c => rfl,
    fun c at_ => ⟨execCtxAbort_idle at_, execCtxAbort_running at_⟩,
    fun value at_ => ⟨execLeaseGrant_older at_, execLeaseGrant_runs at_, execLeaseGrant_off at_⟩,
    fun at_ => ⟨execLeaseLapse_not at_, execLeaseLapse_over at_⟩, ?ack, rfl⟩
  case next => exact (if_pos named).trans (ite_next_of_iff Iff.rfl rfl)
  case clears => exact if_neg (ne_true_of_eq_false cleared)
  case ack =>
    have marks : (fun e : Event => if (e.severity == 3) = true then { e with acked := true } else e) =
        fun e => if e.severity = 3 then { e with acked := true } else e :=
      funext fun e => ite_of_iff beq_iff_eq _ _
    show execSheepdogAck s = _
    rw [execSheepdogAck, marks]

end Sys2Proof.Machine
end

section
/-! Power, reset and the boot ROM (spec/18_bring_up.md R385 to R392, R398; spec/22_electrical_and_package.md R468, R476). -/

namespace Sys2Proof.Machine
variable {s : State}

/-- Reset is released and the PLL has not locked yet (R388). -/
def Boot.Waits (b : Boot) : Prop := b.vaon = true ∧ b.above = true ∧ b.tripHold = false ∧ b.locked = false ∧ b.state = 0

theorem Boot.waits_iff (b : Boot) :
    (!b.vaon || !b.above || b.tripHold || b.locked || b.state != 0) = false ↔ b.Waits := by
  simp only [Boot.Waits, Bool.or_eq_false_iff, Bool.not_eq_false', bne_eq_false_iff_eq, and_assoc]

theorem execVAonValid_rises (low : s.boot.vaon = false) : execVAonValid s = .next { s.lost with boot := { vaon := true } } :=
  if_neg (ne_true_of_eq_false low)

section
variable (at_ : Nat)

theorem execVbusAbove_rises (vaon : s.boot.vaon = true) (below : s.boot.above = false) :
    execVbusAbove at_ s = .next { s.atClk at_ with boot := { s.boot with above := true } }.release := by
  refine if_neg ?_
  simp only [State.atClk_boot, vaon, below]
  decide

theorem execBrownOut_eq :
    execBrownOut at_ s =
      .next (if s.boot.vaon = true ∧ s.boot.above = true then (s.atClk at_).brownOut else s.atClk at_) :=
  congrArg _ (ite_of_iff (Bool.and_eq_true _ _ ▸ Iff.rfl) _ _)

/-- The PLL has locked and BOOT_SEL is sampled (R388). -/
def State.pllLocked (s : State) (sel : Nat) : State := { s with boot := { s.boot with locked := true, bootSel := sel % 4 } }

section
variable (waits : s.boot.Waits)
include waits

theorem execPllLockTimeout_waits :
    execPllLockTimeout at_ s =
      .next (if (s.atClk at_).clk < s.boot.releaseClk + 2200000 then s.atClk at_ else (s.atClk at_).bootHalt 4) := by
  refine ite_next_of_iff ?_ rfl
  rw [State.atClk_boot, s.boot.waits_iff.2 waits, Bool.false_or, decide_eq_true_iff]

variable {sel : Nat} (inTime : (s.atClk at_).clk ≤ s.boot.releaseClk + 2200000)
include inTime

/-- The guard of a lock within 2 ms, as the command tests it. -/
theorem State.lock_inTime : ¬ (!s.boot.vaon || !s.boot.above || s.boot.tripHold || s.boot.locked || s.boot.state != 0 ||
    decide (s.boot.releaseClk + 2200000 < (s.atClk at_).clk)) = true := by
  rw [s.boot.waits_iff.2 waits, Bool.false_or, decide_eq_true_iff]
  exact Nat.not_lt.2 inTime

theorem execPllLock_broken (broken : s.fusesOk = false) :
    execPllLock sel at_ s = .next ((((s.atClk at_).pllLocked sel).bootHalt 1).report 3 15 stPairBroken) :=
  (if_neg (State.lock_inTime at_ waits inTime)).trans (if_pos ((Bool.not_eq_true' _).mpr broken))

theorem execPllLock_boots (sound : s.fusesOk = true) :
    let s2 := (s.atClk at_).pllLocked sel
    execPllLock sel at_ s = .next (if sel % 4 = 3 ∧ s.boot.selZero = false then s2.romWait
      else { s2 with boot := { s2.boot with state := 1 } }) := by
  have intact : ¬ (!s.fusesOk) = true := by
    rw [sound]
    decide
  refine (if_neg (State.lock_inTime at_ waits inTime)).trans ((if_neg intact).trans (ite_next_of_iff ?_ rfl))
  rw [State.atClk_boot, Bool.and_eq_true, beq_iff_eq, Bool.not_eq_true']

end

variable (bad : List (Nat × List Nat)) (cfg : FlashConfig)

/-- The state of a choice of a slot: the candidate's, or else what follows when none is accepted. -/
def slotOr (x : Option State × State) (otherwise : State → State) : State :=
  match x.1 with
  | some t => t
  | none => otherwise x.2

theorem execBootSlotRead_reads (reads : s.boot.state = 1) :
    execBootSlotRead bad cfg at_ s =
      .next (slotOr ((s.atClk at_).chooseSlot (if s.boot.selZero then 0 else s.boot.bootSel) bad cfg) State.romWait) :=
  if_neg (mt bne_iff_ne.1 (not_not_intro reads))

theorem execLeaveRomWait_leaves (waits : s.boot.state = 7) :
    execLeaveRomWait bad cfg at_ s = .next (slotOr ((s.atClk at_).chooseSlot 0 bad cfg) (·.bootHalt 2)) :=
  if_neg (mt bne_iff_ne.1 (not_not_intro waits))

end

/-- Settles O41, command by command: V_AON, the comparator, the PLL and the boot state decide. -/
theorem powerComesAndGoesAndTheRomBoots : Obligations.PowerComesAndGoesAndTheRomBoots := by
  intro s kept
  refine ⟨execVAonValid_rises, rfl, fun at_ => ⟨execVbusAbove_rises at_, execBrownOut_eq at_, fun sel waits inTime => ?lock,
    execPllLockTimeout_waits at_, fun bad cfg => ⟨execBootSlotRead_reads at_ bad cfg, execLeaveRomWait_leaves at_ bad cfg⟩⟩⟩
  exact ⟨execPllLock_broken at_ waits inTime, execPllLock_boots at_ waits inTime⟩

end Sys2Proof.Machine
end

section
/-! The PCIe host port (spec/19_host_and_service_ports.md R400 to R405, R416, R417, R419). -/

namespace Sys2Proof.Machine
variable {s : State}

/-! ### Requests of the host (R402, R403) -/

/-- Where in its context's bulk space a request through a function's aperture lies. -/
def State.aperAddr (s : State) (f off : Nat) : Nat := (s.fn f).aperBase * 2 ^ 28 + off

/-- How many bytes a request moves. -/
def inboundLen (write : Bool) (len : Nat) (bytes : List Byte) : Nat := if write then bytes.length else len

section
variable {f off len : Nat} {write : Bool} {bytes : List Byte} (at_ : Nat)

theorem execHostInboundRequest_reset (resetting : (s.fn f).flr = true) :
    execHostInboundRequest f write off len bytes at_ s =
      .next (if write = true then s.atClk at_ else (s.atClk at_).send (.completion f 1 [])) :=
  if_pos resetting

variable (active : (s.fn f).flr = false)
include active

theorem execHostInboundRequest_noAperture (invalid : (s.fn f).aperValid = false) :
    execHostInboundRequest f write off len bytes at_ s =
      .next (((s.atClk at_).refuseInbound f 1 write).tellOut f noCtx) :=
  (if_neg (ne_true_of_eq_false active)).trans (if_pos ((Bool.not_eq_true' _).mpr invalid))

variable (valid : (s.fn f).aperValid = true)
include valid

/-- With a valid aperture and no reset the range decides. -/
theorem execHostInboundRequest_valid :
    let s1 := s.atClk at_
    let c := (s.fn f).aperCtx
    let a := s.aperAddr f off
    let n := inboundLen write len bytes
    let r := s1.readRange (portAgent c) 0 a n
    execHostInboundRequest f write off len bytes at_ s =
      if s.bulkEnd c < a + n then .next ((s1.refuseInbound f 1 write).memFault (portAgent c) stOutOfWindow 0 (max a (s.bulkEnd c)))
      else if s1.rangeCut c a n then .next ((s1.refuseInbound f 2 write).tellFenced f c ((s1.rangeCut? c a n).getD noPart))
      else if write then
        if s1.rangeWaits c a n then .next (s1.urgeAll c a n) else .next (s1.writeRange (portAgent c) 0 a bytes).2
      else .next (if r.1 == 0 then r.2.2.send (.completion f 0 r.2.1) else r.2.2.send (.completion f 3 (List.replicate n 0xFF))) := by
  have opened : ¬ (!(s.fn f).aperValid) = true := by
    rw [valid]
    decide
  exact (if_neg (ne_true_of_eq_false active)).trans (if_neg opened)

theorem execHostInboundRequest_beyond (beyond : s.bulkEnd (s.fn f).aperCtx < s.aperAddr f off + inboundLen write len bytes) :
    let c := (s.fn f).aperCtx
    execHostInboundRequest f write off len bytes at_ s =
      .next (((s.atClk at_).refuseInbound f 1 write).memFault (portAgent c) stOutOfWindow 0 (max (s.aperAddr f off) (s.bulkEnd c))) :=
  (execHostInboundRequest_valid at_ active valid).trans (if_pos beyond)

variable (inside : s.aperAddr f off + inboundLen write len bytes ≤ s.bulkEnd (s.fn f).aperCtx)
include inside

theorem execHostInboundRequest_cut
    (cut : (s.atClk at_).rangeCut (s.fn f).aperCtx (s.aperAddr f off) (inboundLen write len bytes) = true) :
    let s1 := s.atClk at_
    let c := (s.fn f).aperCtx
    execHostInboundRequest f write off len bytes at_ s =
      .next ((s1.refuseInbound f 2 write).tellFenced f c
        ((s1.rangeCut? c (s.aperAddr f off) (inboundLen write len bytes)).getD noPart)) :=
  (execHostInboundRequest_valid at_ active valid).trans ((if_neg (Nat.not_lt.2 inside)).trans (if_pos cut))

variable (whole : (s.atClk at_).rangeCut (s.fn f).aperCtx (s.aperAddr f off) (inboundLen write len bytes) = false)
include whole

theorem execHostInboundRequest_write (writes : write = true) :
    let s1 := s.atClk at_
    let c := (s.fn f).aperCtx
    let a := s.aperAddr f off
    let n := inboundLen write len bytes
    execHostInboundRequest f write off len bytes at_ s =
      .next (if s1.rangeWaits c a n = true then s1.urgeAll c a n else (s1.writeRange (portAgent c) 0 a bytes).2) := by
  refine (execHostInboundRequest_valid at_ active valid).trans ((if_neg (Nat.not_lt.2 inside)).trans ?_)
  exact (if_neg (ne_true_of_eq_false whole)).trans ((if_pos writes).trans (ite_next_of_iff Iff.rfl rfl))

theorem execHostInboundRequest_read (reads : write = false) :
    let c := (s.fn f).aperCtx
    let n := inboundLen write len bytes
    let r := (s.atClk at_).readRange (portAgent c) 0 (s.aperAddr f off) n
    execHostInboundRequest f write off len bytes at_ s =
      .next (if r.1 = stOk then r.2.2.send (.completion f 0 r.2.1)
        else r.2.2.send (.completion f 3 (List.replicate n 0xFF))) := by
  refine (execHostInboundRequest_valid at_ active valid).trans ((if_neg (Nat.not_lt.2 inside)).trans ?_)
  refine (if_neg (ne_true_of_eq_false whole)).trans ((if_neg (ne_true_of_eq_false reads)).trans ?_)
  exact congrArg _ (ite_of_iff beq_iff_eq _ _)

end

/-! ### Completions of the host's reads (R402, R404) -/

/-- The record whose read a freed tag was ends with a status. -/
def State.endCopy (s : State) (t : PortTag) (status : Nat) : State :=
  match (s.clu (18 * t.g + t.n)).runs.find? fun r => r.idx == t.idx with
  | none => s
  | some r => s.endPort (18 * t.g + t.n) r status

theorem State.endCopy_next (t : PortTag) (status : Nat) :
    (match (s.clu (18 * t.g + t.n)).runs.find? fun r => r.idx == t.idx with
      | none => Host.Outcome.next s
      | some r => .next (s.endPort (18 * t.g + t.n) r status)) = (.next (s.endCopy t status) : Host.Outcome State Fault Refusal) := by
  rw [State.endCopy]
  split <;> rfl

/-- The guard of a host tag, as both commands test it. -/
theorem PortTag.of_host {t : PortTag} (mine : t.space = 2) : ¬ (t.space != 2) = true := mt bne_iff_ne.1 (not_not_intro mine)

section
variable {tag : Nat} {t : PortTag} (at_ : Nat) (opened : s.tagOf tag = some t) (mine : t.space = 2)
include opened mine

theorem execHostCompletionReceive_found (status : Nat) (bs : List Byte) :
    let s1 := s.atClk at_
    let s2 := s1.freeTagId tag
    execHostCompletionReceive tag status at_ bs s =
      if t.quarantined then .next s2.pumpPorts
      else if t.op == 1 then .next (s1.loadAnswer t (if status == 0 then 0 else stHostCompletion) bs)
      else if status == 0 then .next (s2.feedCopy t bs).pumpPorts
      else .next (s2.endCopy t stHostCompletion) := by
  intro s1 s2
  simp only [execHostCompletionReceive, State.atClk_tagOf, opened, if_neg (PortTag.of_host mine), ← State.endCopy_next]
  rfl

theorem execHostCompletionTimeout_found :
    let s1 := s.atClk at_
    let s2 := s1.freeTagId tag
    execHostCompletionTimeout tag at_ s =
      if s1.clk < t.clk + s.host.cplTimeout * 1100000 then .next s1
      else if t.quarantined then .next s2.pumpPorts
      else if t.op == 1 then .next (s1.loadAnswer t stHostCompletion [])
      else .next (s2.endCopy t stHostCompletion) := by
  intro s1 s2
  have due : (t.space != 2 || decide (s1.clk < t.clk + s.host.cplTimeout * 1100000)) = true ↔
      s1.clk < t.clk + s.host.cplTimeout * 1100000 := by
    rw [Bool.eq_false_iff.2 (PortTag.of_host mine), Bool.false_or, decide_eq_true_iff]
  simp only [execHostCompletionTimeout, State.atClk_tagOf, opened, ← State.endCopy_next]
  exact ite_congr (propext due) (fun _ => rfl) fun _ => rfl

end

/-! ### Bus mastering, function resets and the link (R400, R401, R404, R405) -/

theorem execBusMasterEnable_active (f at_ : Nat) (active : (s.fn f).flr = false) :
    let s2 := (s.atClk at_).modFn f fun h => { h with bme := true, msixHeld := false }
    execBusMasterEnable f at_ s = .next (if (s.fn f).msixHeld = true then s2.send (.msix f) else s2).pumpPorts :=
  if_neg (ne_true_of_eq_false active)

theorem execFlrComplete_eq (f at_ : Nat) :
    let s1 := s.atClk at_
    execFlrComplete f at_ s = .next (if (s.fn f).flr = true ∧ (s.fn f).flrClk + 1100000 ≤ s1.clk then
      s1.modFn f fun h => { h with flr := false } else s1) := by
  refine ite_next_of_iff ?_ rfl
  rw [Bool.and_eq_true, decide_eq_true_iff]
  rfl

/-- A link that the port can have (R400, R401). -/
def LinkFits (gen width vfs : Nat) : Prop := 1 ≤ gen ∧ gen ≤ 6 ∧ width ∈ [1, 2, 4, 8, 16] ∧ vfs ≤ 63

theorem linkFits_iff (gen width vfs : Nat) :
    (gen == 0 || decide (6 < gen) || !([1, 2, 4, 8, 16].contains width) || decide (63 < vfs)) = false ↔ LinkFits gen width vfs := by
  have positive : gen ≠ 0 ↔ 1 ≤ gen := Nat.pos_iff_ne_zero.symm
  simp only [LinkFits, Bool.or_eq_false_iff, beq_eq_false_iff_ne, positive, Bool.not_eq_false', List.contains_iff_mem,
    decide_eq_false_iff_not,
    Nat.not_lt, and_assoc]

/-- The host port with the link that came up. -/
def State.linkUp (s : State) (gen width vfs : Nat) (flit : Bool) : State :=
  { s with host := { s.host with
    up := true, gen := gen, width := width, flit := flit || gen == 6, vfEnable := vfs != 0, numVfs := vfs } }

section
variable {gen width vfs : Nat} (flit : Bool)

theorem execHostLinkUp_fits (fits : LinkFits gen width vfs) :
    let s2 := s.linkUp gen width vfs flit
    execHostLinkUp gen width flit vfs s = .next (if s.dog.queue = [] then s2 else s2.signal) := by
  refine (if_neg (ne_true_of_eq_false ((linkFits_iff gen width vfs).2 fits))).trans ?_
  exact congrArg _ (ite_of_iff List.isEmpty_iff _ _)

theorem execHostLinkUp_unfit (unfit : ¬ LinkFits gen width vfs) : execHostLinkUp gen width flit vfs s = .next s :=
  if_pos (eq_true_of_ne_false (mt (linkFits_iff gen width vfs).1 unfit))

end

/-- Settles O43, command by command: the function's reset and aperture, the tag that a completion names, and the link decide. -/
theorem theHostPortServesReadsWritesAndResets : Obligations.TheHostPortServesReadsWritesAndResets := by
  intro s at_ s1
  refine ⟨fun f off len write bytes => ⟨execHostInboundRequest_reset at_, execHostInboundRequest_noAperture at_,
      execHostInboundRequest_beyond at_, execHostInboundRequest_cut at_, fun active valid inside whole => ⟨?write, ?read⟩⟩,
    fun tag t opened mine => ⟨fun status bs => ?completion, ?early, ?late⟩,
    fun f => ⟨rfl, execBusMasterEnable_active f at_, rfl, execFlrComplete_eq f at_⟩, rfl,
    fun gen width vfs flit => ⟨execHostLinkUp_fits flit, execHostLinkUp_unfit flit⟩⟩
  case write => exact execHostInboundRequest_write at_ active valid inside whole
  case read =>
    exact fun reads => ⟨State.readRange_within .., execHostInboundRequest_read at_ active valid inside whole reads⟩
  case completion =>
    have found := execHostCompletionReceive_found at_ opened mine status bs
    refine ⟨fun quarantined => found.trans (if_pos quarantined), fun plain load => ?load, fun plain copy => ?copy⟩
    case load =>
      refine (found.trans (if_neg (ne_true_of_eq_false plain))).trans ((if_pos (beq_iff_eq.2 load)).trans ?_)
      exact congrArg (fun st => Host.Outcome.next (s1.loadAnswer t st bs)) (ite_of_iff beq_iff_eq _ _)
    case copy =>
      refine (found.trans (if_neg (ne_true_of_eq_false plain))).trans ((if_neg (mt beq_iff_eq.1 copy)).trans ?_)
      exact ite_next_of_iff beq_iff_eq rfl
  case early => exact fun early => (execHostCompletionTimeout_found at_ opened mine).trans (if_pos early)
  case late =>
    intro late
    have due := (execHostCompletionTimeout_found at_ opened mine).trans (if_neg (Nat.not_lt.2 late))
    refine ⟨fun quarantined => due.trans (if_pos quarantined), fun plain load => ?load, fun plain copy => ?copy⟩
    case load => exact (due.trans (if_neg (ne_true_of_eq_false plain))).trans (if_pos (beq_iff_eq.2 load))
    case copy => exact (due.trans (if_neg (ne_true_of_eq_false plain))).trans (if_neg (mt beq_iff_eq.1 copy))

end Sys2Proof.Machine
end

section
/-! The queue pairs of the storage ports (spec/19_host_and_service_ports.md R406 to R409, R418). -/

namespace Sys2Proof.Machine
variable {s : State}

@[simp] theorem State.atClk_qp (at_ q : Nat) : (s.atClk at_).qp q = s.qp q := rfl

/-! ### Packets (R406, R407) -/

/-- A mark of congestion is answered before the packet is served. -/
def State.marked (s : State) (p q : Nat) (ce : Bool) : State := if ce then s.sendCnp p q else s

/-- What a ready queue pair does with a packet. -/
def State.serve (s : State) (q : Nat) : Roce → State
  | .write addr rkey bytes => s.rdmaWrite q addr rkey bytes
  | .read addr rkey len => s.rdmaRead q addr rkey len
  | .unsupported => (s.send (.roce q 2 [])).qpFail q stStorQp
  | .response tag bs => s.roceData q tag bs
  | .ack => s.qpHeard q
  | .nak => s.qpFail q stStorQp
  | .other => s

theorem execStorPacketReceive_ready {p q : Nat} (ce : Bool) (at_ : Nat) (ready : (s.qp q).state = 1) (mine : (s.qp q).port = p)
    {pkt : Roce} (roce : pkt ≠ .other) :
    execStorPacketReceive p q pkt ce at_ s = .next (((s.atClk at_).marked p q ce).serve q pkt) := by
  have serves : ¬ ((s.qp q).state != 1 || (s.qp q).port != p) = true := by
    rw [Bool.or_eq_true, bne_iff_ne, bne_iff_ne]
    exact not_or.2 ⟨not_not_intro ready, not_not_intro mine⟩
  cases pkt with
  | other => exact absurd rfl roce
  | write | read | unsupported | response | ack | nak => exact if_neg serves

/-! ### Rate and timer (R408, R409) -/

theorem execRateRecovery_eq (q at_ : Nat) :
    let s1 := s.atClk at_
    execRateRecovery q at_ s =
      .next (if since (s.qp q).lastCnp s1.clk clk100 = true ∧ (s.qp q).lastRise + clk100 ≤ s1.clk then
        s1.modQp q fun x => { x with rate := min 800000 (x.rate + 4000), lastRise := s1.clk } else s1) := by
  refine ite_next_of_iff ?_ rfl
  rw [Bool.and_eq_true, decide_eq_true_iff]
  rfl

/-- The queue pair counts a retry and sends its open reads and units again. -/
def State.retryQp (s : State) (q : Nat) (reads : List PortTag) : State :=
  (reads.foldl (fun u t => u.send (.portRead 3 q t.id t.addr t.len)) (s.modQp q fun x => { x with
    tried := x.tried + 1, retries := satAdd 0xFFFF x.retries 1, timer := some s.clk })).resendUnits q

theorem execAckTimeout_running {q t : Nat} (at_ : Nat) (running : (s.qp q).timer = some t) (ready : (s.qp q).state = 1)
    (up : (s.sport (s.qp q).port).up = true) :
    let s1 := s.atClk at_
    execAckTimeout q at_ s = .next (if s1.clk * 10 < t * 10 + 45056 * 2 ^ (s.qp q).ackTo then s1
      else if (s.qp q).retryCnt ≤ (s.qp q).tried then s1.qpFail q stStorQp
      else s1.retryQp q (s.tags.filter fun t => t.space == 3 && t.qp == q)) := by
  intro s1
  have early : ((s.qp q).state != 1 || !(s.sport (s.qp q).port).up ||
      decide (s1.clk * 10 < t * 10 + 45056 * 2 ^ (s.qp q).ackTo)) = true ↔ s1.clk * 10 < t * 10 + 45056 * 2 ^ (s.qp q).ackTo := by
    rw [ready, up, bne_self_eq_false, Bool.not_true, Bool.false_or, Bool.false_or, decide_eq_true_iff]
  simp only [execAckTimeout, State.atClk_qp, State.atClk_sport, running]
  exact ite_next_of_iff early (apply_ite Host.Outcome.next ..).symm

theorem execQpModify_readies (inReset : (s.qp s.stor.qpSel).state = 0) (mtu : (s.qp s.stor.qpSel).mtu ≠ 3) :
    execQpModify s = .next (s.modQp s.stor.qpSel fun x => { x with
      state := 1, lastStatus := 0, rate := 800000, lastCnp := none, lastCut := none, cnpSent := none, lastRise := s.clk,
      tried := 0, timer := none }) := by
  refine if_neg ?_
  rw [Bool.or_eq_true, bne_iff_ne, beq_iff_eq]
  exact not_or.2 ⟨not_not_intro inReset, mtu⟩

/-- Settles O44, command by command: the packet's kind, the queue pair's state and port, and its times decide. -/
theorem queuePairsServePacketsAndRecover : Obligations.QueuePairsServePacketsAndRecover := by
  refine ⟨fun s q at_ => ⟨fun p ce => ⟨rfl, fun ready mine => ?packets⟩, rfl, execRateRecovery_eq q at_,
    fun t running ready up => execAckTimeout_running at_ running ready up⟩, fun s => ⟨execQpModify_readies, rfl⟩⟩
  have served (pkt : Roce) (roce : pkt ≠ .other) := execStorPacketReceive_ready ce at_ ready mine roce
  exact ⟨fun addr rkey bytes => served (.write addr rkey bytes) nofun, fun addr rkey len => served (.read addr rkey len) nofun,
    served .unsupported nofun, fun tag bs => served (.response tag bs) nofun, served .ack nofun, served .nak nofun⟩

end Sys2Proof.Machine
end

section
/-! Temperatures and rails (spec/22_electrical_and_package.md R475, R476, R478, R483; spec/19_host_and_service_ports.md R414). -/

namespace Sys2Proof.Machine
variable {s : State}

/-- Some sensor reads as the test says. -/
theorem sensors_any_iff (p : Nat → Int → Prop) [∀ k t, Decidable (p k t)] (temps : List Int) :
    ((List.range 15).any fun k => decide (p k ((temps[k]?).getD 0))) = true ↔ ∃ k, k < 15 ∧ p k ((temps[k]?).getD 0) := by
  simp only [List.any_eq_true, List.mem_range, decide_eq_true_iff]

section
variable {temps : List Int} (at_ : Nat)

theorem execThermalTrip_trips (vaon : s.boot.vaon = true) (hot : ∃ k, k < 15 ∧ tripPoint k ≤ (temps[k]?).getD 0) :
    let t := (s.atClk at_).brownOut
    execThermalTrip temps at_ s =
      .next { t with boot := { t.boot with above := s.boot.above, tripHold := true, tripSeen := true } } := by
  refine if_neg ?_
  rw [State.atClk_boot, vaon, (sensors_any_iff (fun k t => tripPoint k ≤ t) temps).2 hot]
  decide

theorem execThermalTrip_cool (cool : ∀ k, k < 15 → (temps[k]?).getD 0 < tripPoint k) :
    execThermalTrip temps at_ s = .next (s.atClk at_) := by
  have noneHot : ((List.range 15).any fun k => decide (tripPoint k ≤ (temps[k]?).getD 0)) = false := by
    refine Bool.eq_false_iff.2 fun hot => ?_
    obtain ⟨k, sensor, hot⟩ := (sensors_any_iff (fun k t => tripPoint k ≤ t) temps).1 hot
    exact absurd hot (not_le_of_gt (cool k sensor))
  refine if_pos ?_
  rw [noneHot]
  exact Bool.or_true _

theorem execTripRecovery_warm (warm : ∃ k, k < 15 ∧ tripPoint k - 120 < (temps[k]?).getD 0) :
    execTripRecovery temps at_ s = .next (s.atClk at_) := by
  refine if_pos ?_
  rw [(sensors_any_iff (fun k t => tripPoint k - 120 < t) temps).2 warm]
  exact Bool.or_true _

variable (held : s.boot.tripHold = true)
include held

theorem execTripRecovery_cool (cool : ∀ k, k < 15 → (temps[k]?).getD 0 ≤ tripPoint k - 120) :
    execTripRecovery temps at_ s = .next { s.atClk at_ with boot := { s.boot with tripHold := false } }.release := by
  have noneWarm : ((List.range 15).any fun k => decide (tripPoint k - 120 < (temps[k]?).getD 0)) = false := by
    refine Bool.eq_false_iff.2 fun warm => ?_
    obtain ⟨k, sensor, warm⟩ := (sensors_any_iff (fun k t => tripPoint k - 120 < t) temps).1 warm
    exact absurd warm (not_lt_of_ge (cool k sensor))
  refine if_neg ?_
  rw [noneWarm, State.atClk_boot, held]
  decide

end

/-- When a poll reports nothing: no rail has left its band, or the package is not in service (R483). -/
theorem railPoll_silent (left : List Nat) (state : Nat) :
    (left.isEmpty || decide (state < 5) || decide (6 < state)) = true ↔ left = [] ∨ state < 5 ∨ 6 < state := by
  simp only [Bool.or_eq_true, List.isEmpty_iff, decide_eq_true_iff, or_assoc]

/-- Settles O49, command by command: the readings against the trip points, the hold, and the rails' bands decide. -/
theorem temperaturesAndRailsAreWatched : Obligations.TemperaturesAndRailsAreWatched := by
  intro s at_ temps s1 read
  refine ⟨rfl, execThermalTrip_trips at_, execThermalTrip_cool at_, execTripRecovery_cool at_, fun _ => execTripRecovery_warm at_,
    fun reads => ?poll⟩
  exact congrArg Host.Outcome.next (ite_of_iff (railPoll_silent ..) _ _)

end Sys2Proof.Machine
end

section
/-! The management port: requests, reports, heartbeats and acknowledgements (spec/20_management_and_updates.md R421 to R425, R434,
R444). -/

namespace Sys2Proof.Machine
variable {s : State}

/-! ### Requests (R422) -/

/-- The answer of a new request is sent, kept for its peer, and counted. -/
def State.answered (peer seq : Nat) (x : List Byte × State) : State :=
  { x.2 with mgmt := { x.2.mgmt with
    kept := Tab.set x.2.mgmt.kept peer (seq, x.1),
    peers := x.2.mgmt.peers.map fun (p : Peer) =>
      if p.valid && p.number == peer then { p with count := wrapAdd 32 p.count 1 } else p } }.send (.mgmt peer x.1)

section
variable {peer seq : Nat} {headerOk : Bool} (act : State → List Byte × State)

theorem State.request_down (down : s.mgmt.up = false) : s.request peer seq headerOk act = s :=
  if_pos ((Bool.not_eq_true' _).mpr down)

/-- The guard of the header and the peer, as a request tests it. -/
theorem State.request_opened (sound : headerOk = true) (known : s.mgmt.accepts peer = true) :
    ¬ (!headerOk || !s.mgmt.accepts peer) = true := by
  rw [sound, known]
  decide

variable (up : s.mgmt.up = true)
include up

/-- The guard of the port, as a request tests it. -/
theorem Mgmt.not_down : ¬ (!s.mgmt.up) = true := by
  rw [up]
  decide

theorem State.request_dropped (bad : headerOk = false ∨ s.mgmt.accepts peer = false) :
    s.request peer seq headerOk act = s.dropRequest := by
  refine (if_neg (Mgmt.not_down up)).trans (if_pos ?_)
  simpa only [Bool.or_eq_true, Bool.not_eq_true'] using bad

variable (sound : headerOk = true) (known : s.mgmt.accepts peer = true)
include sound known

theorem State.request_repeated {k : Nat × List Byte} (kept : Tab.find s.mgmt.kept peer = some k) (same : k.1 = seq) :
    s.request peer seq headerOk act = s.send (.mgmt peer k.2) := by
  refine (if_neg (Mgmt.not_down up)).trans ((if_neg (State.request_opened sound known)).trans ?_)
  rw [kept]
  exact if_pos (beq_iff_eq.2 same)

theorem State.request_new (fresh : ∀ k, Tab.find s.mgmt.kept peer = some k → k.1 ≠ seq) :
    s.request peer seq headerOk act = State.answered peer seq (act s) := by
  refine (if_neg (Mgmt.not_down up)).trans ((if_neg (State.request_opened sound known)).trans ?_)
  split
  next k kept => exact if_neg (mt beq_iff_eq.1 (fresh k kept))
  next => rfl

end

/-! ### Heartbeats, acknowledgements and resends (R423 to R425) -/

section
variable (at_ : Nat)

/-- What a heartbeat carries (R423). -/
def State.heartbeat (s : State) : List Byte :=
  s.reportHead 0 1 ++ leBytes 8 s.tickNo ++ leBytes 4 s.bootReady ++ leBytes 4 s.leaseStatus ++ leBytes 2 s.dog.lost ++ zeros 14

theorem execHeartbeatSend_up (up : s.mgmt.up = true) (sinks : s.mgmt.sinksOn ≠ []) :
    let s1 := s.atClk at_
    execHeartbeatSend at_ s = .next (if s1.clk < s.mgmt.lastBeat + s.mgmt.hbS * 1100000000 then s1
      else { s1 with mgmt := { s.mgmt with seq := wrapAdd 32 s.mgmt.seq 1, lastBeat := s1.clk } }.toSinks s1.heartbeat) := by
  refine ite_next_of_iff ?_ rfl
  rw [State.atClk_mgmt, up, List.isEmpty_eq_false_iff.2 sinks, Bool.not_true, Bool.false_or, Bool.false_or, decide_eq_true_iff]

theorem execReportResend_oldest {d : Datagram} {ds : List Datagram} (waits : s.mgmt.unacked = d :: ds) (up : s.mgmt.up = true) :
    let s1 := s.atClk at_
    execReportResend at_ s = .next (if s1.clk < d.clk + 4 * s.mgmt.intervalMs * 1100000 then s1
      else { s1 with mgmt := { s.mgmt with
        unacked := { d with clk := s1.clk } :: ds, resends := satAdd 0xFFFF s.mgmt.resends 1 } }.toSinks d.bytes) := by
  intro s1
  have running : (!s.mgmt.up || decide (s1.clk < d.clk + 4 * s.mgmt.intervalMs * 1100000)) = true ↔
      s1.clk < d.clk + 4 * s.mgmt.intervalMs * 1100000 := by
    rw [up, Bool.not_true, Bool.false_or, decide_eq_true_iff]
  dsimp only [execReportResend]
  rw [show (s.atClk at_).mgmt.unacked = d :: ds from waits]
  by_cases early : s1.clk < d.clk + 4 * s.mgmt.intervalMs * 1100000
  · rw [if_pos early]
    exact if_pos (running.2 early)
  · rw [if_neg early]
    exact if_neg (mt running.1 early)

end

theorem execReportAckReceive_eq (sink seq : Nat) :
    let m := s.mgmt
    let x := (m.sinks[sink]?).getD {}
    execReportAckReceive sink seq s = .next (if x.valid = true ∧ seqLe m.seq seq = false then
      { s with
        dog := { s.dog with queue := s.dog.queue.filter fun (e : Event) => !(e.sent && seqLe e.dgram seq) },
        mgmt := { m with
          unacked := m.unacked.filter fun (d : Datagram) => !seqLe d.seq seq,
          sinks := m.sinks.set sink { x with count := seq % 2 ^ 32 } } }
      else s) := by
  intro m x
  by_cases sent : x.valid = true ∧ seqLe m.seq seq = false
  · obtain ⟨valid, sentSeq⟩ := sent
    rw [if_pos ⟨valid, sentSeq⟩]
    refine if_neg ?_
    rw [valid, sentSeq]
    decide
  · rw [if_neg sent]
    refine if_pos ?_
    rw [Bool.or_eq_true, Bool.not_eq_true']
    by_contra neither
    obtain ⟨valid, sentSeq⟩ := not_or.1 neither
    exact sent ⟨eq_true_of_ne_false valid, eq_false_of_ne_true sentSeq⟩

/-- Settles O47, command by command: the port, the request's header, peer and seq, and what waits to be sent decide. -/
theorem managementRequestsAreAnsweredOnceAndReportsLeave : Obligations.ManagementRequestsAreAnsweredOnceAndReportsLeave := by
  intro s at_ s1 m
  refine ⟨fun peer seq => ?requests, fun due => ?report, fun notDue => ?notDue, execHeartbeatSend_up at_, execReportAckReceive_eq,
    fun d ds => execReportResend_oldest at_⟩
  case report => exact if_neg (by rw [due]; decide)
  case notDue => exact if_pos ((Bool.not_eq_true' _).mpr notDue)
  case requests =>
    have counted {n : Nat} (low : 1 ≤ n) (high : n ≤ 256) : (decide (1 ≤ n) && decide (n ≤ 256)) = true := by
      simp only [low, high, decide_true, Bool.and_self]
    refine ⟨fun addr count up known low high => ⟨fun k kept same => ?readAgain, fun fresh => ?read⟩,
      fun addr words up known low high => ⟨fun k kept same => ?writeAgain, fun fresh => ?write⟩,
      fun off data ok up known whole low high => ?chunk, fun addr count up bad => ?bad, fun down => ?down⟩
    case readAgain => exact congrArg _ (State.request_repeated (s := s1) _ up (counted low high) known kept same)
    case read => exact congrArg _ (State.request_new (s := s1) _ up (counted low high) known fresh)
    case writeAgain => exact congrArg _ (State.request_repeated (s := s1) _ up (counted low high) known kept same)
    case write => exact congrArg _ (State.request_new (s := s1) _ up (counted low high) known fresh)
    case chunk =>
      have sized : (data.length % 256 == 0 && decide (1 ≤ data.length / 256) && decide (data.length / 256 ≤ 4)) = true := by
        simp only [whole, beq_self_eq_true, Bool.true_and, Bool.and_eq_true, decide_eq_true_iff]
        omega
      exact ⟨fun k kept same => congrArg _ (State.request_repeated _ up sized known kept same),
        fun fresh => congrArg _ (State.request_new _ up sized known fresh)⟩
    case bad =>
      refine congrArg Host.Outcome.next (State.request_dropped (s := s1) _ up ?_)
      rcases bad with stranger | none_ | many
      · exact Or.inr stranger
      · exact Or.inl (by simp only [none_]; decide)
      · exact Or.inl (by rw [decide_eq_false (Nat.not_le.2 many), Bool.and_false])
    case down =>
      have ignored {headerOk : Bool} {seq : Nat} (act : State → List Byte × State) :
          Host.Outcome.next (s1.request peer seq headerOk act) = (.next s1 : Host.Outcome State Fault Refusal) :=
        congrArg _ (State.request_down act down)
      simp only [List.forall_mem_cons, List.not_mem_nil, false_implies, implies_true, and_true]
      exact ⟨ignored _, ignored _⟩

end Sys2Proof.Machine
end


section
/-! The states of an update (spec/20_management_and_updates.md R432 to R437, R439, R443, R444). -/

namespace Sys2Proof.Machine
variable {s : State} {p : Path}

theorem execUpd_otherPath (other : s.notOwner p = true) (ok : Bool) (bad : List Nat) (at_ : Nat) :
    execUpdBegin p ok s = .next (s.updEnd stUpdState) ∧ execUpdVerify p bad ok s = .next (s.updEnd stUpdState) ∧
    execUpdConfirm p ok s = .next (s.updEnd stUpdState) ∧ execUpdAbort p s = .next (s.updEnd stUpdState) ∧
    execUpdRevert p ok at_ s = .next ((s.atClk at_).updEnd stUpdState) := by
  have refused (b : Bool) : (s.notOwner p || b) = true := by rw [other, Bool.true_or]
  exact ⟨if_pos (refused _), if_pos (refused _), if_pos (refused _), if_pos (refused _), if_pos (refused _)⟩

theorem execTrialTimerExpire_inTrial (at_ : Nat) {e : Nat} (ends : s.upd.trialEnd = some e) (trial : s.upd.state = 6) :
    let s1 := s.atClk at_
    execTrialTimerExpire at_ s =
      .next (if s1.clk < e then s1 else ((s1.updEnd stUpdExpired).report 0 14 stUpdExpired).revert) := by
  simp only [execTrialTimerExpire, State.atClk_upd, ends]
  refine ite_next_of_iff ?_ rfl
  rw [trial, bne_self_eq_false, Bool.false_or, decide_eq_true_iff]

section
variable (mine : s.notOwner p = false)
include mine

/-- The guard that every command of the update's own path begins with: only the state is left to decide. -/
theorem State.updGuard_mine {wrong : Bool} (fits : wrong = false) : ¬ (s.notOwner p || wrong) = true := by
  rw [mine, fits]
  decide

theorem execUpdBegin_mine (begins : s.upd.state ∈ [0, 1, 2, 4]) (ok : Bool) :
    let target := if s.boot.state = 7 then (if s.recordGood 0 then 1 else 0) else 1 - s.boot.slot
    execUpdBegin p ok s = .next (if ok = false then s.updEnd stUpdFlash
      else (s.flashPut target 0 (List.replicate 4096 0xFF)).modUpd fun u => { u with
        state := 1, target := target, owner := pathOwner p, lastStatus := stOk, progress := pairOf 32 (2 ^ 30), head := [] }) := by
  have accepted := State.updGuard_mine mine (congrArg (!·) (List.contains_iff_mem.2 begins))
  simp only [← beq_iff_eq (a := s.boot.state)]
  exact (if_neg accepted).trans (ite_next_of_iff (iff_of_eq (Bool.not_eq_true' _)) rfl)

/-- A verify of a downloaded target marks the path and the progress before its checks (R434). -/
def State.verifying (s : State) (p : Path) : State := s.modUpd fun u => { u with
  state := 2, owner := pathOwner p, progress := pairOf 32 (2 ^ 31 + ceilDiv (recordEnd (s.slotRecord s.upd.target)) 256) }

/-- The target's generation is not above the floor (R434). -/
def State.tooOld (s : State) : Bool :=
  match s.genFloor with | some g => decide (recGen (s.slotRecord s.upd.target) ≤ g) | none => false

theorem execUpdVerify_mine (downloaded : s.upd.state = 2) (bad : List Nat) :
    let t := s.upd.target
    execUpdVerify p bad true s = .next (if s.checkSlot t bad = 5 then (s.verifying p).updEnd stUpdFlash
      else if s.checkSlot t bad ≠ 1 ∨ s.headersOk t = false then (s.verifying p).updEnd stUpdVerify
      else if s.tooOld = true then (s.verifying p).updEnd stUpdGen
      else (((s.verifying p).setStage t 2).updEnd stOk).modUpd fun u => { u with state := 4 }) := by
  have accepted (again : Bool) := State.updGuard_mine mine (wrong := !(s.upd.state == 2 || again)) (by
    rw [beq_iff_eq.2 downloaded, Bool.true_or]; rfl)
  refine (if_neg (accepted _)).trans (ite_next_of_iff ?unreadable (ite_next_of_iff ?unsound (ite_next_of_iff Iff.rfl rfl)))
  case unreadable => rw [Bool.or_eq_true, beq_iff_eq, Bool.not_true, or_iff_left Bool.false_ne_true]
  case unsound => rw [Bool.or_eq_true, bne_iff_ne, Bool.not_eq_true']

/-- A verified target with no context loaded is activated: only its kind decides how (R435). -/
theorem execUpdActivate_mine (verified : s.upd.state = 4) (live : Bool) (at_ : Nat) (unloaded : s.anyLoaded = false)
    (served : live = true → s.boot.state ≠ 7) :
    let s1 := (s.atClk at_).modUpd fun u => { u with live := live }
    let s2 := s1.setStage s.upd.target 3
    let s3 := { s2 with boot := { s2.boot with trialBoots := 0 } }
    execUpdActivate p live true at_ s = .next (if live = false then s3.powerCycle (s.boot.state == 7)
      else s3.modUpd fun u => { u with
        state := 5, lastStatus := stOk, parts := [0, 0, 0, 0, 0, 0, 0], micro := [], began := s1.clk,
        oldSem := some s.glb.sem }) := by
  intro s1 s2 s3
  have accepted : ¬ (s1.notOwner p || s1.upd.state != 4 || (live && s1.boot.state == 7) || (!live && s1.anyLoaded)) = true := by
    rw [show s1.notOwner p = false from mine, show s1.upd.state = 4 from verified, show s1.anyLoaded = false from unloaded,
      Bool.and_false, Bool.or_false, bne_self_eq_false, Bool.or_false, Bool.false_or, Bool.and_eq_true, beq_iff_eq]
    exact fun ⟨isLive, inRom⟩ => served isLive inRom
  have sameSem : ¬ (s1.slotSem s1.upd.target != s1.glb.sem && s1.anyLoaded) = true := by
    rw [show s1.anyLoaded = false from unloaded, Bool.and_false]
    decide
  refine (if_neg accepted).trans ((if_neg sameSem).trans ((if_neg (by decide)).trans ?_))
  exact ite_next_of_iff (iff_of_eq (Bool.not_eq_true' _)) rfl

theorem execUpdConfirm_mine (trial : s.upd.state = 6) (ok : Bool) :
    let s1 := (s.setStage s.upd.target 4).updEnd stOk
    execUpdConfirm p ok s = .next (if ok = false then s.updEnd stUpdFlash
      else { s1 with boot := { s1.boot with trial := false }, upd := s1.upd.idle (1 - s.upd.target) }) :=
  (if_neg (State.updGuard_mine mine (bne_eq_false_iff_eq.2 trial))).trans (ite_next_of_iff (iff_of_eq (Bool.not_eq_true' _)) rfl)

theorem execUpdRevert_mine (trial : s.upd.state = 6) (at_ : Nat) :
    execUpdRevert p true at_ s = .next ((s.atClk at_).updEnd stOk).revert :=
  (if_neg (State.updGuard_mine mine (bne_eq_false_iff_eq.2 trial))).trans (if_neg (by decide))

theorem execUpdAbort_mine (busy : s.upd.state ≠ 0) :
    execUpdAbort p s = .next (if s.upd.state = 1 then
        ((s.flashPut s.upd.target 0 (List.replicate 4096 0xFF)).updEnd stAborted).modUpd fun u => u.idle u.target
      else s.updEnd stAlreadyDone) :=
  (if_neg (State.updGuard_mine mine (beq_eq_false_iff_ne.2 busy))).trans (ite_next_of_iff beq_iff_eq rfl)

end

/-- Settles O48, command by command: the path, the update's state and the target's checks decide. -/
theorem anUpdateGoesThroughItsStates : Obligations.AnUpdateGoesThroughItsStates := by
  intro s p at_ u t
  refine ⟨fun other => ?other, fun mine => ⟨fun begins => ?begins, fun downloaded bad => ?verify, fun verified live => ?activate,
    fun trial => ?trial, fun started => ?abort, fun past => ?ended⟩, fun e => execTrialTimerExpire_inTrial at_⟩
  case other =>
    have refused ok bad := execUpd_otherPath other ok bad at_
    exact refused
  case begins => exact ⟨execUpdBegin_mine mine begins false, execUpdBegin_mine mine begins true⟩
  case verify =>
    have decided := execUpdVerify_mine mine downloaded bad
    refine ⟨fun unreadable => ?_, fun readable unsound => ?_, fun found headers old => ?_, fun found headers new => ?_⟩
    · exact decided.trans (congrArg _ (if_pos unreadable))
    · exact decided.trans (congrArg _ ((if_neg readable).trans (if_pos unsound)))
    all_goals
      have readable : s.checkSlot t bad ≠ 5 := by rw [found]; decide
      have sound : ¬ (s.checkSlot t bad ≠ 1 ∨ s.headersOk t = false) := by rw [found, headers]; decide
      refine decided.trans (congrArg _ ((if_neg readable).trans ((if_neg sound).trans ?_)))
    · exact if_pos old
    · exact if_neg (ne_true_of_eq_false new)
  case activate =>
    intro s1 s2 s3 unloaded
    refine ⟨fun isLive served => ?_, fun isCold => ?_⟩
    · exact (execUpdActivate_mine mine verified live at_ unloaded fun _ => served).trans
        (congrArg _ (if_neg (ne_false_of_eq_true isLive)))
    · exact (execUpdActivate_mine mine verified live at_ unloaded fun isLive => absurd isLive (ne_true_of_eq_false isCold)).trans
        (congrArg _ (if_pos isCold))
  case trial =>
    exact ⟨execUpdConfirm_mine mine trial true, execUpdConfirm_mine mine trial false, execUpdRevert_mine mine trial at_⟩
  case abort =>
    exact (execUpdAbort_mine mine (ne_of_eq_of_ne started (by decide))).trans (congrArg _ (if_pos started))
  case ended =>
    exact (execUpdAbort_mine mine (Nat.ne_of_gt (Nat.lt_of_lt_of_le Nat.two_pos past))).trans
      (congrArg _ (if_neg (Nat.ne_of_gt past)))

end Sys2Proof.Machine
end


section
/-! The requests of the meter (spec/21_horaro_meter.md R454, R456 to R460, R462; R422 for the request itself). -/

namespace Sys2Proof.Machine
variable {s : State} {peer seq : Nat}

theorem State.meterRequest_unpowered (off : s.meter.powered = false) (op : Nat) (act : State → Nat × Nat × List Byte × State) :
    s.meterRequest peer seq op act = s :=
  if_pos ((Bool.not_eq_true' _).mpr off)

/-- A request of the meter answered with `x`: the status, the operand, the body and the state after it (R454). -/
def State.meterAnswered (peer seq op : Nat) (x : Nat × Nat × List Byte × State) : State :=
  State.answered peer seq (meterAnswer seq op x.1 x.2.1 x.2.2.1, x.2.2.2)

theorem State.meterRequest_new (up : s.mgmt.up = true) (known : s.mgmt.accepts peer = true) (powered : s.meter.powered = true)
    (fresh : ∀ k, Tab.find s.mgmt.kept peer = some k → k.1 ≠ seq) {op : Nat} {act : State → Nat × Nat × List Byte × State}
    {x : Nat × Nat × List Byte × State} (answer : act s = x) :
    Host.Outcome.next (s.meterRequest peer seq op act) =
      (.next (State.meterAnswered peer seq op x) : Host.Outcome State Fault Refusal) := by
  have awake : ¬ (!s.meter.powered) = true := by rw [powered]; decide
  subst answer
  exact congrArg _ ((if_neg awake).trans (State.request_new _ up rfl known fresh))

/-- A record is within the fetched range (R456). -/
theorem meterFetch_hit (first n : Nat) :
    (fun r : MRec => decide (first ≤ r.seq) && decide (r.seq < first + n)) =
      fun r : MRec => decide (first ≤ r.seq ∧ r.seq < first + n) := by
  funext r
  exact (Bool.decide_and _ _).symm

theorem meterInterval_bad (arg : Nat) : (arg == 0 || decide (3600 < arg)) = true ↔ ¬ (1 ≤ arg ∧ arg ≤ 3600) := by
  rw [Bool.or_eq_true, beq_iff_eq, decide_eq_true_iff]
  omega

/-- Settles O51, op by op: `State.meterRequest_new` answers the request, and the seal, the token and the
operands decide with what. -/
theorem meterRequestsActUnderTheSeal : Obligations.MeterRequestsActUnderTheSeal := by
  intro s peer seq m sp
  refine ⟨fun up known powered fresh => ?served, fun off first count arg utc tok ch constants chunkAt data => ?unpowered⟩
  case unpowered =>
    simp only [List.forall_mem_cons, List.not_mem_nil, false_implies, implies_true, and_true]
    have ignored (op : Nat) act :
        Host.Outcome.next (s.meterRequest peer seq op act) = (.next s : Host.Outcome State Fault Refusal) :=
      congrArg _ (State.meterRequest_unpowered off op act)
    exact ⟨ignored 1 _, ignored 2 _, ignored 3 _, ignored 4 _, ignored 5 _, ignored 6 _, ignored 7 _, ignored 8 _⟩
  case served =>
    intro answered
    have named : answered = State.meterAnswered peer seq := rfl
    clear_value answered
    subst named
    refine ⟨fun first count => ⟨fun none => ?fetchNone, fun o os held => ⟨fun gone => ?fetchGone, fun kept => ?fetch⟩⟩, ?nonce,
      fun arg => ?interval, fun utc => ?mark, fun tok => ?break_, fun tok => ?restore, fun ch constants => ?calibration,
      fun chunkAt data => ?chunk⟩
    all_goals refine State.meterRequest_new up known powered fresh ?_
    case fetchNone => rw [none]; rfl
    case fetchGone => rw [held]; exact if_pos gone
    case fetch =>
      rw [show s.meter.recs.head? = some o from congrArg List.head? held]
      refine (if_neg (Nat.not_lt.2 kept)).trans ?_
      rw [meterFetch_hit]
      rfl
    case nonce => rfl
    case interval => exact (ite_of_iff (meterInterval_bad arg) _ _).trans (ite_not _ _ _)
    case mark => rfl
    case break_ =>
      exact (ite_of_iff (iff_of_eq (Bool.not_eq_true' _)) _ _).trans
        (if_congr Iff.rfl rfl (ite_of_iff (iff_of_eq (Bool.not_eq_true' _)) _ _))
    case restore =>
      refine if_congr Iff.rfl rfl ((ite_of_iff (iff_of_eq (Bool.not_eq_true' _)) _ _).trans (if_congr Iff.rfl rfl
        (ite_of_iff ?_ _ _)))
      rw [Bool.and_eq_true, Bool.not_eq_true', Bool.not_eq_true', List.isEmpty_eq_false_iff]
    case calibration => rfl
    case chunk =>
      exact if_congr Iff.rfl rfl ((if_congr not_le.symm rfl rfl).trans (ite_not _ _ _))

end Sys2Proof.Machine
end


section
/-! The meter's ticks, frames, records and rail (spec/21_horaro_meter.md R447 to R454, R460, R461, R463, R464). -/

namespace Sys2Proof.Machine
variable {s : State}

section
variable (at_ : Nat)

theorem execMeterHeartbeatSend_powered (powered : s.meter.powered = true) :
    execMeterHeartbeatSend at_ s = .next { s.atClk at_ with
      meterHub := { s.meterHub with present := true, lastBeat := (s.atClk at_).clk, absentTold := false } } := by
  refine if_neg ?_
  rw [State.atClk_meter, powered]
  decide

theorem execMeterHeartbeatTimeout_eq :
    let s1 := s.atClk at_
    execMeterHeartbeatTimeout at_ s =
      .next (if s.meterHub.absentTold = true ∨ s1.clk < s.meterHub.lastBeat + 11000000 then s1
        else { s1 with meterHub := { s.meterHub with present := false, absentTold := true } }.report 3 16 stMeterAbsent) := by
  refine ite_next_of_iff ?_ rfl
  rw [Bool.or_eq_true, decide_eq_true_iff]
  rfl

end

/-- The tick follows the last frame accepted, where there is one, and is not closed (R448). -/
theorem Meter.takesTick_iff (m : Meter) (n : Nat) :
    m.takesTick n = true ↔ (∀ p, m.prev = some p → n = wrapAdd 64 p 1) ∧ (∀ c, m.closed = some c → c < n) := by
  unfold Meter.takesTick
  cases m.prev <;> cases m.closed <;> simp

theorem execAttributionFrame_some {fr : AttrFrame} (found : s.meterHub.frame = some fr) (tick tickN : Nat) (f : List Nat) :
    let m := s.meter
    execAttributionFrame tick tickN f s =
      .next (if m.powered = true ∧ tickN = not64 tick ∧ (∀ p, m.prev = some p → tick = wrapAdd 64 p 1) ∧
          (∀ n, m.closed = some n → n < tick) then
        { s with meter := { m with frame := some { fr with tick := tick, tickN := tickN, f := f }, prev := some tick } }
      else s) := by
  dsimp only [execAttributionFrame]
  rw [found]
  refine ite_next_of_iff ?_ rfl
  rw [Bool.and_eq_true, Bool.and_eq_true, beq_iff_eq, Meter.takesTick_iff, and_assoc]

/-- The frame accepted for a tick, where there is one (R450). -/
theorem Meter.frameFor_some {m : Meter} {n : Nat} {fr : AttrFrame} (found : m.frame = some fr) (same : fr.tick = n) :
    m.frameFor n = some fr := by
  unfold Meter.frameFor
  rw [found]
  exact if_pos (beq_iff_eq.2 same)

theorem Meter.frameFor_none {m : Meter} {n : Nat} (other : ∀ fr, m.frame = some fr → fr.tick ≠ n) : m.frameFor n = none := by
  unfold Meter.frameFor
  cases found : m.frame with
  | none => rfl
  | some fr => exact if_neg (mt beq_iff_eq.1 (other fr found))

section
variable (es : List Nat) (ein own ms : Nat)

/-- The books at the close of tick `n`, before its energy is charged to accounts (R450, R451). -/
def State.closing (s : State) (es : List Nat) (ein own ms n : Nat) : State :=
  ((s.atMs ms).tellBalance (sharedEnergy es ein).2).modMeter fun (m : Meter) =>
    { m with closed := some n, dev := { m.dev with own := addP m.dev.own own } }

theorem execMeterTickClose_again (closed : s.meter.closed = some ((s.tickNo + 2 ^ 64 - 1) % 2 ^ 64)) :
    execMeterTickClose es ein own ms s = .next (s.atMs ms) :=
  if_pos ((Bool.or_eq_true _ _).mpr (Or.inr (beq_iff_eq.2 closed)))

section
variable (powered : s.meter.powered = true)
include powered

/-- The guard of the meter's rail, as the timed commands of the meter test it. -/
theorem Meter.not_off : ¬ (!(s.atMs ms).meter.powered) = true := by
  rw [show (s.atMs ms).meter.powered = true from powered]
  decide

/-- A tick that is not closed is charged by its frame, or else as lost. -/
theorem execMeterTickClose_open (open_ : s.meter.closed ≠ some ((s.tickNo + 2 ^ 64 - 1) % 2 ^ 64)) :
    let n := (s.tickNo + 2 ^ 64 - 1) % 2 ^ 64
    execMeterTickClose es ein own ms s = match s.meter.frameFor n with
      | some fr => .next ((s.closing es ein own ms n).closeBy es (sharedEnergy es ein).1 fr)
      | none => .next ((s.closing es ein own ms n).closeLost es (sharedEnergy es ein).1) := by
  refine (if_neg ?_).trans rfl
  rw [Bool.or_eq_true, not_or]
  exact ⟨Meter.not_off ms powered, mt beq_iff_eq.1 open_⟩

theorem execRecordIntervalEnd_powered :
    let u := s.atMs ms
    execRecordIntervalEnd ms s =
      .next (if u.meter.ms < s.meter.intervalMs + 1000 * s.meter.recordS then u else u.endInterval) := by
  refine ite_next_of_iff ?_ rfl
  rw [Bool.or_eq_true, or_iff_right (Meter.not_off ms powered), decide_eq_true_iff]
  rfl

end

theorem execMeter_unpowered (off : s.meter.powered = false) (ok : Bool) :
    execMeterTickClose es ein own ms s = .next (s.atMs ms) ∧ execMeterSelfPeriod es ein own ms s = .next (s.atMs ms) ∧
    execMeterSnapshot ok ms s = .next (s.atMs ms) ∧ execRecordIntervalEnd ms s = .next (s.atMs ms) ∧
    execVMtrFail ms s = .next (s.atMs ms) := by
  have down : (!(s.atMs ms).meter.powered) = true := (Bool.not_eq_true' _).mpr off
  have downOr (b : Bool) : (!(s.atMs ms).meter.powered || b) = true := by rw [down, Bool.true_or]
  exact ⟨if_pos (downOr _), if_pos down, if_pos down, if_pos (downOr _), if_pos down⟩

end

/-- Settles O50, command by command: the meter's rail, the frame accepted and the tick last closed decide. -/
theorem theMeterChargesEveryTickOnce : Obligations.TheMeterChargesEveryTickOnce := by
  intro s at_ ms s1 m u
  refine ⟨execMeterHeartbeatSend_powered at_, execMeterHeartbeatTimeout_eq at_,
    fun fr tick tickN f found => execAttributionFrame_some found tick tickN f, fun es ein own powered => ?close,
    fun es esh fr => rfl, fun es esh => rfl, rfl, fun powered => ?timed, fun off => ?returns, fun es ein own ok off => ?off⟩
  case close =>
    refine ⟨execMeterTickClose_again es ein own ms, fun open_ fr found same => ?_, fun open_ other => ?_,
      if_neg (Meter.not_off ms powered)⟩
    · refine (execMeterTickClose_open es ein own ms powered open_).trans ?_
      rw [Meter.frameFor_some found same]
      rfl
    · refine (execMeterTickClose_open es ein own ms powered open_).trans ?_
      rw [Meter.frameFor_none other]
      rfl
  case timed =>
    have on := Meter.not_off ms powered
    exact ⟨if_neg on, if_neg on, execRecordIntervalEnd_powered ms powered, if_neg on⟩
  case returns => exact if_neg (ne_true_of_eq_false off)
  case off =>
    simp only [List.forall_mem_cons, List.not_mem_nil, false_implies, implies_true, and_true]
    exact ⟨execMeter_unpowered es ein own ms off ok, if_pos ((Bool.not_eq_true' _).mpr off)⟩

end Sys2Proof.Machine
end


section
/-! Checkpoints: taking, draining, completing, aborting and restoring (spec/14_checkpoint.md R309 to R320). -/

namespace Sys2Proof.Machine
variable {s : State} (c : Nat)

theorem execCkptTake_eq :
    let s1 := { s with ckptRegs := { s.ckptRegs with ctx := c } }
    execCkptTake c s = .next (if (s.led c).state = 0 ∨ (s.led c).ownRows = 0 then s1.ckptRefuse
      else { s1 with ckptRegs := { s1.ckptRegs with lastStatus := stOk } }.modCkpt c fun k => { k with due := true }) := by
  refine ite_next_of_iff ?_ rfl
  rw [Bool.or_eq_true, beq_iff_eq, beq_iff_eq]
  rfl

section
variable (at_ : Nat)

theorem execCkptTimerExpire_on (timer : (s.ckpt c).timerS ≠ 0) (on : (s.led c).state ≠ 0) (owns : (s.led c).ownRows ≠ 0) :
    let s1 := s.atClk at_
    execCkptTimerExpire c at_ s =
      .next (if (s.ckpt c).lastBegan + (s.ckpt c).timerS * 1100000000 ≤ s1.clk then s1.modCkpt c fun k => { k with due := true }
        else s1) := by
  refine ite_next_of_iff ?_ rfl
  rw [show (s.atClk at_).ckpt c = s.ckpt c from rfl, show (s.atClk at_).led c = s.led c from rfl, bne_iff_ne.2 timer,
    bne_iff_ne.2 on, bne_iff_ne.2 owns, Bool.true_and, Bool.true_and, Bool.true_and, decide_eq_true_iff]

/-- A drain whose stagger has passed and whose port does not deny it zeroes the slot's manifest and starts to send (R314). -/
theorem execCkptDrainStart_ready (drains : (s.ckpt c).state = 2) (waits : (s.ckpt c).started = false)
    (late : (s.ckpt c).startAt ≤ (s.atClk at_).clk) (open_ : (s.atClk at_).portDeny c 3 (s.ckpt c).qp = 0)
    (ready : (s.atClk at_).canWrite 3 (s.ckpt c).qp = true) :
    let s1 := s.atClk at_
    let k := s.ckpt c
    execCkptDrainStart c at_ s =
      .next (((s1.send (.portWrite 3 k.qp k.addr (zeros 512))).modCkpt c fun k => { k with
        started := true, bucket := 1048576 * 1100, bucketAt := s1.clk }).pumpDrain c) := by
  have draining : ¬ ((s.ckpt c).state != 2) = true := mt bne_iff_ne.1 (not_not_intro drains)
  have allowed : ¬ ((s.atClk at_).portDeny c 3 (s.ckpt c).qp != 0) = true := mt bne_iff_ne.1 (not_not_intro open_)
  have writable : ¬ (!(s.atClk at_).canWrite 3 (s.ckpt c).qp) = true := by rw [ready]; decide
  exact (if_neg draining).trans ((if_neg (ne_true_of_eq_false waits)).trans ((if_neg (Nat.not_lt.2 late)).trans
    ((if_neg allowed).trans (if_neg writable))))

/-- The books of a drain after unit `u` was acknowledged (R315). -/
def State.unitAccepted (s : State) (c u : Nat) : State :=
  let done := insertAsc u (s.ckpt c).done
  let pre := ((List.range (s.dataUnits c)).takeWhile fun i => done.contains i).length
  (s.modCkpt c fun k => { k with
    out := k.out.filter (fun (x : Nat) => x != u), done := done, saved := k.saved.filter fun (x : Saved) => x.ord / 16 != u,
    progress := pairOf 32 (at' 1 30 + pre) }).qpHeard (s.ckpt c).qp

theorem execCkptUnitAccept_out {u : Nat} (drains : (s.ckpt c).state = 2) (out : u ∈ (s.ckpt c).out) :
    let s1 := s.atClk at_
    execCkptUnitAccept c u at_ s =
      .next (if s1.dataUnits c ≤ (insertAsc u (s.ckpt c).done).length then (s1.unitAccepted c u).seal c
        else (s1.unitAccepted c u).pumpDrain c) := by
  refine if_neg ?_
  rw [show (s.atClk at_).ckpt c = s.ckpt c from rfl, drains, List.contains_iff_mem.2 out]
  decide

end

theorem execCkptDigestTreeReceive_busy (busy : (s.ckpt c).state ≠ 0) (notRestoring : (s.ckpt c).state ≠ 4) (from_ : Nat)
    (digest : List Byte) :
    execCkptDigestTreeReceive c from_ digest s = .next ((s.modCkpt c fun k => { k with
      tree := k.tree.filter (fun (x : Nat × List Byte) => x.1 != from_) ++ [(from_, digest)] }).digestUp c) := by
  refine if_neg ?_
  rw [beq_eq_false_iff_ne.2 busy, beq_eq_false_iff_ne.2 notRestoring]
  decide

theorem execCkptCompletionReceive_eq (step : Nat) :
    execCkptCompletionReceive c step s =
      .next (if (s.ckpt c).state = 3 ∧ step = (s.ckpt c).step then (s.ckptComplete c).completionDown c step else s) := by
  refine ite_next_of_iff ?_ rfl
  rw [Bool.and_eq_true, beq_iff_eq, beq_iff_eq]

/-- The states in which an abort ends a checkpoint (R319). -/
theorem ckptAbort_ends (n : Nat) : (n == 2 || n == 3) = true ↔ n = 2 ∨ n = 3 := by
  rw [Bool.or_eq_true, beq_iff_eq, beq_iff_eq]

theorem execCkptAbort_draining (drains : (s.ckpt c).state = 2 ∨ (s.ckpt c).state = 3) :
    execCkptAbort c s =
      .next ({ s with ckptRegs := { s.ckptRegs with ctx := c, lastStatus := stAborted } }.ckptEnd c stAborted 0) := by
  dsimp only [execCkptAbort]
  rw [if_pos ((ckptAbort_ends _).2 drains)]
  exact congrArg _ (if_pos (by decide))

theorem execCkptAbort_idle (notSending : (s.ckpt c).state ≠ 2) (notWaiting : (s.ckpt c).state ≠ 3) :
    execCkptAbort c s = .next { s with ckptRegs := { s.ckptRegs with ctx := c, lastStatus := stAlreadyDone } } := by
  dsimp only [execCkptAbort]
  rw [if_neg (mt (ckptAbort_ends _).1 (not_or.2 ⟨notSending, notWaiting⟩))]
  exact congrArg _ (if_neg (by decide))

section
variable (slot : Nat)

/-- A restore has named its context and its slot. -/
def State.restoring (s : State) (c slot : Nat) : State :=
  { s with ckptRegs := { s.ckptRegs with ctx := c, restoreSlot := slot } }

/-- The manifest and the data of the slot have been asked for (R317). -/
def State.restoreAsked (s : State) (c slot : Nat) : State :=
  let k := s.ckpt c
  ((s.send (.portRead 3 k.qp s.freeTag (k.slotAddr slot) 512)).send
    (.portRead 3 k.qp s.freeTag (k.slotAddr slot + 4096) (s.dataBytes c))).modCkpt c fun k => { k with
      progress := pairOf 32 (at' 2 30) }

/-- The own and side rows are written with the slot's data. -/
def State.restoreWritten (s : State) (c slot : Nat) (data : List Byte) : State :=
  ((s.restoreAsked c slot).ledWrite c ((s.led c).ownRow * s.rowBytes c) (data.take (s.dataBytes c))).modCkpt c fun k => { k with
    progress := pairOf 32 (at' 2 30 + s.dataUnits c) }

theorem execCkptRestore_matches (ledgerOff : (s.led c).state = 0) (idle : (s.ckpt c).state = 0) (known : slot ≤ 1)
    (whole : s.fencedOff c = false) {manifest data : List Byte}
    (open_ : (s.restoring c slot).portDeny c 3 (s.ckpt c).qp = 0)
    (sound : (s.restoring c slot).manifestOk c manifest = true)
    (long : (s.restoring c slot).dataBytes c ≤ data.length)
    (digest : sha256 (data.take ((s.restoring c slot).dataBytes c)) = slice manifest 84 32) :
    execCkptRestore c slot 0 manifest data s =
      .next ((((s.restoring c slot).restoreWritten c slot data).restoreEnd c stOk 0).modLed c fun x => { x with
        ckptRestores := satAdd 0xFFFF x.ckptRestores 1, needTail := true, mirrorValid := false, seeded := false }) := by
  have accepted : ¬ (!((s.led c).state == 0 || ((s.led c).state == 5 && !(s.led c).settled)) || (s.ckpt c).state != 0 ||
      decide (1 < slot)) = true := by
    rw [ledgerOff, idle, decide_eq_false (Nat.not_lt.2 known), beq_self_eq_true, Bool.true_or]
    decide
  have allowed : ¬ ((s.restoring c slot).portDeny c 3 (s.ckpt c).qp != 0) = true := mt bne_iff_ne.1 (not_not_intro open_)
  have described : ¬ (!(s.restoring c slot).manifestOk c manifest) = true := by rw [sound]; decide
  have intact : ¬ (decide (data.length < (s.restoring c slot).dataBytes c) ||
      sha256 (data.take ((s.restoring c slot).dataBytes c)) != slice manifest 84 32) = true := by
    rw [decide_eq_false (Nat.not_lt.2 long), digest, bne_self_eq_false]
    decide
  have notRestoring : ¬ ((s.led c).state == 5) = true := by rw [ledgerOff]; decide
  exact (if_neg accepted).trans ((if_neg (ne_true_of_eq_false whole)).trans ((if_neg allowed).trans ((if_neg (by decide)).trans
    ((if_neg described).trans ((if_neg intact).trans (congrArg _ (if_neg notRestoring)))))))

end

/-- Settles O32, command by command: the ledger and the checkpoint's state decide, and for a restore the manifest and the data. -/
theorem checkpointsAreTakenDrainedAndRestored : Obligations.CheckpointsAreTakenDrainedAndRestored := by
  intro s c l
  refine ⟨execCkptTake_eq c, execCkptTimerExpire_on c, ?drain, fun u at_ drains out => execCkptUnitAccept_out c at_ drains out,
    fun from_ digest busy notRestoring => execCkptDigestTreeReceive_busy c busy notRestoring from_ digest,
    execCkptCompletionReceive_eq c, execCkptAbort_draining c, execCkptAbort_idle c, ?restore⟩
  case drain =>
    intro at_ s1 k
    exact execCkptDrainStart_ready c at_
  case restore =>
    intro slot manifest data ledgerOff idle known whole s0 k n s1 s2 open_ sound long digest
    exact execCkptRestore_matches c slot ledgerOff idle known whole open_ sound long digest

end Sys2Proof.Machine
end


section
/-! The ports of the fabric: frames, idle time, census markers, training and hello (spec/15_fabric_links_and_topology.md R323 to
R328; spec/16_optical_engines.md R351; spec/18_bring_up.md R398). -/

namespace Sys2Proof.Machine
variable {s : State}

@[simp] theorem State.atClk_port (at_ p : Nat) : (s.atClk at_).port p = s.port p := rfl

/-! ### Frames (R323, R324, R326) -/

section
variable {f : Frame} (at_ : Nat) (known : f.port ≤ 22) (chan : f.vc ≤ 2) (live : (s.port f.port).live = true)

/-- The buffers that a good frame returns are taken, and a replay that it asks for is made. -/
def State.frameHeard (s : State) (f : Frame) : State :=
  let s1 := s.modPort f.port fun x => { x with lastFrame := s.clk }
  if f.replay then (s1.takeReturns f).replay f.port f.vc else s1.takeReturns f

theorem State.frameHeard_within (s : State) (f : Frame) : LinkOnly s (s.frameHeard f) := by
  have heard (t : State) : LinkOnly t (t.takeReturns f) := State.takeReturns_within _ f
  refine LinkOnly.after (t := s.modPort f.port fun x => { x with lastFrame := s.clk }) ?_ rfl
  unfold State.frameHeard
  split
  · exact (heard _).trans (State.replay_within _ _ _)
  · exact heard _

include known chan live

/-- The guard of a frame's port, channel and lock, as the command tests it. -/
theorem Frame.not_stray : ¬ (decide (22 < f.port) || decide (2 < f.vc) || !(s.port f.port).live) = true := by
  rw [decide_eq_false (Nat.not_lt.2 known), decide_eq_false (Nat.not_lt.2 chan), live]
  decide

theorem execFrameReceive_badCheck (bad : f.crcOk = false) :
    let s1 := s.atClk at_
    execFrameReceive f at_ s = .next ((s1.modPort f.port fun x => { x with crcErrors := satAdd 0xFFFFFFFF x.crcErrors 1 }).send
      (.returns f.port f.vc ((s.port f.port).vc f.vc).rx 0 true)) :=
  (if_neg (Frame.not_stray known chan live)).trans (if_pos ((Bool.not_eq_true' _).mpr bad))

theorem execFrameReceive_good (good : f.crcOk = true) (gen : f.gen = (s.port f.port).gen) (up : (s.port f.port).state = 3) :
    let s3 := (s.atClk at_).frameHeard f
    let s4 := s3.modPort f.port fun x => x.modVc f.vc fun y => { y with
      rx := wrapAdd 16 y.rx 1, got := wrapAdd 32 y.got 1, o := pairOf 16 (y.o.nat + 1) }
    execFrameReceive f at_ s = .next (if f.idle = true ∨ f.seq ≠ ((s.port f.port).vc f.vc).rx then s3
      else s4.send (.returns f.port f.vc ((s4.port f.port).vc f.vc).rx 0 false)) := by
  intro s3 s4
  have sound : ¬ (!f.crcOk) = true := by rw [good]; decide
  refine (if_neg (Frame.not_stray known chan live)).trans ((if_neg sound).trans
    ((if_neg (mt bne_iff_ne.1 (not_not_intro gen))).trans ((if_neg (mt bne_iff_ne.1 (not_not_intro up))).trans ?_)))
  by_cases idle : f.idle = true
  · exact (if_pos idle).trans (congrArg _ (if_pos (Or.inl idle)).symm)
  · exact (if_neg idle).trans (ite_next_of_iff (bne_iff_ne.trans (or_iff_right idle).symm) rfl)

end

/-! ### Loss of a port, and census markers (R324, R327, R328) -/

section
variable {p : Nat} (at_ : Nat)

theorem execLinkIdleTimeout_live (live : (s.port p).live = true) :
    let s1 := s.atClk at_
    execLinkIdleTimeout p at_ s = .next (if s1.clk < (s.port p).lastFrame + 4096 then s1 else s1.portDown p) := by
  refine ite_next_of_iff ?_ rfl
  rw [State.atClk_port, live, Bool.not_true, Bool.false_or, decide_eq_true_iff]

theorem execPortDown_live (live : (s.port p).live = true) : execPortDown p at_ s = .next ((s.atClk at_).portDown p) := by
  refine if_neg ?_
  rw [State.atClk_port, live]
  decide

theorem execCensusMarkerReceive_up {v : Nat} (up : (s.port p).state = 3) (chan : v ≤ 2) (out : ((s.port p).vc v).o.nat ≠ 0)
    (h rs sent : Nat) :
    let s1 := s.atClk at_
    let y := (s.port p).vc v
    let inFlight := (y.rr.nat + 2 ^ 32 - rs % 2 ^ 32) % 2 ^ 32
    execCensusMarkerReceive p v h rs sent at_ s =
      .next (if h + (y.o.nat - 1) + inFlight = y.rpool ∧ (y.got + 2 ^ 32 - 1) % 2 ^ 32 = sent then
          s1.freeBufs p v (s.port p).gen 1
        else ((s1.modPort p fun x => { x with censusFail := satAdd 0xFFFF x.censusFail 1 }).portDown p).portStatus p stCensus) := by
  refine (if_neg ?guard).trans (ite_next_of_iff ?agrees rfl)
  case guard =>
    rw [State.atClk_port, up, decide_eq_false (Nat.not_lt.2 chan), beq_eq_false_iff_ne.2 out]
    decide
  case agrees =>
    rw [Bool.and_eq_true, beq_iff_eq, beq_iff_eq]
    rfl

theorem execFullSearchRetry_failed (failed : (s.port p).state = 5) :
    let s1 := s.atClk at_
    execFullSearchRetry p at_ s = .next (if s1.clk < (s.port p).failedAt + 60 * 1100000000 then s1
      else s1.modPort p fun x => { x with state := 1, search := true, retrains := satAdd 0xFFFF x.retrains 1 }) := by
  refine ite_next_of_iff ?_ rfl
  rw [State.atClk_port, failed, bne_self_eq_false, Bool.false_or, decide_eq_true_iff]

/-! ### Training and hello (R326, R351, R398) -/

/-- What the end of training does to a port once its fibre's lanes are settled. -/
def State.trainedSearch (s : State) (p width digest : Nat) (ok : Bool) : State :=
  let t := s.trained p width Config.serial (digest % 2 ^ 64) ok
  t.elemSearch (t.port p).search

theorem execPortTrainingDone_electrical (low : p < 7) (width : Nat) (ok : Bool) :
    execPortTrainingDone p width ok at_ s = .next ((s.atClk at_).trainedSearch p width s.glb.cfgDigest ok) := by
  refine (if_neg (by omega)).trans ?_
  rw [if_pos (by rw [decide_eq_true low, Bool.true_or])]
  rfl

/-- The lanes of port `p`'s fibre come back and their faults are forgotten (R351). -/
def State.fibreBack (s : State) (p : Nat) : State :=
  let e := (p - 7) / 8
  let mine := (s.eng e).out.filter fun o => o.key / 16 == (p - 7) % 8
  (mine.foldl (fun u o => u.laneBack e o.key) s).modEng e fun x => { x with
    faulty := x.faulty.filter fun f => f.1 / 16 != (p - 7) % 8 }

theorem execPortTrainingDone_optical (low : 7 ≤ p) (high : p ≤ 22) (training : (s.port p).state = 1) (width : Nat) (ok : Bool) :
    execPortTrainingDone p width ok at_ s = .next (((s.atClk at_).fibreBack p).trainedSearch p width s.glb.cfgDigest ok) := by
  refine (if_neg (by omega)).trans ?_
  rw [if_neg (by
    rw [State.atClk_port, training, decide_eq_false (Nat.not_lt.2 low)]
    decide)]
  rfl

/-- A hello's sender is kept, and a configuration that differs is reported once (R326). -/
def State.helloHeard (s : State) (p : Nat) (h : Hello) : State :=
  let s2 := (if h.serial == (s.port p).peerSerial then s else s.dropKept p).modPort p fun x => { x with
    peerDev := h.dev, peerPort := h.port, peerRole := h.role, peerSerial := h.serial, lastFrame := s.clk }
  if h.digest64 != s.glb.cfgDigest % 2 ^ 64 && !(s.port p).digestTold then
    (s2.modPort p fun x => { x with digestTold := true }).portStatus p stConfigMismatch
  else s2

theorem State.helloHeard_within (s : State) (p : Nat) (h : Hello) : LinkOnly s (s.helloHeard p h) := by
  unfold State.helloHeard
  set kept := if h.serial == (s.port p).peerSerial then s else s.dropKept p with keptIs
  have dropped : LinkOnly s kept := by
    rw [keptIs]
    split
    · exact LinkOnly.refl s
    · exact State.dropKept_within _ p
  dsimp only
  split
  · exact dropped.trans ((State.portStatus_within _ _ _).after rfl)
  · exact dropped.trans rfl

theorem execHelloReceive_live (live : (s.port p).live = true) (h : Hello) :
    let s1 := s.atClk at_
    let s3 := s1.helloHeard p h
    execHelloReceive p h at_ s = .next (if s3.helloOk (s.port p) h = true then
        (if (s.port p).state = 3 then s3 else (s3.modPort p fun x => { x.fresh h (s1.advertise p) with state := 3 }).resend p)
      else (s3.modPort p fun x => { x with state := 4 }).portStatus p stTopoMismatch) := by
  intro s1 s3
  refine (if_neg ?_).trans ?_
  · rw [State.atClk_port, live]
    decide
  by_cases expected : s3.helloOk (s.port p) h = true
  · rw [if_pos expected]
    exact (if_pos expected).trans (ite_next_of_iff beq_iff_eq rfl)
  · rw [if_neg expected]
    exact if_neg expected

end

/-- Settles O33, command by command: the port's state, the frame's check and number, the marker's sums and the hello decide. -/
theorem linksCarryFramesAndCountThem : Obligations.LinksCarryFramesAndCountThem := by
  refine ⟨fun s f at_ known chan live => ?frame, fun s p at_ live => ?lost, fun s p v h rs sent at_ up chan out => ?census,
    fun s p width at_ ok low => execPortTrainingDone_electrical at_ low width ok,
    fun s p width at_ ok low high training => execPortTrainingDone_optical at_ low high training width ok,
    fun s p at_ failed => execFullSearchRetry_failed at_ failed, fun s p at_ h live => ?hello⟩
  case frame =>
    exact ⟨execFrameReceive_badCheck at_ known chan live, fun good gen up =>
      ⟨State.frameHeard_within _ _, execFrameReceive_good at_ known chan live good gen up⟩⟩
  case lost => exact ⟨execLinkIdleTimeout_live at_ live, execPortDown_live at_ live⟩
  case census => exact execCensusMarkerReceive_up at_ up chan out h rs sent
  case hello => exact ⟨State.helloHeard_within _ _ _, execHelloReceive_live at_ live h⟩

end Sys2Proof.Machine
end


section
/-! Ring searches, the lock loop and the exchange that takes a lane out (spec/16_optical_engines.md R346 to R352). -/

namespace Sys2Proof.Machine
variable {s : State}

/-! ### Searches (R346, R347) -/

section
variable {e temp : Nat} (buses : List (List Nat × Nat)) {found : Bool} (known : e ≤ 1) (searching : (s.eng e).state = 1)

/-- Every bus of engine `e` searched by what was measured on it. -/
def State.searchBuses (s : State) (e : Nat) (buses : List (List Nat × Nat)) (temp : Nat) : State :=
  (List.range 16).foldl (fun t i =>
    t.searchBus (16 * e + i) ((buses[i]?).getD ([], 0x3FFFF)).1 ((buses[i]?).getD ([], 0x3FFFF)).2 temp) s

/-- An engine that has found its rings is locked with its lanes in, and a port with fewer than 8 lanes fails (R347, R351). -/
def State.searched (s : State) (e temp : Nat) : State :=
  fibres.foldl (fun t i =>
    if popCount 16 (t.laneMask e i) < 8 then
      (t.modPort (fibrePort e i) fun x => { x with state := 5, failedAt := t.clk, lastStatus := stRingSearchFail }).optStatus
        e stRingSearchFail (fibrePort e i)
    else t)
    (s.modEng e fun x => { x with
      state := 2, cached := false, tempC := min 127 temp, searches := wrapAdd 16 x.searches 1, out := [], faulty := [] })

include known searching

/-- The guard of a search that completes, as the command tests it. -/
theorem Eng.inSearch : ¬ (decide (1 < e) || (s.eng e).state != 1) = true := by
  rw [decide_eq_false (Nat.not_lt.2 known), searching]
  decide

theorem execSearchComplete_mustSearch (cached : (s.eng e).cached = true) (must : s.mustSearch e temp found = true) :
    execSearchComplete e buses found temp s =
      .next ((s.modEng e fun x => { x with cached := false, tempC := min 127 temp }).elemSearch true) :=
  (if_neg (Eng.inSearch known searching)).trans (if_pos ((Bool.and_eq_true _ _).mpr ⟨cached, must⟩))

theorem execSearchComplete_full (full : (s.eng e).cached = false) :
    execSearchComplete e buses found temp s = .next ((s.searchBuses e buses temp).searched e temp) := by
  refine (if_neg (Eng.inSearch known searching)).trans ?_
  rw [full]
  exact if_neg Bool.false_ne_true

end

/-! ### The lock loop (R348, R350) -/

/-- The ring after a lock visit: the error is kept and the heater moved back by it, at most 2 GHz. -/
def State.lockMoved (s : State) (i : Nat) (err : Int) (wide : Bool) : State :=
  s.modRing i fun g => { g with
    err := unsigned 12 (clampI (-2048) 2047 err), missed := if wide then g.missed + 1 else 0,
    heater := heaterFor ((heaterShift g.heater : Int) - clampI (-200) 200 err).toNat }

theorem execLockVisit_locked {b r : Nat} (err : Int) (bus : b ≤ 31) (ring : r ≤ 17) (locked : (s.eng (b / 16)).state = 2)
    (role : (s.ring (18 * b + r)).role = 1) :
    let e := b / 16
    let i := 18 * b + r
    let g := s.ring i
    let wide := decide (err < -600 ∨ 600 < err)
    let s1 := s.lockMoved i err wide
    let bit := 2 ^ g.wavelength
    execLockVisit b r err s = .next
      (if wide = true ∧ 1 ≤ g.missed then
        ((((s1.modRing i fun g => { g with missed := 0 }).modBus b fun x => { x with
          locked := if bitOf x.locked g.wavelength then x.locked - bit else x.locked,
          lockLosses := satAdd 0xFFFF x.lockLosses 1 }).modEng e fun x => { x with
            lockLosses := satAdd 0xFFFF x.lockLosses 1 }).optStatus e stLockLost).laneFault e (16 * ((b % 16) / 2) + g.wavelength)
      else s1.modBus b fun x => { x with
        locked := if wide then (if bitOf x.locked g.wavelength then x.locked - bit else x.locked) else x.locked ||| bit }) := by
  intro e i g wide s1 bit
  have visited :
      ¬ (decide (31 < b) || decide (17 < r) || (s.eng (b / 16)).state != 2 || (s.ring (18 * b + r)).role != 1) = true := by
    rw [decide_eq_false (Nat.not_lt.2 bus), decide_eq_false (Nat.not_lt.2 ring), locked, role]
    decide
  have outside : (decide (err < -600) || decide (600 < err)) = wide := (Bool.decide_or _ _).symm
  refine (if_neg visited).trans ?_
  rw [outside]
  refine ite_next_of_iff ?_ rfl
  rw [Bool.and_eq_true]
  exact and_congr_right' decide_eq_true_iff

/-! ### Lane exchanges (R352) -/

section
variable {p w : Nat} (low : 7 ≤ p) (high : p ≤ 22)
include low high

/-- The guard of an optical port and a lane, as the lane commands test it. -/
theorem lane_not_stray (lane : w ≤ 15) : (decide (p < 7) || decide (22 < p) || decide (15 < w)) = false := by
  rw [decide_eq_false (Nat.not_lt.2 low), decide_eq_false (Nat.not_lt.2 high), decide_eq_false (Nat.not_lt.2 lane)]
  decide

theorem execCombLineLow_lane (lane : w ≤ 15) :
    execCombLineLow p w s = .next (s.laneFault ((p - 7) / 8) (16 * ((p - 7) % 8) + w)) :=
  if_neg (ne_true_of_eq_false (lane_not_stray low high lane))

theorem execLaneOutRequest_up (lane : w ≤ 15) (fault : Bool) (up : ((s.takeVc0 p 1).port p).state = 3) :
    let s1 := s.takeVc0 p 1
    let e := (p - 7) / 8
    let key := 16 * ((p - 7) % 8) + w
    let ok := s1.laneIn e key && (fault || (!(s1.eng e).calBusy && !(s1.adc e).manual))
    execLaneOutRequest p w fault s = .next (if ok = true then
        (s1.giveCell p 0 (.laneReply w true)).modEng e fun x => { x with out := x.out ++ [⟨key, fault, s1.tickNo + 2, false⟩] }
      else s1.giveCell p 0 (.laneReply w false)) := by
  intro s1 e key ok
  have served : ¬ (decide (p < 7) || decide (22 < p) || decide (15 < w) || (s1.port p).state != 3) = true := by
    rw [lane_not_stray low high lane, up]
    decide
  refine (if_neg served).trans ?_
  change Host.Outcome.next (if ok = true then (s1.giveCell p 0 (.laneReply w ok)).modEng e fun x =>
    { x with out := x.out ++ [⟨key, fault, s1.tickNo + 2, false⟩] } else s1.giveCell p 0 (.laneReply w ok)) = _
  cases ok with
  | true => rfl
  | false => rfl

theorem execLaneOutReply_asked (accept : Bool) {a : Nat × Bool × Nat}
    (asked : (((s.takeVc0 p 1).eng ((p - 7) / 8)).asked.find? fun a => a.1 == 16 * ((p - 7) % 8) + w) = some a) :
    let e := (p - 7) / 8
    let key := 16 * ((p - 7) % 8) + w
    let s2 := (s.takeVc0 p 1).modEng e fun x => { x with asked := x.asked.filter fun (y : Nat × Bool × Nat) => y.1 != key }
    execLaneOutReply p w accept s = .next
      (if accept = true then s2.modEng e fun x => { x with out := x.out ++ [⟨key, a.2.1, a.2.2 + 2, false⟩] }
        else if a.2.1 = true then s2
        else (s2.modEng e fun x => { x with calRetry := x.calRetry ++ [key] }).calNext e) := by
  have served : ¬ (decide (p < 7) || decide (22 < p)) = true := by
    rw [decide_eq_false (Nat.not_lt.2 low), decide_eq_false (Nat.not_lt.2 high)]
    decide
  refine (if_neg served).trans ?_
  rw [asked]
  exact ite_next_of_iff Iff.rfl (ite_next_of_iff Iff.rfl rfl)

end

/-- Settles O35, command by command: the engine's state, the lock window and the lane's exchange decide. -/
theorem ringSearchesAndLaneExchanges : Obligations.RingSearchesAndLaneExchanges := by
  refine ⟨fun s e => ⟨rfl, rfl⟩, fun s e temp buses found known searching => ⟨?cached, ?full⟩,
    fun s b r err bus ring locked role => execLockVisit_locked err bus ring locked role, fun s p w low high => ?lanes⟩
  case cached => exact execSearchComplete_mustSearch buses known searching
  case full => exact execSearchComplete_full buses known searching
  case lanes =>
    exact ⟨State.takeVc0_within _ p 1, fun fault lane up => execLaneOutRequest_up low high lane fault up,
      fun accept a asked => execLaneOutReply_asked low high accept asked, execCombLineLow_lane low high⟩

end Sys2Proof.Machine
end


section
/-! Calibration, laser loss, table mode and the service ADC (spec/16_optical_engines.md R352 to R363;
spec/22_electrical_and_package.md R472). -/

namespace Sys2Proof.Machine
variable {s : State} {e : Nat}

/-! ### Calibration (R352, R353, R354) -/

/-- A calibration cycle begins over every lane of the engine's open ports. -/
def State.calBegun (s : State) (e : Nat) : State :=
  (s.modEng e fun x => { x with
    calQueue := fibres.flatMap fun t =>
      if (s.port (fibrePort e t)).state == 3 || s.loopedBack e t then (bitsOf 16 (s.laneMask e t)).map (16 * t + ·) else [],
    calRetry := [], calClk := s.clk }).calNext e

theorem execCalCycleStart_on (known : e ≤ 1) (at_ : Nat) (on : (s.eng e).calEn = true)
    (serving : (s.eng e).state = 2 ∨ (s.eng e).state = 3) :
    let s1 := s.atClk at_
    execCalCycleStart e at_ s =
      .next (if s1.clk < (s.eng e).calClk + (s.eng e).calInterval * 1100000000 then s1 else s1.calBegun e) := by
  refine ite_next_of_iff ?_ rfl
  have stateServes : ((s.eng e).state != 2 && (s.eng e).state != 3) = false := by
    rw [Bool.and_eq_false_iff, bne_eq_false_iff_eq, bne_eq_false_iff_eq]
    exact serving
  rw [show (s.atClk at_).eng e = s.eng e from rfl, decide_eq_false (Nat.not_lt.2 known), on, stateServes, Bool.not_true,
    Bool.false_or, Bool.false_or, Bool.false_or, decide_eq_true_iff]

/-- A fit that lies outside the bound of a calibration (R353). -/
def fitBad (d : Int) : Bool := d < -400 || 400 < d

/-- A slot outside the bound: the lane goes out for a fault and each bus that failed counts it (R354). -/
def State.calFailed (s : State) (e key : Nat) (dTx dRx : Int) : State :=
  let b := busOf e (key / 16) 0
  [(b, dTx), (b + 1, dRx)].foldl (fun t f =>
      if fitBad f.2 then t.modBus f.1 fun x => { x with calFails := satAdd 0xFFFF x.calFails 1 } else t)
    (s.modEng e fun x => { x with
      calFail := satAdd 0xFFFF x.calFail 1, out := x.out.map fun o => if o.key == key then { o with fault := true } else o,
      faulty := x.faulty.filter (fun f => f.1 != key) ++ [(key, ((x.faulty.find? fun f => f.1 == key).map (·.2)).getD 0 + 1)] })

/-- The ring that serves the lane on a bus is tuned by the fit. -/
def State.tuned (s : State) (e key bus : Nat) (d : Int) : State :=
  match s.ringFor bus (key % 16) with
  | some i => s.relock e i d
  | none => s

theorem execCalSlotEnd_over (known : e ≤ 1) (dTx dRx : Int) {key end_ : Nat} {abandoned : Bool}
    (slot : (s.eng e).calLane = some (key, end_, abandoned)) (over_ : end_ ≤ s.tickNo) :
    let b := busOf e (key / 16) 0
    let s0 := s.modEng e fun x => { x with calLane := none }
    execCalSlotEnd e dTx dRx s = .next (
      if abandoned = true then ((s0.laneBack e key).modEng e fun x => { x with calRetry := x.calRetry ++ [key] }).calNext e
      else if (fitBad dTx || fitBad dRx) = true then
        (((s0.calFailed e key dTx dRx).modPort (fibrePort e (key / 16)) fun x => { x with degraded := true }).optStatus e
          stCalFail).calNext e
      else (((((s0.tuned e key b dTx).tuned e key (b + 1) dRx).modEng e fun x => { x with
        calDone := satAdd 0xFFFF x.calDone 1 }).laneBack e key).calNext e)) := by
  have ended : ¬ (decide (1 < e) || decide (s.tickNo < end_)) = true := by
    rw [decide_eq_false (Nat.not_lt.2 known), decide_eq_false (Nat.not_lt.2 over_)]
    decide
  dsimp only [execCalSlotEnd]
  rw [slot]
  exact (if_neg ended).trans (ite_next_of_iff Iff.rfl (ite_next_of_iff Iff.rfl rfl))

/-! ### Lasers (R359, R360) -/

theorem laser_known {L : Nat} (known : e ≤ 1) (laser : L ≤ 3) : ¬ (decide (1 < e) || decide (3 < L)) = true := by
  rw [decide_eq_false (Nat.not_lt.2 known), decide_eq_false (Nat.not_lt.2 laser)]
  decide

/-! ### Table mode (R362, R363) -/

/-- Every heater in service of the engine follows its table at temperature `t4` (R363). -/
def State.tableHeaters (s : State) (e : Nat) (t4 : Int) (off : Bool) : State :=
  let k := tableIdx t4
  let f := if off then 0 else (t4.toNat - 80) % 16
  (List.range 288).foldl (fun t j =>
    if (t.ring (288 * e + j)).role != 1 then t
    else
      let a := t.opt.table (288 * e + j) k
      let b := t.opt.table (288 * e + j) (min 15 (k + 1))
      if !a.ok || !b.ok then t.report 3 10 stPairBroken
      else t.modRing (288 * e + j) fun g => { g with heater := round16 (a.nat % 4096 * (16 - f) + b.nat % 4096 * f) }) s

theorem execTableModeUpdate_on (known : e ≤ 1) (t4 : Int) (on : (s.eng e).tableMode = true) :
    let off := decide (t4 < 80 ∨ 320 < t4)
    let s2 := (s.tableHeaters e t4 off).modEng e fun x => { x with tempC := min 127 (t4 / 4).toNat, rangeTold := off }
    execTableModeUpdate e t4 s =
      .next (if off = true ∧ (s.eng e).rangeTold = false then s2.optStatus e stTableRange else s2) := by
  intro off s2
  have steered : ¬ (decide (1 < e) || !(s.eng e).tableMode) = true := by
    rw [decide_eq_false (Nat.not_lt.2 known), on]
    decide
  have outside : (decide (t4 < 80) || decide (320 < t4)) = off := (Bool.decide_or _ _).symm
  refine (if_neg steered).trans ?_
  rw [outside]
  refine congrArg Host.Outcome.next (ite_of_iff ?_ _ _)
  rw [Bool.and_eq_true, Bool.not_eq_true']

/-- The calibration fields of the engine's control word. -/
def State.calWritten (s : State) (e value : Nat) : State := s.modEng e fun x => { x with
  calEn := bitOf value 28, calTicks := max (fld value 27 20) (calBound s.tick.period), calInterval := max 1 (fld value 11 0) }

theorem execTableModeWrite_engine (known : e ≤ 1) (value : Nat) :
    let on := bitOf value 29
    let s1 := s.calWritten e value
    execTableModeWrite e value s = .next (if on = (s.eng e).tableMode then s1
      else if s.allOff e = true then s1.modEng e fun x => { x with
        tableMode := on, state := if on then 3 else 0, rangeTold := false }
      else s1.optRefuse e) :=
  (if_neg (Nat.not_lt.2 known)).trans (ite_next_of_iff beq_iff_eq (ite_next_of_iff Iff.rfl rfl))

/-! ### The service ADC (R472) -/

/-- The ADC after a write of its settings; settings that differ wait for the sample under way. -/
def Adc.settings (a : Adc) (value : Nat) : Adc :=
  let a1 := { a with
    manual := bitOf value 31, filter := if fld value 30 28 < 6 then fld value 30 28 else a.filter, gain := fld value 27 26,
    bus := fld value 9 5, sel := if fld value 4 0 < 21 then fld value 4 0 else a.sel }
  let want := (a1.filter, a1.gain, at' a1.bus 5 + a1.sel)
  if bitOf value 31 && want != a.next.getD a.cur then { a1 with next := some want } else a1

theorem execAdcSettingsWrite_engine (known : e ≤ 1) (value : Nat) :
    let man := bitOf value 31
    let s1 := s.modAdc e fun _ => (s.adc e).settings value
    execAdcSettingsWrite e value s = .next (if man = true ∧ (s.adc e).manual = false then
        s1.modEng e fun x => { x with calLane := x.calLane.map fun c => (c.1, c.2.1, true) }
      else if man = false ∧ (s.adc e).manual = true then s1.calNext e else s1) := by
  refine (if_neg (Nat.not_lt.2 known)).trans (congrArg Host.Outcome.next ?_)
  refine (ite_of_iff ?taken _ _).trans (if_congr Iff.rfl rfl (ite_of_iff ?given _ _))
  case taken => rw [Bool.and_eq_true, Bool.not_eq_true']
  case given => rw [Bool.and_eq_true, Bool.not_eq_true']

/-- Settles O36, command by command: the slot's fits, the engine's mode and ports, and the settings in use decide. -/
theorem calibrationLasersAndTableMode : Obligations.CalibrationLasersAndTableMode := by
  intro s e known x
  refine ⟨fun at_ on serving => execCalCycleStart_on known at_ on serving,
    fun dTx dRx key end_ abandoned slot over_ => ?slot, fun L laser => ?lasers,
    fun t4 on => execTableModeUpdate_on known t4 on, fun value => execTableModeWrite_engine known value,
    fun code => if_neg (Nat.not_lt.2 known), fun value => execAdcSettingsWrite_engine known value⟩
  case slot =>
    have judged := execCalSlotEnd_over known dTx dRx slot over_
    refine ⟨fun left_ => ?_, fun kept outside => ?_, fun kept within_ => ?_⟩
    · exact judged.trans (congrArg _ (if_pos left_))
    · exact judged.trans (congrArg _ ((if_neg (ne_true_of_eq_false kept)).trans (if_pos outside)))
    · exact judged.trans (congrArg _ ((if_neg (ne_true_of_eq_false kept)).trans (if_neg (ne_true_of_eq_false within_))))
  case lasers => exact ⟨if_neg (laser_known known laser), if_neg (laser_known known laser)⟩

end Sys2Proof.Machine
end


section
/-! Switch slots, the base map, plan entries and circuits (spec/16_optical_engines.md R355 to R358, R362). -/

namespace Sys2Proof.Machine
variable {s : State}

theorem execSwitchSlotWrite_slot {i : Nat} (known : i ≤ 15) (value : Nat) :
    let used := (s.opt.entries (i / 8)).any fun x => fld x.2.1 30 28 == i % 8 && s.released (fld x.2.2 9 0)
    execSwitchSlotWrite i value s = .next (if mapOk value = true ∧ used = false then
      { s with opt := { s.opt with slots := s.opt.slots.set i (value % 2 ^ 32) } } else s.mapRefuse (i / 8)) := by
  intro used
  refine (if_neg (Nat.not_lt.2 known)).trans ((ite_next_of_iff ?_ rfl).trans
    (congrArg _ (ite_not (mapOk value = true ∧ used = false) _ _)))
  rw [Bool.or_eq_true, Bool.not_eq_true', not_and_or, Bool.not_eq_true, Bool.not_eq_false]

theorem execMapApply_engine {e : Nat} (known : e ≤ 1) (slot : Nat) :
    let s1 := s.modEng e fun x => { x with slot := slot % 8 }
    let t := (s1.eng e).applyAt.nat
    execMapApply e slot s = .next (if mapOk (s.opt.slot e (slot % 8)) = true ∧ s.tickNo < t then
        s1.modEng e fun x => { x with applyPending := true, applySlot := slot % 8, applyTick := t }
      else (s1.modEng e fun x => { x with applyPending := false }).mapRefuse e) := by
  intro s1 t
  refine (if_neg (Nat.not_lt.2 known)).trans ((ite_next_of_iff ?_ rfl).trans
    (congrArg _ (ite_not (mapOk (s.opt.slot e (slot % 8)) = true ∧ s.tickNo < t) _ _)))
  rw [Bool.or_eq_true, Bool.not_eq_true', not_and_or, Bool.not_eq_true, decide_eq_true_iff, not_lt]
  rfl

/-- The context of a plan entry, where the entry has one, is loaded and not released (R358). -/
def State.planOpen (s : State) (x : Nat × Nat) : Prop :=
  bitOf x.1 31 = true → (s.load (fld x.2 9 0)).state = 4 ∧ s.released (fld x.2 9 0) = false

theorem State.not_planOpen_iff (x : Nat × Nat) :
    (bitOf x.1 31 && ((s.load (fld x.2 9 0)).state != 4 || s.released (fld x.2 9 0))) = true ↔ ¬ s.planOpen x := by
  unfold State.planOpen
  rw [Bool.and_eq_true, Bool.or_eq_true, bne_iff_ne, Classical.not_imp, not_and_or, Bool.not_eq_false]

/-- Entry `i` after a write of one of its words. -/
def State.planWritten (s : State) (i word value : Nat) : Nat × Nat :=
  let old := Tab.get s.opt.plan i (0, 0)
  if word = 0 then (value % 2 ^ 32, old.2) else (old.1, fld value 9 0)

/-- A write of a plan entry's word is allowed: old and new entry are open, and the new one is sound (R358). -/
def State.planMayWrite (s : State) (i word value : Nat) : Prop :=
  let new := s.planWritten i word value
  s.planOpen (Tab.get s.opt.plan i (0, 0)) ∧ s.planOpen new ∧ (bitOf new.1 31 = true → s.planBad i new.1 new.2 = false)

theorem State.planClosed_iff (i word value : Nat) :
    let new := s.planWritten i word value
    let closed (x : Nat × Nat) : Bool := bitOf x.1 31 && ((s.load (fld x.2 9 0)).state != 4 || s.released (fld x.2 9 0))
    (closed (Tab.get s.opt.plan i (0, 0)) || closed new || (bitOf new.1 31 && s.planBad i new.1 new.2)) = true ↔
      ¬ s.planMayWrite i word value := by
  intro new closed
  have soundIff :
      (bitOf new.1 31 && s.planBad i new.1 new.2) = true ↔ ¬ (bitOf new.1 31 = true → s.planBad i new.1 new.2 = false) := by
    rw [Bool.and_eq_true, Classical.not_imp, Bool.not_eq_false]
  rw [Bool.or_eq_true, Bool.or_eq_true, State.not_planOpen_iff, State.not_planOpen_iff, soundIff, or_assoc, ← not_and_or,
    ← not_and_or]
  rfl

/-- A write of a plan entry as one test: the entry is stored or the map refuses. -/
theorem execPlanEntryWrite_entry {i : Nat} (known : i ≤ 63) (word value : Nat) :
    let new := s.planWritten i word value
    let closed (x : Nat × Nat) : Bool := bitOf x.1 31 && ((s.load (fld x.2 9 0)).state != 4 || s.released (fld x.2 9 0))
    execPlanEntryWrite i word value s =
      if (closed (Tab.get s.opt.plan i (0, 0)) || closed new || (bitOf new.1 31 && s.planBad i new.1 new.2)) = true then
        .next (s.mapRefuse (i / 32))
      else .next { s with opt := { s.opt with plan := Tab.put s.opt.plan i (0, 0) new } } := by
  intro new closed
  have written : (if (word == 0) = true then (value % 2 ^ 32, (Tab.get s.opt.plan i (0, 0)).2)
      else ((Tab.get s.opt.plan i (0, 0)).1, fld value 9 0)) = new := ite_of_iff beq_iff_eq _ _
  refine (if_neg (Nat.not_lt.2 known)).trans ?_
  dsimp only
  rw [written]

/-- On its peer's ident a port in training to the outside reopens the circuit, or counts a cold one (R362). -/
theorem execCircuitIdentReceive_training {p : Nat} (low : 7 ≤ p) (high : p ≤ 22) (training : (s.port p).state = 1)
    (outside : mapCode (s.eng ((p - 7) / 8)).swNow ((p - 7) % 8) = 8) (serial gen : Nat) (last : List Nat) (at_ : Nat) :
    execCircuitIdentReceive p serial gen last at_ s =
      .next (match s.opt.circs.find? fun y => y.1 == p && y.2.serial == serial && y.2.gen == gen with
        | some y => (s.atClk at_).reopen p y.2 last
        | none => ((s.atClk at_).modEng ((p - 7) / 8) fun x => { x with
            coldOpens := satAdd 0xFFFF x.coldOpens 1 }).optStatus ((p - 7) / 8) stCircuitCold p) := by
  have inTraining : ¬ (decide (p < 7) || decide (22 < p) || (s.port p).state != 1) = true := by
    rw [decide_eq_false (Nat.not_lt.2 low), decide_eq_false (Nat.not_lt.2 high), training]
    decide
  refine (if_neg inTraining).trans ((if_neg (mt bne_iff_ne.1 (not_not_intro outside))).trans ?_)
  rw [State.atClk_opt]
  cases s.opt.circs.find? fun y => y.1 == p && y.2.serial == serial && y.2.gen == gen with
  | some y => rfl
  | none => rfl

/-- Settles O37, command by command: the slot's users, the map and its tick, the entry's contexts and the frozen circuits decide. -/
theorem switchMapsPlansAndCircuits : Obligations.SwitchMapsPlansAndCircuits := by
  refine ⟨fun s i value known => execSwitchSlotWrite_slot known value, fun s e slot known => execMapApply_engine known slot,
    fun s i word value known => ⟨fun open_ => ?written, fun closed => ?refused⟩,
    fun s p serial gen at_ last low high training outside =>
      execCircuitIdentReceive_training low high training outside serial gen last at_⟩
  case written =>
    exact (execPlanEntryWrite_entry known word value).trans (if_neg (mt (State.planClosed_iff i word value).1 (not_not_intro open_)))
  case refused => exact (execPlanEntryWrite_entry known word value).trans (if_pos ((State.planClosed_iff i word value).2 closed))

end Sys2Proof.Machine
end

section
/-! What reset leaves, and the tick's small commands: relock, holdover, echoes, arms and checked writes (R48 to R66, R204, R278). -/

namespace Sys2Proof.Machine

/-! ### Reset -/

/-- A context that no partition is assigned to owns none. -/
theorem bitsOf_zero (n : Nat) : bitsOf n 0 = [] :=
  List.filter_eq_nil_iff.2 fun i _ => by simp [bitOf]

theorem State.granPair_reset (gk : Nat) : State.reset.granPair gk = pairOf 2 0 := rfl

theorem State.granState_reset (gk : Nat) : State.reset.granState gk = 0 := by
  rw [State.granState, State.granPair_reset]
  rfl

theorem State.partsOf_reset (c : Nat) : State.reset.partsOf c = [] := bitsOf_zero 64

/-! ### Holdover and echoes (R49, R50, R52) -/

variable {s : State}

/-- R52 asks for holdover, alignment and holdover_max ticks of it. -/
theorem State.holdoverWaits_iff (s : State) :
    (!s.tick.holdover || !s.tick.aligned || decide (s.tick.holdoverTicks < s.tick.holdoverMax)) = true ↔
      s.tick.holdover = false ∨ s.tick.aligned = false ∨ s.tick.holdoverTicks < s.tick.holdoverMax := by
  simp [or_assoc]

theorem State.backupLeft_iff (s : State) :
    (s.tick.backupPort != 0x3F && !s.tick.onBackup) = true ↔ s.tick.backupPort ≠ 0x3F ∧ s.tick.onBackup = false := by
  simp

theorem execHoldoverExpire_waits (waits : s.tick.holdover = false ∨ s.tick.aligned = false ∨ s.tick.holdoverTicks < s.tick.holdoverMax) :
    execHoldoverExpire s = .next s :=
  if_pos (s.holdoverWaits_iff.2 waits)

theorem execHoldoverExpire_expired (held : s.tick.holdover = true) (aligned : s.tick.aligned = true)
    (expired : s.tick.holdoverMax ≤ s.tick.holdoverTicks) :
    execHoldoverExpire s =
      .next (if s.tick.backupPort ≠ 0x3F ∧ s.tick.onBackup = false then
          { s with tick := { s.tick with onBackup := true, holdoverTicks := 0 } }
        else { s with tick := { s.tick with aligned := false } }.report 0 1 stLinkDown noPart noCtx s.tick.upstream) := by
  have due : ¬ (!s.tick.holdover || !s.tick.aligned || decide (s.tick.holdoverTicks < s.tick.holdoverMax)) = true := by
    simp [held, aligned, expired]
  refine (if_neg due).trans ?_
  by_cases backup : s.tick.backupPort ≠ 0x3F ∧ s.tick.onBackup = false
  · rw [if_pos backup]
    exact if_pos (s.backupLeft_iff.2 backup)
  · rw [if_neg backup]
    exact if_neg (mt s.backupLeft_iff.1 backup)

variable {at_ : Nat}

theorem execEchoSend_due {b : Beacon} (held : s.tick.lastBeacon = some b) (due : 256 ≤ s.tick.ticksSinceEcho) :
    execEchoSend at_ s =
      .next ({ s.atClk at_ with tick := { s.tick with ticksSinceEcho := 0 } }.giveCell s.tick.upstream 0
        (.beacon { b with echo := true, turnaround := min 0xFFFF ((s.atClk at_).clk - s.tick.lastBeaconClk) })) := by
  simp only [execEchoSend, State.atClk_tick, held, if_neg (Nat.not_lt.2 due)]

theorem execEchoSend_waits (waits : s.tick.lastBeacon = none ∨ s.tick.ticksSinceEcho < 256) :
    execEchoSend at_ s = .next (s.atClk at_) := by
  unfold execEchoSend
  dsimp only
  split
  case h_1 => rfl
  case h_2 b held =>
    exact if_pos (waits.resolve_left fun none_ => by simp [none_] at held)

theorem execEchoReceive_answers {port : Nat} {b : Beacon} {e : Nat × Nat × Nat}
    (sent : (s.tick.beaconSent.find? fun e => e.1 == port && e.2.1 == b.tick) = some e) :
    execEchoReceive port b at_ s = .next { s.beaconTaken port at_ with tick := { s.tick with
      delayBack := Tab.set s.tick.delayBack port (((s.atClk at_).clk - e.2.2 - b.turnaround) / 2) } } := by
  unfold execEchoReceive
  rw [← State.beaconTaken]
  simp only [State.beaconTaken_tick, State.beaconTaken_clk, sent]

/-! ### Arms and disarms (R54, R56, R66) -/

/-- The start states that an arm leaves as they are: released and withheld. -/
theorem State.standing_iff (s : State) (c : Nat) :
    ((s.start c).state == 3 || (s.start c).state == 6) = true ↔ (s.start c).state = 3 ∨ (s.start c).state = 6 := by
  simp only [Bool.or_eq_true, beq_iff_eq]

theorem State.notReady_iff (s : State) (c : Nat) :
    (!s.tick.aligned || (s.load c).state != 4) = true ↔ s.tick.aligned = false ∨ (s.load c).state ≠ 4 := by
  simp only [Bool.or_eq_true, Bool.not_eq_true', bne_iff_ne]

/-- A settled context of a rollback, with no tail to replay. -/
theorem State.replays_iff (s : State) (c : Nat) : ((s.led c).state == 5 && (s.led c).settled && !(s.led c).needTail) = true ↔
    (s.led c).state = 5 ∧ (s.led c).settled = true ∧ (s.led c).needTail = false := by
  simp only [Bool.and_eq_true, beq_iff_eq, Bool.not_eq_true', and_assoc]

theorem execStartArm_standing {S : Nat} (stands : (s.start s.tick.startCtx).state = 3 ∨ (s.start s.tick.startCtx).state = 6) :
    execStartArm S s = .next { s with tick := { s.tick with startAt := pairOf 64 S } } :=
  if_pos ((s.standing_iff _).2 stands)

section
variable {S : Nat} (free : ¬ ((s.start s.tick.startCtx).state = 3 ∨ (s.start s.tick.startCtx).state = 6))
include free

theorem execStartArm_notReady (notReady : s.tick.aligned = false ∨ (s.load s.tick.startCtx).state ≠ 4) :
    execStartArm S s = .next ({ s with tick := { s.tick with startAt := pairOf 64 S } }.modStart s.tick.startCtx
      fun x => { x with state := 5 }) :=
  (if_neg (mt (s.standing_iff _).1 free)).trans (if_pos ((s.notReady_iff _).2 notReady))

variable (ready : ¬ (s.tick.aligned = false ∨ (s.load s.tick.startCtx).state ≠ 4))
include ready

theorem execStartArm_late (late : S < s.tickNo + 2 + s.rampTicks s.tick.startCtx) :
    execStartArm S s = .next ({ s with tick := { s.tick with startAt := pairOf 64 S } }.modStart s.tick.startCtx
      fun x => { x with state := 4 }) :=
  (if_neg (mt (s.standing_iff _).1 free)).trans ((if_neg (mt (s.notReady_iff _).1 ready)).trans (if_pos late))

/-- With the lead of R54 the context is armed, and a settled one of a rollback moves to replaying (R297). -/
theorem execStartArm_arms (lead : s.tickNo + 2 + s.rampTicks s.tick.startCtx ≤ S) :
    let c := s.tick.startCtx
    let t := { s.modStart c fun _ => { state := 1, s := S, p1 := s.p1 c } with
      tick := { s.tick with startAt := pairOf 64 S }, gov := { s.gov with ballastCtx := some c } }
    execStartArm S s = .next (if (s.led c).state = 5 ∧ (s.led c).settled = true ∧ (s.led c).needTail = false then
      t.modLed c fun l => { l with state := 6 } else t) := by
  refine (if_neg (mt (s.standing_iff _).1 free)).trans ((if_neg (mt (s.notReady_iff _).1 ready)).trans
    ((if_neg (Nat.not_lt.2 lead)).trans ?_))
  exact congrArg Host.Outcome.next (ite_of_iff (s.replays_iff _) _ _)

end

/-- The start states that a disarm ends: armed, ramping and withheld. -/
theorem State.disarms_iff (s : State) (c : Nat) :
    ((s.start c).state == 1 || (s.start c).state == 2 || (s.start c).state == 6) = true ↔
      (s.start c).state = 1 ∨ (s.start c).state = 2 ∨ (s.start c).state = 6 := by
  simp only [Bool.or_eq_true, beq_iff_eq, or_assoc]

theorem execStartDisarm_eq (c : Nat) : execStartDisarm c s =
    .next (if (s.start c).state = 1 ∨ (s.start c).state = 2 ∨ (s.start c).state = 6 then
        { s.modStart c fun x => { x with state := 0 } with
          tick := { s.tick with startCtx := c }, gov := { s.gov with ballastCtx := some c } }
      else { s with tick := { s.tick with startCtx := c } }) := by
  by_cases ends : (s.start c).state = 1 ∨ (s.start c).state = 2 ∨ (s.start c).state = 6
  · rw [if_pos ends]
    exact if_pos ((s.disarms_iff c).2 ends)
  · rw [if_neg ends]
    exact if_neg (mt (s.disarms_iff c).1 ends)

/-! ### Checked writes (R64, R204, R278) -/

/-- No context is armed, ramping or released. -/
theorem State.anyStarted_eq_false_iff (s : State) :
    s.anyStarted = false ↔ ∀ e ∈ s.starts, e.2.state ≠ 1 ∧ e.2.state ≠ 2 ∧ e.2.state ≠ 3 := by
  simp [State.anyStarted, and_assoc]

theorem execTickPeriodWrite_eq (v : Nat) : execTickPeriodWrite v s =
    .next (if 4 ≤ v % 128 ∧ v % 128 ≤ 64 ∧ ∀ e ∈ s.starts, e.2.state ≠ 1 ∧ e.2.state ≠ 2 ∧ e.2.state ≠ 3 then
        { s with tick := { s.tick with periodNext := some (v % 128) } }
      else { s with tick := { s.tick with periodRefused := true } }) := by
  have period : fld v 6 0 = v % 128 := by simp [fld_eq]
  have refused : (decide (fld v 6 0 < 4) || decide (64 < fld v 6 0) || s.anyStarted) = true ↔
      ¬ (4 ≤ v % 128 ∧ v % 128 ≤ 64 ∧ ∀ e ∈ s.starts, e.2.state ≠ 1 ∧ e.2.state ≠ 2 ∧ e.2.state ≠ 3) := by
    rw [← s.anyStarted_eq_false_iff, period, Bool.or_eq_true, Bool.or_eq_true, decide_eq_true_iff, decide_eq_true_iff, not_and_or,
      not_and_or, Nat.not_le, Nat.not_le, Bool.not_eq_false, or_assoc]
  unfold execTickPeriodWrite
  dsimp only
  rw [ite_of_iff refused, ite_not, period, apply_ite Host.Outcome.next]

/-- The weights of MEM_ARB are its four nibbles. -/
theorem arbWeights {a b c d : Nat} (ha : a < 16) (hb : b < 16) (hc : c < 16) (hd : d < 16) :
    (fld (4096 * a + 256 * b + 16 * c + d) 15 12, fld (4096 * a + 256 * b + 16 * c + d) 11 8,
      fld (4096 * a + 256 * b + 16 * c + d) 7 4, fld (4096 * a + 256 * b + 16 * c + d) 3 0) = (a, b, c, d) := by
  simp only [fld_eq, Prod.mk.injEq]
  omega

theorem execMemArbWrite_eq {a b c d : Nat} (ha : a < 16) (hb : b < 16) (hc : c < 16) (hd : d < 16) :
    execMemArbWrite (4096 * a + 256 * b + 16 * c + d) s =
      .next (if a + b + c + d = 16 then { s with memc := { s.memc with arbNext := some (a, b, c, d) } }
        else { s with memc := { s.memc with arbRefused := true } }) := by
  unfold execMemArbWrite
  rw [arbWeights ha hb hc hd]
  dsimp only
  rw [ite_of_iff beq_iff_eq, apply_ite Host.Outcome.next]

/-- An image is loaded for some context. -/
theorem State.anyLoaded_iff (s : State) : (s.loads.any fun e => e.2.state == 4) = true ↔ ∃ e ∈ s.loads, e.2.state = 4 := by
  simp only [List.any_eq_true, beq_iff_eq]

theorem bitOf_eq_decide (x i : Nat) : bitOf x i = decide (x / 2 ^ i % 2 = 1) := by
  rw [bitOf, Nat.shiftRight_eq_div_pow, beq_eq_decide]

theorem execDeterministicWrite_eq (v : Nat) : execDeterministicWrite v s =
    .next (if ∃ e ∈ s.loads, e.2.state = 4 then { s with glb := { s.glb with detRefused := true } }
      else { s with glb := { s.glb with
        deterministic := decide (v % 2 = 1), detRefused := s.glb.detRefused && decide (v / 2 % 2 = 0),
        digestStale := s.glb.digestStale || (decide (v % 2 = 1) != s.glb.deterministic) } }) := by
  have det : bitOf v 0 = decide (v % 2 = 1) := by rw [bitOf_eq_decide, Nat.pow_zero, Nat.div_one]
  have keep : (!bitOf v 1) = decide (v / 2 % 2 = 0) := by
    rw [bitOf_eq_decide, ← decide_not, Nat.pow_one]
    exact decide_eq_decide.2 (by omega)
  unfold execDeterministicWrite
  dsimp only
  rw [ite_of_iff s.anyLoaded_iff, det, keep, apply_ite Host.Outcome.next]

end Sys2Proof.Machine
end

section
/-! The obligations of reset and of the tick's small commands. -/

namespace Sys2Proof.Machine

/-- Settles O2: nothing is stored and nothing queued, and the number's pair was written whole. -/
theorem resetIsSound : Obligations.ResetIsSound := ⟨rfl, Nat.zero_le _, pairOf_ok 64 0⟩

/-- Settles O3, field by field: the tables are empty, so that each entry reads its default. -/
theorem resetLeavesSpecValues : Obligations.ResetLeavesSpecValues :=
  ⟨⟨rfl, rfl, rfl, rfl, rfl, rfl, rfl⟩, fun c => ⟨rfl, rfl, rfl, State.partsOf_reset c, rfl⟩, State.granState_reset,
    ⟨rfl, rfl, rfl, rfl⟩, fun _ _ => ⟨rfl, rfl, rfl, rfl⟩, fun _ => ⟨rfl, rfl, rfl⟩, rfl, rfl, rfl, rfl⟩

/-- Settles O13, by the conditions of R52. -/
theorem relockClearsAlignedAndAdoptsNext : Obligations.RelockClearsAlignedAndAdoptsNext :=
  ⟨fun _ => rfl, fun _ => execHoldoverExpire_expired, fun _ => execHoldoverExpire_waits⟩

/-- Settles O14: an echo that arrives frees its buffer, which the link layer alone sees, and sets the delay of its port. -/
theorem echoMeasuresTheRoundTrip : Obligations.EchoMeasuresTheRoundTrip :=
  ⟨fun _ _ _ => execEchoSend_due, fun _ _ => execEchoSend_waits,
    fun s port _ _ at_ sent => ⟨_, execEchoReceive_answers sent, s.beaconTaken_within port at_ _⟩⟩

/-- Settles O15, by the conditions of R54 in their order. -/
theorem startArmAcceptsOnlyWithLead : Obligations.StartArmAcceptsOnlyWithLead := by
  refine ⟨?arm, fun s S => execStartArm_standing, fun s c => execStartDisarm_eq c⟩
  case arm =>
    rintro s S c rfl notReleased notWithheld
    have free := not_or.2 ⟨notReleased, notWithheld⟩
    have ready (aligned : s.tick.aligned = true) (loaded : (s.load s.tick.startCtx).state = 4) :
        ¬ (s.tick.aligned = false ∨ (s.load s.tick.startCtx).state ≠ 4) := by simp [aligned, loaded]
    exact ⟨execStartArm_notReady free, fun aligned loaded => execStartArm_late free (ready aligned loaded),
      fun aligned loaded => execStartArm_arms free (ready aligned loaded)⟩

/-- Settles O16, register by register. -/
theorem checkedWritesStoreOrAreDiscarded : Obligations.CheckedWritesStoreOrAreDiscarded :=
  ⟨fun _ v => execTickPeriodWrite_eq v, fun _ _ _ _ _ => execMemArbWrite_eq, fun _ v => execDeterministicWrite_eq v⟩

end Sys2Proof.Machine
end

section
/-! The work of the matrix units and the Awl: a pass that issues, an Awl tile, and a complete bank that drains (R60, R126, R127,
R130, R154, R155, R167). -/

namespace Sys2Proof.Machine

variable {s : State} {g n u at_ c : Nat} {r : Run}

/-- A matrix unit of a cluster that the governor does not withhold issues where the stage region allows (R60, R130). -/
theorem execPassIssue_active (may : s.mayIssue g = some c) (matrix : u ≤ 1) (free : bitOf s.gov.gated (18 * g + n) = false)
    (active : (s.clu (18 * g + n)).active u = some r) :
    execPassIssue g n u at_ s =
      .next (if (s.atClk at_).stageFree c g n r = true then (s.atClk at_).issuePass c g n u r else s.atClk at_) := by
  have open_ : ¬ (decide (1 < u) || bitOf (s.atClk at_).gov.gated (18 * g + n)) = true := by
    simp [Nat.not_lt.2 matrix, free]
  simp only [execPassIssue, State.atClk_mayIssue, State.atClk_clu, may, active, if_neg open_]

theorem execPassIssue_withheld (may : s.mayIssue g = some c) (withheld : bitOf s.gov.gated (18 * g + n) = true) :
    execPassIssue g n u at_ s = .next (s.atClk at_) := by
  have shut : (decide (1 < u) || bitOf (s.atClk at_).gov.gated (18 * g + n)) = true := by simp [withheld]
  simp only [execPassIssue, State.atClk_mayIssue, may, if_pos shut]

/-- The entry time of a pass has come: there was no pass before it, or its bands have had their clocks. -/
theorem not_passWaits_iff (clk last bands wait : Nat) :
    ¬ (decide (clk < last + max bands wait) && bands != 0) = true ↔ bands = 0 ∨ last + max bands wait ≤ clk := by
  rw [Bool.and_eq_true, decide_eq_true_iff, bne_iff_ne, not_and_or, Nat.not_lt, not_not, or_comm]

/-- Settles O18. What a command tests on its way is given by the statement's hypotheses, in the order in which it is tested. -/
theorem matrixAndAwlWorkFoldsAndDrains : Obligations.MatrixAndAwlWorkFoldsAndDrains := by
  refine ⟨?pass, fun _ _ _ _ _ _ may withheld => execPassIssue_withheld may withheld, ?awl, ?drain⟩
  case pass =>
    intro s g n u at_ c i r pass may matrix free active s1 k j d1 d2 ps bands key co fetch cl lp x staged issued fetched found timed
      whole more side t
    have fetches : ¬ (fetch.1 != 0) = true := mt bne_iff_ne.1 (not_not_intro fetched)
    have due := (not_passWaits_iff fetch.2.clk lp.1 lp.2.1 (j.sMin r.tile pass bands (lp.2.2 == key))).2 timed
    have issues : s1.issuePass c g n u r =
        if r.next + 1 < ps.length then t.modRunOf k r.idx fun y => { y with next := r.next + 1 } else t.advance j k r (r.tile + 1) := by
      unfold State.issuePass
      dsimp only
      rw [issued]
      refine (if_neg fetches).trans ?_
      rw [found]
      refine (if_neg due).trans ?_
      rw [whole]
    refine (execPassIssue_active may matrix free active).trans (congrArg Host.Outcome.next ?_)
    exact (if_pos staged).trans issues
  case awl =>
    intro s g n at_ c r may active empty s1 k j fetch sp top x staged fetched whole
    have issues : ¬ (((s1.clu k).bank 4).state != 0 || !s1.stageFree c g n r) = true := by
      simp [s1, k, empty, staged]
    have fetches : ¬ (fetch.1 != 0) = true := mt bne_iff_ne.1 (not_not_intro fetched)
    show execAwlTileIssue g n at_ s = _
    simp only [execAwlTileIssue, State.atClk_mayIssue, State.atClk_clu, may, active]
    refine (if_neg issues).trans ((if_neg fetches).trans ?_)
    rw [whole]
  case drain =>
    intro s g n u at_ c i r may complete running b k j s1 d
    show execBankDrain g n u at_ s = _
    simp only [execBankDrain, State.atClk_mayIssue, State.atClk_clu, may, complete, running]
    by_cases later : (j.span b.tile j.redDim).1 + (j.span b.tile j.redDim).2 ≠ j.t.red
    · rw [if_pos later]
      exact if_pos (bne_iff_ne.2 later)
    · rw [if_neg later]
      refine (if_neg (mt bne_iff_ne.1 later)).trans ?_
      cases d.1 with
      | some st => rfl
      | none => rfl

end Sys2Proof.Machine
end

section
/-! The tick edge and the governor's check of running energy (R48, R50, R57, R60). -/

namespace Sys2Proof.Machine

/-! ### The governor's check (R60) -/

/-- The power that running work may reach: P_est + L, or a throttle's or bring-up's ceiling, in mW (R60, R396, R475). -/
def State.runningLimit (s : State) : Nat := min (s.gov.pEst * 100 + s.limitMw) (s.powerCap * 100)

/-- The lowest of the first `n` clusters whose bit has the value wanted. -/
theorem find?_bitOf {gated n i : Nat} {want : Bool} (inside : i < n) (at_ : bitOf gated i = want)
    (below : ∀ j < i, bitOf gated j = !want) : (List.range n).find? (fun i => bitOf gated i == want) = some i :=
  List.find?_range_eq_some.2 ⟨by simp [at_], List.mem_range.2 inside, fun j hj => by simp [below j hj]⟩

variable {s : State}

/-- Work that runs ahead has one more cluster withheld, the lowest that issues. -/
theorem execGovernorEnergyCheck_ahead {running i : Nat} (inside : i < 1152) (ahead : s.runningLimit < running * 100)
    (issues : bitOf s.gov.gated i = false) (below : ∀ j < i, bitOf s.gov.gated j = true) :
    execGovernorEnergyCheck running s = .next { s with gov := { s.gov with
      running := running, checks := s.gov.checks + 1, gated := s.gov.gated + 2 ^ i } } := by
  have ahead' : decide (min (s.gov.pEst * 100 + s.limitMw) (s.powerCap * 100) < running * 100) = true := decide_eq_true ahead
  simp only [execGovernorEnergyCheck, ahead', find?_bitOf inside issues below, if_true]

/-- Work that does not run ahead has the lowest withheld cluster let go. -/
theorem execGovernorEnergyCheck_behind {running i : Nat} (inside : i < 1152) (behind : running * 100 ≤ s.runningLimit)
    (withheld : bitOf s.gov.gated i = true) (below : ∀ j < i, bitOf s.gov.gated j = false) :
    execGovernorEnergyCheck running s = .next { s with gov := { s.gov with
      running := running, checks := s.gov.checks + 1, gated := s.gov.gated - 2 ^ i } } := by
  have behind' : decide (min (s.gov.pEst * 100 + s.limitMw) (s.powerCap * 100) < running * 100) = false :=
    decide_eq_false (Nat.not_lt.2 behind)
  simp only [execGovernorEnergyCheck, behind', find?_bitOf inside withheld below, Bool.false_eq_true, if_false]

/-! ### The edge (R48, R50) -/

/-- The state in which the rest of an edge happens: the number counted, and holdover and what R50 carries on applied. -/
def State.counted (s : State) : State :=
  { s with tick := ({ s.tick with
    number := pairOf 64 (wrapAdd 64 s.tickNo 1), lastEdge := s.clk, ticksSinceEcho := s.tick.ticksSinceEcho + 1 } : Tick).holdoverEdge }

/-- With its number intact a state counts as `State.counted` says. -/
theorem State.countTick_intact (intact : s.tick.number.ok = true) :
    { s.countTick with tick := s.countTick.tick.holdoverEdge } = s.counted := by
  rw [State.countTick, if_pos intact]
  rfl

/-- The stages of an edge after its count, in their order. -/
def State.edgeWork (s : State) (work room : Nat) (bad ext : Bool) : State :=
  let done := (s.edgeWrites.governorClose work room).feedForwardEdge.edgeSegments
  (((done.edgeFrames.quietTicks done.excused).updEdge bad).sampleFaultN ext).readiness

variable {at_ work room : Nat} {bad ext : Bool}

theorem execTickEdge_due (due : s.tick.due ≤ (s.atClk at_).clk)
    (intact : ((s.atClk at_).closeFrame s.tickNo).tick.number.ok = true) :
    execTickEdge at_ work room bad ext s =
      .next (((s.atClk at_).closeFrame s.tickNo).counted.edgeWork work room bad ext) := by
  rw [← State.countTick_intact intact]
  exact if_neg (Nat.not_lt.2 due)

theorem execTickEdge_early (early : (s.atClk at_).clk < s.tick.due) : execTickEdge at_ work room bad ext s = .next (s.atClk at_) :=
  if_pos early

/-- Settles O20: the edge by its stages, the check by the lowest cluster of either kind. -/
theorem edgeDoesItsWorkInOneOrder : Obligations.EdgeDoesItsWorkInOneOrder :=
  ⟨fun _ _ _ _ _ _ due _ => ⟨_, _, rfl, rfl, execTickEdge_due due⟩, fun _ _ _ _ _ _ => execTickEdge_early,
    fun _ _ _ inside => execGovernorEnergyCheck_ahead inside, fun _ _ _ inside => execGovernorEnergyCheck_behind inside⟩

end Sys2Proof.Machine
end

section
/-! What leaves the tick block, and with it the tick number, as it is (R48, R53): a lemma for each operation and each command, in the order
of the model's files. Each takes its own definition apart and closes the branches by the lemmas before it, all in the simp set. -/

namespace Sys2Proof.Machine

/-! ### What leaves the tick block as it is -/

variable {s : State}

theorem Reported.tick {t : State} (h : Reported s t) : t.tick = s.tick := by rw [h]
theorem LinkOnly.tick {t : State} (h : LinkOnly s t) : t.tick = s.tick := by rw [h]
theorem MemOnly.tick {t : State} (h : MemOnly s t) : t.tick = s.tick := by rw [h]

/-- The tick block is of the control part (R48). -/
theorem tick_of_control {t : State} (h : t.control = s.control) : t.tick = s.tick := (controlKept_of_control h).tick

@[simp] theorem ite_tick {c : Prop} [Decidable c] {t u : State} : (if c then t else u).tick = if c then t.tick else u.tick :=
  apply_ite State.tick c t u

@[simp] theorem ite_fst {α β : Type} {c : Prop} [Decidable c] {x y : α × β} : (if c then x else y).1 = if c then x.1 else y.1 :=
  apply_ite Prod.fst c x y

@[simp] theorem ite_snd {α β : Type} {c : Prop} [Decidable c] {x y : α × β} : (if c then x else y).2 = if c then x.2 else y.2 :=
  apply_ite Prod.snd c x y

/-- `t` has the tick block of `s`. A name of its own, under which a step of a fold is compared with what is known of it without
unfolding the operation that makes it. -/
def TickKept (s t : State) : Prop := t.tick = s.tick

@[simp] theorem tickKept_iff {t : State} : TickKept s t ↔ t.tick = s.tick := ⟨fun h => h, fun h => h⟩

/-- A fold that carries the state in one of its components keeps the tick block when each of its steps does. -/
theorem foldl_keeps_tick {α β : Type} (π : β → State) {f : β → α → β} (h : ∀ b a, TickKept (π b) (π (f b a))) (l : List α)
    (b : β) : (π (l.foldl f b)).tick = (π b).tick :=
  foldl_keeps (fun x => (π x).tick = (π b).tick) rfl fun x a kept => (tickKept_iff.1 (h x a)).trans kept

section
variable {α β γ : Type}

@[simp] theorem foldl_tick {f : State → α → State} (h : ∀ t a, TickKept t (f t a)) (l : List α) (t : State) :
    (l.foldl f t).tick = t.tick := foldl_keeps_tick id h l t

@[simp] theorem foldl_fst_tick {f : State × β → α → State × β} (h : ∀ b a, TickKept b.1 (f b a).1) (l : List α) (b : State × β) :
    (l.foldl f b).1.tick = b.1.tick := foldl_keeps_tick Prod.fst h l b

@[simp] theorem foldl_snd_tick {f : β × State → α → β × State} (h : ∀ b a, TickKept b.2 (f b a).2) (l : List α) (b : β × State) :
    (l.foldl f b).2.tick = b.2.tick := foldl_keeps_tick Prod.snd h l b

@[simp] theorem foldl_mid_tick {f : β × State × γ → α → β × State × γ} (h : ∀ b a, TickKept b.2.1 (f b a).2.1) (l : List α)
    (b : β × State × γ) : (l.foldl f b).2.1.tick = b.2.1.tick := foldl_keeps_tick (fun b => b.2.1) h l b

@[simp] theorem foldl_last_tick {f : β × γ × State → α → β × γ × State} (h : ∀ b a, TickKept b.2.2 (f b a).2.2) (l : List α)
    (b : β × γ × State) : (l.foldl f b).2.2.tick = b.2.2.tick := foldl_keeps_tick (fun b => b.2.2) h l b

end

/-- Where the command is answered with a next state, its tick number is the pair that `s` stores. -/
def NumberStays (s : State) (o : Host.Outcome State Fault Refusal) : Prop := ∀ t, o = .next t → t.tick.number = s.tick.number

@[simp] theorem numberStays_next {t : State} : NumberStays s (.next t) ↔ t.tick.number = s.tick.number :=
  ⟨fun h => h t rfl, fun h _ e => by cases e; exact h⟩

@[simp] theorem numberStays_ite {c : Prop} [Decidable c] {o p : Host.Outcome State Fault Refusal} :
    NumberStays s (if c then o else p) ↔ (c → NumberStays s o) ∧ (¬ c → NumberStays s p) := by
  split <;> simp [*]

theorem ControlStays.number {o : Host.Outcome State Fault Refusal} (h : ControlStays s o) : NumberStays s o :=
  fun t answered => congrArg Tick.number (tick_of_control (h t answered))

variable (s)

/-! ### Operations that every family uses -/

@[simp] theorem State.freeStatus_tick : s.freeStatus.2.tick = s.tick := rfl
@[simp] theorem State.signal_tick : s.signal.tick = s.tick := s.signal_reported.tick

@[simp] theorem State.pairNote_tick (source gpart ctx loc : Nat) : (s.pairNote source gpart ctx loc).tick = s.tick :=
  tick_of_control (s.pairNote_control ..)

@[simp] theorem State.stopCtx_tick (c : Nat) : (s.stopCtx c).tick = s.tick := tick_of_control (s.stopCtx_control ..)
@[simp] theorem State.countOps_tick (c cls n : Nat) : (s.countOps c cls n).tick = s.tick := tick_of_control (s.countOps_control ..)
@[simp] theorem State.finalFlag_tick (c : Nat) : (s.finalFlag c).tick = s.tick := by simp [State.finalFlag]
@[simp] theorem State.digestEdge_tick : s.digestEdge.tick = s.tick := by simp [State.digestEdge]
@[simp] theorem State.clearGrans_tick (lo hi : Nat) : (s.clearGrans lo hi).tick = s.tick := (s.clearGrans_within ..).tick
@[simp] theorem State.countCe_tick (gk n : Nat) : (s.countCe gk n).tick = s.tick := (s.countCe_within ..).tick
@[simp] theorem State.ckptEnd_tick (c status port : Nat) : (s.ckptEnd c status port).tick = s.tick := by simp [State.ckptEnd]
@[simp] theorem State.urge_tick (gk : Nat) : (s.urge gk).tick = s.tick := (s.urge_within ..).tick

@[simp] theorem State.writeGran_tick (key : Nat) (bs : List Byte) : (s.writeGran key bs).tick = s.tick :=
  (s.writeGran_within ..).tick

@[simp] theorem State.memFault_tick (ag : Agent) (status space addr : Nat) : (s.memFault ag status space addr).tick = s.tick :=
  (s.memFault_within ..).tick

@[simp] theorem State.readRange_tick (ag : Agent) (space addr n : Nat) : (s.readRange ag space addr n).2.2.tick = s.tick :=
  (s.readRange_within ..).tick

@[simp] theorem State.writeRange_tick (ag : Agent) (space addr : Nat) (bs : List Byte) :
    (s.writeRange ag space addr bs).2.tick = s.tick :=
  (s.writeRange_within ..).tick

@[simp] theorem State.rangeState_tick (ag : Agent) (space addr n st : Nat) : (s.rangeState ag space addr n st).2.tick = s.tick :=
  (s.rangeState_within ..).tick

@[simp] theorem State.writeProg_tick (ag : Agent) (progCm v : Nat) : (s.writeProg ag progCm v).tick = s.tick :=
  (s.writeProg_within ..).tick

@[simp] theorem State.progress_tick (g : Nat) : (s.progress g).tick = s.tick := tick_of_control (s.progress_control ..)

/-! ### Fabric ports and their links -/

@[simp] theorem State.modPort_tick (p : Nat) (f : FabPort → FabPort) : (s.modPort p f).tick = s.tick := rfl
@[simp] theorem State.portStatus_tick (p status : Nat) : (s.portStatus p status).tick = s.tick := (s.portStatus_within ..).tick
@[simp] theorem State.giveCell_tick (p v : Nat) (c : Cell) : (s.giveCell p v c).tick = s.tick := (s.giveCell_within ..).tick
@[simp] theorem State.givePacket_tick (p v : Nat) (k : Packet) : (s.givePacket p v k).tick = s.tick := (s.givePacket_within ..).tick
@[simp] theorem State.sendHello_tick (p serial digest : Nat) : (s.sendHello p serial digest).tick = s.tick := rfl
@[simp] theorem State.dropKept_tick (p : Nat) : (s.dropKept p).tick = s.tick := (s.dropKept_within ..).tick
@[simp] theorem State.portDown_tick (p : Nat) : (s.portDown p).tick = s.tick := rfl
@[simp] theorem State.portFailed_tick (p : Nat) : (s.portFailed p).tick = s.tick := (s.portFailed_within ..).tick

@[simp] theorem State.trained_tick (p width serial digest : Nat) (ok : Bool) : (s.trained p width serial digest ok).tick = s.tick :=
  (s.trained_within ..).tick

@[simp] theorem State.takeReturns_tick (f : Frame) : (s.takeReturns f).tick = s.tick := (s.takeReturns_within ..).tick
@[simp] theorem State.replay_tick (p v : Nat) : (s.replay p v).tick = s.tick := (s.replay_within ..).tick
theorem execFrameReceive_number (f : Frame) (at_ : Nat) : NumberStays s (execFrameReceive f at_ s) := by simp [execFrameReceive]
@[simp] theorem State.freeBufs_tick (p v gen n : Nat) : (s.freeBufs p v gen n).tick = s.tick := (s.freeBufs_within ..).tick
theorem execLinkIdleTimeout_number (p at_ : Nat) : NumberStays s (execLinkIdleTimeout p at_ s) := by simp [execLinkIdleTimeout]
theorem execPortDown_number (p at_ : Nat) : NumberStays s (execPortDown p at_ s) := by simp [execPortDown]
@[simp] theorem State.sendMarker_tick (p v : Nat) : (s.sendMarker p v).tick = s.tick := by simp [State.sendMarker]

theorem execCensusMarkerReceive_number (p v h rs sent at_ : Nat) : NumberStays s (execCensusMarkerReceive p v h rs sent at_ s) := by
  unfold execCensusMarkerReceive
  dsimp only
  repeat' split
  all_goals simp

@[simp] theorem State.resend_tick (p : Nat) : (s.resend p).tick = s.tick := (s.resend_within ..).tick

theorem execHelloReceive_number (p : Nat) (h : Hello) (at_ : Nat) : NumberStays s (execHelloReceive p h at_ s) := by
  simp [execHelloReceive]

@[simp] theorem State.fabRefuse_tick : s.fabRefuse.tick = s.tick := rfl

@[simp] theorem State.fabCmd_tick {act : State → State} (kept : ∀ t, TickKept t (act t)) (p : Nat) :
    (s.fabCmd p act).tick = s.tick := by
  unfold State.fabCmd
  dsimp only
  split
  · simp
  · exact tickKept_iff.1 (kept _)

theorem execFullSearchRetry_number (p at_ : Nat) : NumberStays s (execFullSearchRetry p at_ s) := by simp [execFullSearchRetry]
theorem execFabRetrain_number (p : Nat) : NumberStays s (execFabRetrain p s) := by simp [execFabRetrain]
theorem execFabFullSearch_number (p : Nat) : NumberStays s (execFabFullSearch p s) := by simp [execFabFullSearch]
theorem execFabPortOff_number (p : Nat) : NumberStays s (execFabPortOff p s) := by simp [execFabPortOff]
theorem execFabPortOn_number (p : Nat) : NumberStays s (execFabPortOn p s) := by simp [execFabPortOn]
theorem execFabCommit_number : NumberStays s (execFabCommit s) := by simp [execFabCommit]
theorem execFabDevWrite_number (value : Nat) : NumberStays s (execFabDevWrite value s) := by simp [execFabDevWrite]

@[simp] theorem State.devEdge_tick (serial digest : Nat) : (s.devEdge serial digest).tick = s.tick := by
  unfold State.devEdge
  dsimp only
  repeat' split
  all_goals simp

@[simp] theorem State.modJob_tick (slot : Nat) (f : FabJob → FabJob) : (s.modJob slot f).tick = s.tick := rfl
theorem execFabCtxJobWrite_number (c value : Nat) : NumberStays s (execFabCtxJobWrite c value s) := by simp [execFabCtxJobWrite]
@[simp] theorem State.emit_tick (k : Packet) : (s.emit k).tick = s.tick := rfl

/-! ### Flags -/

@[simp] theorem State.raise_tick (ag : Agent) (mask row col : Nat) (e : Evs) (st3 : Nat) :
    (s.raise ag mask row col e st3).2.tick = s.tick :=
  tick_of_control (s.raise_control ..)

/-! ### Sync objects -/

@[simp] theorem State.censusFail_tick (c : Nat) (f : CensusFail) : (s.censusFail c f).tick = s.tick :=
  tick_of_control (s.censusFail_control ..)

@[simp] theorem State.breakObj_tick (c g o : Nat) : (s.breakObj c g o).tick = s.tick := tick_of_control (s.breakObj_control ..)

@[simp] theorem State.limitFault_tick (g counter n : Nat) : (s.limitFault g counter n).tick = s.tick :=
  tick_of_control (s.limitFault_control ..)

@[simp] theorem State.strand_tick (g n : Nat) : (s.strand g n).tick = s.tick := tick_of_control (s.strand_control ..)
@[simp] theorem State.handUp_tick (g n : Nat) : (s.handUp g n).tick = s.tick := by simp [State.handUp]
@[simp] theorem State.outUp_tick (g n : Nat) : (s.outUp g n).tick = s.tick := by simp [State.outUp]
@[simp] theorem State.handDown_tick (g n : Nat) : (s.handDown g n).tick = s.tick := tick_of_control (s.handDown_control ..)
@[simp] theorem State.give_tick (c g o n : Nat) : (s.give c g o n).tick = s.tick := tick_of_control (s.give_control ..)

@[simp] theorem State.takeTokens_tick (g : Nat) (needs : List (Nat × Nat)) : (s.takeTokens g needs).tick = s.tick := by
  simp [State.takeTokens]

@[simp] theorem State.reseed_tick (c g : Nat) : (s.reseed c g).tick = s.tick := rfl
@[simp] theorem State.emptySync_tick (g : Nat) : (s.emptySync g).tick = s.tick := rfl
@[simp] theorem State.readPairs_tick (c g : Nat) : (s.readPairs c g).tick = s.tick := by simp [State.readPairs]

@[simp] theorem State.takeCensus_tick (c : Nat) (boundary : Bool) : (s.takeCensus c boundary).2.tick = s.tick := by
  unfold State.takeCensus
  dsimp only
  repeat' split
  all_goals simp

@[simp] theorem State.settle_tick (c : Nat) : (s.settle c).2.tick = s.tick := by simp [State.settle]
@[simp] theorem State.startSends_tick (c g n idx r : Nat) : (s.startSends c g n idx r).tick = s.tick := by simp [State.startSends]
theorem execSyncCensus_number (c : Nat) : NumberStays s (execSyncCensus c s) := by simp [execSyncCensus]
@[simp] theorem State.reseedAll_tick (c : Nat) : (s.reseedAll c).tick = s.tick := by simp [State.reseedAll]
theorem execSyncReseed_number (c : Nat) : NumberStays s (execSyncReseed c s) := by simp [execSyncReseed]

/-! ### Memory -/

@[simp] theorem State.clearRows_tick (chs : List Nat) (base count : Nat) : (s.clearRows chs base count).tick = s.tick := by
  simp [State.clearRows]

theorem execWindowWrite_number (c value : Nat) : NumberStays s (execWindowWrite c value s) := by
  unfold execWindowWrite
  dsimp only
  repeat' split
  all_goals simp

theorem execMemArbWrite_number (value : Nat) : NumberStays s (execMemArbWrite value s) := by simp [execMemArbWrite]

@[simp] theorem State.scanWords_tick (gk lo hi : Nat) : (s.scanWords gk lo hi).tick = s.tick :=
  tick_of_control (s.scanWords_control ..)

/-! ### The matrix units, the Awl and the vector unit -/

@[simp] theorem State.fetchTile_tick (j : Job) (tile : Nat) : (s.fetchTile j tile).2.tick = s.tick :=
  tick_of_control (s.fetchTile_control ..)

@[simp] theorem State.modRunOf_tick (k idx : Nat) (f : Run → Run) : (s.modRunOf k idx f).tick = s.tick :=
  tick_of_control (s.modRunOf_control ..)

@[simp] theorem State.endRun_tick (k idx status : Nat) (stopped : Bool) : (s.endRun k idx status stopped).tick = s.tick :=
  tick_of_control (s.endRun_control ..)

@[simp] theorem State.putElem_tick (j : Job) (k idx p t o : Nat) (f : Fold) (u : Val) :
    (s.putElem j k idx p t o f u).2.tick = s.tick :=
  tick_of_control (s.putElem_control ..)

@[simp] theorem State.putRows_tick (j : Job) (k idx p : Nat) : (s.putRows j k idx p).2.tick = s.tick :=
  tick_of_control (s.putRows_control ..)

@[simp] theorem State.vecTile_tick (j : Job) (k idx tile : Nat) : (s.vecTile j k idx tile).2.tick = s.tick := by
  unfold State.vecTile
  extract_lets p ms cs seenOf r
  have rows : r.2.tick = s.tick := foldl_snd_tick (fun acc ti => by
    dsimp only
    repeat' split
    all_goals simp) _ (none, s)
  simp [rows]

@[simp] theorem State.runVector_tick (c g n : Nat) (r : Run) : (s.runVector c g n r).tick = s.tick := by simp [State.runVector]

/-! ### The Retriever -/

@[simp] theorem State.readPrefix_tick (ag : Agent) (space addr n : Nat) : (s.readPrefix ag space addr n).2.2.tick = s.tick := by
  simp [State.readPrefix]

@[simp] theorem State.convertRow_tick (ag : Agent) (d : RetD) (mask row : Nat) (bs : List Byte) (n : Nat) :
    (s.convertRow ag d mask row bs n).2.2.tick = s.tick := by
  simp [State.convertRow]

@[simp] theorem State.copyRow_tick (c g n : Nat) (r : Run) (d : RetD) (row : Nat) (bs : List Byte) (full : Bool) :
    (s.copyRow c g n r d row bs full).2.2.tick = s.tick := by
  simp [State.copyRow]

@[simp] theorem State.copyRows_tick (c g n : Nat) (r : Run) (d : RetD) : (s.copyRows c g n r d).2.2.tick = s.tick := by
  simp [State.copyRows]

@[simp] theorem State.beginRet_tick (c g n : Nat) (r : Run) : (s.beginRet c g n r).tick = s.tick :=
  tick_of_control (s.beginRet_control ..)

@[simp] theorem State.giveUnits_tick (k idx : Nat) (us : List UnitW) (status : Nat) : (s.giveUnits k idx us status).tick = s.tick :=
  tick_of_control (s.giveUnits_control ..)

@[simp] theorem State.retrieverCopy_tick (c g n : Nat) (r : Run) : (s.retrieverCopy c g n r).tick = s.tick := by
  simp [State.retrieverCopy]

@[simp] theorem State.takeUnit_tick (ag : Agent) (qp : Nat) (u : UnitW) : (s.takeUnit ag qp u).2.tick = s.tick :=
  tick_of_control (s.takeUnit_control ..)

@[simp] theorem State.leaveUnit_tick (ag : Agent) (qp : Nat) (u : UnitW) : (s.leaveUnit ag qp u).tick = s.tick := by
  simp [State.leaveUnit]

@[simp] theorem State.leaveUnits_tick (c k : Nat) (r : Run) : (s.leaveUnits c k r).tick = s.tick := by simp [State.leaveUnits]

/-! ### Fences and resets -/

@[simp] theorem State.cleanLoad_tick (c : Nat) : (s.cleanLoad c).tick = s.tick := by
  unfold State.cleanLoad
  repeat' split
  all_goals simp

@[simp] theorem State.endLoad_tick (c status reason sect index fetch : Nat) :
    (s.endLoad c status reason sect index fetch).tick = s.tick := by
  simp [State.endLoad]

@[simp] theorem State.abandon_tick (g : Nat) : (s.abandon g).tick = s.tick := by
  unfold State.abandon
  dsimp only
  repeat' split
  all_goals simp

@[simp] theorem State.dropPasses_tick (hit : CobPass → Bool) (status : Option Nat) : (s.dropPasses hit status).tick = s.tick :=
  tick_of_control (s.dropPasses_control ..)

@[simp] theorem State.cobEnd_tick (e : CobPass) (status : Nat) (stopped : Bool) : (s.cobEnd e status stopped).tick = s.tick :=
  tick_of_control (s.cobEnd_control ..)

@[simp] theorem State.fenceCobblers_tick (g : Nat) : (s.fenceCobblers g).tick = s.tick := by simp [State.fenceCobblers]
@[simp] theorem State.dropCobblers_tick (c : Nat) : (s.dropCobblers c).tick = s.tick := by simp [State.dropCobblers]

@[simp] theorem State.cutPart_tick (g cause : Nat) : (s.cutPart g cause).tick = s.tick := by
  unfold State.cutPart
  dsimp only
  repeat' split
  all_goals simp

@[simp] theorem State.endFenced_tick (g : Nat) : (s.endFenced g).tick = s.tick := by
  unfold State.endFenced
  dsimp only
  repeat' split
  all_goals simp

@[simp] theorem State.fence_tick (g cause : Nat) : (s.fence g cause).tick = s.tick := by simp [State.fence]
@[simp] theorem State.resetPhase2_tick (g : Nat) : (s.resetPhase2 g).tick = s.tick := by simp [State.resetPhase2]
theorem execPartFence_number (g at_ : Nat) : NumberStays s (execPartFence g at_ s) := by simp [execPartFence]
theorem execUnitFault_number (g at_ : Nat) : NumberStays s (execUnitFault g at_ s) := by simp [execUnitFault]

theorem execFenceDrainComplete_number (g at_ : Nat) : NumberStays s (execFenceDrainComplete g at_ s) := by
  unfold execFenceDrainComplete
  dsimp only
  repeat' split
  all_goals simp

theorem execDrainLimitExpire_number (g at_ : Nat) : NumberStays s (execDrainLimitExpire g at_ s) := by simp [execDrainLimitExpire]

theorem execPartReset_number (g : Nat) (full : Bool) (at_ : Nat) : NumberStays s (execPartReset g full at_ s) := by
  unfold execPartReset
  dsimp only
  repeat' split
  all_goals simp

@[simp] theorem State.tellReset_tick (g result : Nat) : (s.tellReset g result).tick = s.tick := by simp [State.tellReset]
@[simp] theorem State.clearCm_tick (g : Nat) : (s.clearCm g).tick = s.tick := by simp [State.clearCm]

theorem execResetPhaseComplete_number (g : Nat) (ok : Bool) (at_ : Nat) : NumberStays s (execResetPhaseComplete g ok at_ s) := by
  unfold execResetPhaseComplete
  dsimp only
  repeat' split
  all_goals simp

theorem execCtxStop_number (c : Nat) : NumberStays s (execCtxStop c s) := by simp [execCtxStop]

theorem execCtxAbort_number (c at_ : Nat) : NumberStays s (execCtxAbort c at_ s) := by
  unfold execCtxAbort
  dsimp only
  repeat' split
  all_goals simp

@[simp] theorem State.partRefuse_tick (reason : Nat) : (s.partRefuse reason).tick = s.tick := rfl

theorem execPartAssignWrite_number (c mask : Nat) : NumberStays s (execPartAssignWrite c mask s) := by
  unfold execPartAssignWrite
  repeat' split
  all_goals simp

theorem execNextContextWrite_number (g value : Nat) : NumberStays s (execNextContextWrite g value s) := by
  simp [execNextContextWrite]

theorem execHangDetected_number (g at_ : Nat) : NumberStays s (execHangDetected g at_ s) := by
  unfold execHangDetected
  dsimp only
  repeat' split
  all_goals simp

theorem execLeaseGrant_number (value at_ : Nat) : NumberStays s (execLeaseGrant value at_ s) := by
  unfold execLeaseGrant
  dsimp only
  repeat' split
  all_goals simp

theorem execSheepdogAck_number : NumberStays s (execSheepdogAck s) := by simp [execSheepdogAck]
theorem execSheepdogPop_number : NumberStays s (execSheepdogPop s) := by simp [execSheepdogPop]
@[simp] theorem State.zeroCmBufs_tick (c g : Nat) : (s.zeroCmBufs c g).tick = s.tick := by simp [State.zeroCmBufs]
@[simp] theorem State.parkPart_tick (g : Nat) : (s.parkPart g).tick = s.tick := by simp [State.parkPart]
@[simp] theorem State.parkAtBarrier_tick (c : Nat) : (s.parkAtBarrier c).tick = s.tick := by simp [State.parkAtBarrier]
@[simp] theorem State.park_tick : s.park.tick = s.tick := foldl_tick (fun t g => by split <;> simp) _ s
@[simp] theorem State.enterPart_tick (x g : Nat) : (s.enterPart x g).tick = s.tick := by simp [State.enterPart]
@[simp] theorem State.enter_tick (x : Nat) : (s.enter x).tick = s.tick := by simp [State.enter]
@[simp] theorem State.residency_tick : s.residency.tick = s.tick := by simp [State.residency]

/-! ### The Cobblers -/

@[simp] theorem State.preload_tick (ag : Agent) (p : CobP) (w : WSet) : (s.preload ag p w).2.2.tick = s.tick := by
  simp [State.preload]

@[simp] theorem State.slotWord_tick (ag : Agent) (progCm q phase count : Nat) :
    (s.slotWord ag progCm q phase count).tick = s.tick :=
  tick_of_control (s.slotWord_control ..)

@[simp] theorem State.startCobbler_tick (c g n : Nat) (r : Run) : (s.startCobbler c g n r).tick = s.tick := by
  simp [State.startCobbler]

@[simp] theorem State.cobRecord_tick (ag : Agent) (p : CobP) (r : Run) (q C i ch : Nat) :
    (s.cobRecord ag p r q C i ch).2.2.tick = s.tick :=
  tick_of_control (s.cobRecord_control ..)

/-! ### The ledger -/

@[simp] theorem State.ledRead_tick (c addr n : Nat) : (s.ledRead c addr n).2.2.tick = s.tick := by simp [State.ledRead]

@[simp] theorem State.ledWrite_tick (c addr : Nat) (bs : List Byte) : (s.ledWrite c addr bs).tick = s.tick := by
  simp [State.ledWrite]

@[simp] theorem State.halt_tick (c reason : Nat) : (s.halt c reason).tick = s.tick := by simp [State.halt]
@[simp] theorem State.digestRanges_tick (c : Nat) (d : Dg) : (s.digestRanges c d).2.tick = s.tick := by simp [State.digestRanges]
@[simp] theorem State.fallBack_tick (c slot : Nat) : (s.fallBack c slot).tick = s.tick := by simp [State.fallBack]
@[simp] theorem State.ledgerRelease_tick (c : Nat) : (s.ledgerRelease c).tick = s.tick := by simp [State.ledgerRelease]

@[simp] theorem State.logPass_tick (c g n idx : Nat) : (s.logPass c g n idx).tick = s.tick := by
  unfold State.logPass
  dsimp only
  repeat' split
  all_goals simp

@[simp] theorem State.jobPacket_tick (c dev rank : Nat) (k : Packet) : (s.jobPacket c dev rank k).tick = s.tick := rfl
@[simp] theorem State.treeMsg_tick (c i m : Nat) (data : List Byte) : (s.treeMsg c i m data).tick = s.tick := rfl

@[simp] theorem State.streamTo_tick (c dev kind step : Nat) (bs : List Byte) : (s.streamTo c dev kind step bs).tick = s.tick := by
  simp [State.streamTo]

@[simp] theorem State.acceptTo_tick (c dev step n : Nat) : (s.acceptTo c dev step n).tick = s.tick := by simp [State.acceptTo]
@[simp] theorem State.setXfer_tick (c kind units : Nat) : (s.setXfer c kind units).tick = s.tick := rfl

@[simp] theorem State.startSend_tick (c : Nat) : (s.startSend c).tick = s.tick := by
  refine foldl_snd_tick (fun acc _ => ?_) _ (false, s)
  repeat' split
  all_goals simp

@[simp] theorem State.verdictNo_tick (c status : Nat) (suspects : List Nat) : (s.verdictNo c status suspects).tick = s.tick := by
  simp [State.verdictNo]

@[simp] theorem State.verdictYes_tick (c : Nat) : (s.verdictYes c).tick = s.tick := rfl
@[simp] theorem State.formVerdict_tick (c : Nat) : (s.formVerdict c).tick = s.tick := by simp [State.formVerdict]
@[simp] theorem State.ckptHold_tick (c : Nat) : (s.ckptHold c).tick = s.tick := by simp [State.ckptHold]

@[simp] theorem State.ckptDecide_tick (c : Nat) (yes due : Bool) : (s.ckptDecide c yes due).tick = s.tick := by
  simp [State.ckptDecide]

@[simp] theorem State.clearSamples_tick (c : Nat) : (s.clearSamples c).tick = s.tick :=
  foldl_tick (fun t i => by split <;> simp) _ s

@[simp] theorem State.runMirrorPass_tick (c i rec_ : Nat) (hyper : List Byte) :
    (s.runMirrorPass c i rec_ hyper).2.2.tick = s.tick := by
  simp [State.runMirrorPass]

@[simp] theorem State.catchStep_tick (c j : Nat) : (s.catchStep c j).2.tick = s.tick := by simp [State.catchStep]
@[simp] theorem State.catchUp_tick (c upTo : Nat) : (s.catchUp c upTo).tick = s.tick := by simp [State.catchUp]
@[simp] theorem State.confirmStep_tick (c upTo : Nat) : (s.confirmStep c upTo).tick = s.tick := by simp [State.confirmStep]
@[simp] theorem State.decide_tick (c : Nat) (yes due : Bool) : (s.decide_ c yes due).tick = s.tick := by simp [State.decide_]

@[simp] theorem State.decisionDown_tick (c step : Nat) (yes due : Bool) : (s.decisionDown c step yes due).tick = s.tick := by
  simp [State.decisionDown]

@[simp] theorem State.treeUp_tick (c : Nat) : (s.treeUp c).tick = s.tick := by
  unfold State.treeUp
  dsimp only
  repeat' split
  all_goals simp

@[simp] theorem State.tryOwn_tick (c : Nat) : (s.tryOwn c).tick = s.tick := by
  unfold State.tryOwn
  dsimp only
  repeat' split
  all_goals simp

@[simp] theorem State.tryVerdict_tick (c : Nat) : (s.tryVerdict c).tick = s.tick := by simp [State.tryVerdict]

@[simp] theorem State.ledgerAccept_tick (c phase n : Nat) : (s.ledgerAccept c phase n).tick = s.tick := by
  unfold State.ledgerAccept
  dsimp only
  repeat' split
  all_goals simp

@[simp] theorem State.retain_tick (c j : Nat) : (s.retain c j).tick = s.tick := by simp [State.retain]
@[simp] theorem State.vote_tick (c j : Nat) : (s.vote c j).tick = s.tick := by simp [State.vote]
@[simp] theorem State.ledgerBarrier_tick (c j : Nat) : (s.ledgerBarrier c j).tick = s.tick := by simp [State.ledgerBarrier]
theorem execVoteReceive_number (c : Nat) (v : Vote) : NumberStays s (execVoteReceive c v s) := by simp [execVoteReceive]
theorem execVoteTimeout_number (c : Nat) : NumberStays s (execVoteTimeout c s) := by simp [execVoteTimeout]

theorem execDecisionReceive_number (c : Nat) (down : Bool) (from_ step : Nat) (yes due : Bool) (at_ : Nat) :
    NumberStays s (execDecisionReceive c down from_ step yes due at_ s) := by
  simp [execDecisionReceive]

theorem execDecisionTimeout_number (c : Nat) : NumberStays s (execDecisionTimeout c s) := by simp [execDecisionTimeout]

theorem execMirrorConfirmedReceive_number (c step : Nat) : NumberStays s (execMirrorConfirmedReceive c step s) := by
  simp [execMirrorConfirmedReceive]

@[simp] theorem State.ledFenced_tick (c : Nat) : (s.ledFenced c).tick = s.tick := by simp [State.ledFenced]

theorem execLedgerTransferReceive_number (c kind step : Nat) (bytes : List Byte) (digest : Nat) :
    NumberStays s (execLedgerTransferReceive c kind step bytes digest s) := by
  simp [execLedgerTransferReceive]

/-! ### Collectives -/

@[simp] theorem State.bumpCnt_tick (x : Ph) (m st kind n : Nat) : (s.bumpCnt x m st kind n).tick = s.tick := rfl
@[simp] theorem State.readUnit_tick (x : Ph) (m u loc : Nat) : (s.readUnit x m u loc).2.2.tick = s.tick := by simp [State.readUnit]

@[simp] theorem State.writeUnit_tick (x : Ph) (m u loc : Nat) (bs : List Byte) : (s.writeUnit x m u loc bs).tick = s.tick := by
  simp [State.writeUnit]

@[simp] theorem State.phWord_tick (x : Ph) (m v : Nat) : (s.phWord x m v).tick = s.tick := by simp [State.phWord]
@[simp] theorem State.phDone_tick (x : Ph) : (s.phDone x).tick = s.tick := by simp [State.phDone]
@[simp] theorem State.maskDown_tick (dst : Nat) : (s.maskDown dst).tick = s.tick := by simp [State.maskDown]

@[simp] theorem State.tellPort_tick (p kind status ctx : Nat) : (s.tellPort p kind status ctx).tick = s.tick := by
  simp [State.tellPort]

@[simp] theorem State.freePkt_tick (h : HeldPkt) : (s.freePkt h).tick = s.tick := by simp [State.freePkt]
@[simp] theorem State.dropForeign_tick (h : HeldPkt) : (s.dropForeign h).tick = s.tick := by simp [State.dropForeign]
@[simp] theorem State.modPack_tick (c : Nat) (f : PackCtx → PackCtx) : (s.modPack c f).tick = s.tick := rfl
@[simp] theorem State.dropStale_tick (h : HeldPkt) (c : Nat) : (s.dropStale h c).tick = s.tick := by simp [State.dropStale]
@[simp] theorem State.hold_tick (h : HeldPkt) : (s.hold h).tick = s.tick := rfl

@[simp] theorem State.tellAccept_tick (x : Ph) (d st : Nat) (k : Packet) : (s.tellAccept x d st k).tick = s.tick := by
  simp [State.tellAccept]

@[simp] theorem State.accepted_tick (c group phase st rank n : Nat) : (s.accepted c group phase st rank n).tick = s.tick := by
  unfold State.accepted
  repeat' split
  all_goals simp

@[simp] theorem State.combine_tick (x : Ph) (d u loc : Nat) (bs : List Byte) : (s.combine x d u loc bs).2.2.2.tick = s.tick := by
  simp [State.combine]

/-- What a delivered unit leaves, where it is taken. -/
def TookKeepsTick (s : State) (o : Took) : Prop := ∀ t, o = .done t → t.tick = s.tick

@[simp] theorem tookKeepsTick_done {t : State} : TookKeepsTick s (.done t) ↔ t.tick = s.tick :=
  ⟨fun h => h t rfl, fun h _ e => by cases e; exact h⟩

@[simp] theorem tookKeepsTick_wait : TookKeepsTick s .wait := fun _ e => by cases e

theorem State.takeUnitPkt_tick (c : Nat) (k : Packet) : TookKeepsTick s (s.takeUnitPkt c k) := by
  unfold State.takeUnitPkt
  dsimp only
  repeat' split
  all_goals simp

@[simp] theorem State.arrive_tick (h : HeldPkt) : (s.arrive h).tick = s.tick := by
  unfold State.arrive
  dsimp only
  repeat' split
  all_goals simp
  exact s.takeUnitPkt_tick _ _ _ ‹_›

@[simp] theorem State.forward_tick (h : HeldPkt) : (s.forward h).tick = s.tick := by
  unfold State.forward
  dsimp only
  repeat' split
  all_goals simp

@[simp] theorem State.retryOnce_tick : s.retryOnce.tick = s.tick := by simp [State.retryOnce]
@[simp] theorem State.retryHeld_tick : s.retryHeld.tick = s.tick := by simp [State.retryHeld]

theorem execPacketRoute_number (i : Nat) : NumberStays s (execPacketRoute i s) := by
  unfold execPacketRoute
  dsimp only
  repeat' split
  all_goals simp

@[simp] theorem State.installEpoch_tick (slot epoch : Nat) : (s.installEpoch slot epoch).tick = s.tick := by
  simp [State.installEpoch]

@[simp] theorem State.sendUnit_tick (x : Ph) (st : Nat) (t : Xfer) : (s.sendUnit x st t).2.tick = s.tick := by simp [State.sendUnit]
@[simp] theorem State.sendStage_tick (x : Ph) (m st : Nat) : (s.sendStage x m st).tick = s.tick := by simp [State.sendStage]
@[simp] theorem State.foldBlock_tick (x : Ph) (lo n u : Nat) : (s.foldBlock x lo n u).2.tick = s.tick := by simp [State.foldBlock]
@[simp] theorem State.foldAll_tick (x : Ph) (devs : List Nat) : (s.foldAll x devs).2.tick = s.tick := by simp [State.foldAll]
@[simp] theorem State.startPhase_tick (c g n : Nat) (r : Run) : (s.startPhase c g n r).tick = s.tick := by simp [State.startPhase]

theorem execReduceStage_number (g n idx m st : Nat) : NumberStays s (execReduceStage g n idx m st s) := by
  unfold execReduceStage
  dsimp only
  repeat' split
  all_goals simp

@[simp] theorem State.fromLink_tick (h : HeldPkt) : (s.fromLink h).tick = s.tick := by simp [State.fromLink]

theorem execFabricPacketReceive_number (p v : Nat) (k : Packet) : NumberStays s (execFabricPacketReceive p v k s) := by
  simp [execFabricPacketReceive]

theorem execAcceptReceive_number (p v : Nat) (k : Packet) : NumberStays s (execAcceptReceive p v k s) := by simp [execAcceptReceive]

theorem execFabJobWrite_number (slot : Nat) (epoch : Bool) (value : Nat) : NumberStays s (execFabJobWrite slot epoch value s) := by
  simp [execFabJobWrite]

theorem execDeterministicWrite_number (value : Nat) : NumberStays s (execDeterministicWrite value s) := by
  simp [execDeterministicWrite]

/-! ### Transfers of the host and storage ports -/

@[simp] theorem State.modQp_tick (q : Nat) (f : Qp → Qp) : (s.modQp q f).tick = s.tick := rfl
@[simp] theorem State.modSport_tick (p : Nat) (f : StorPort → StorPort) : (s.modSport p f).tick = s.tick := rfl
@[simp] theorem State.askPort_tick (t : PortTag) : (s.askPort t).tick = s.tick := by simp [State.askPort]
@[simp] theorem State.pumpCopy_tick (c k : Nat) (r : Run) : (s.pumpCopy c k r).tick = s.tick := by simp [State.pumpCopy]

@[simp] theorem State.pumpLoad_tick : s.pumpLoad.tick = s.tick := by
  unfold State.pumpLoad
  dsimp only
  repeat' split
  all_goals simp

@[simp] theorem State.pumpPorts_tick : s.pumpPorts.tick = s.tick := by
  refine (foldl_tick (fun t k => ?_) _ _).trans s.pumpLoad_tick
  repeat' split
  all_goals simp

@[simp] theorem State.feedRow_tick (c k idx : Nat) : (s.feedRow c k idx).tick = s.tick := by
  unfold State.feedRow
  dsimp only
  repeat' split
  all_goals simp

@[simp] theorem State.feedCopy_tick (t : PortTag) (bs : List Byte) : (s.feedCopy t bs).tick = s.tick := by
  unfold State.feedCopy
  dsimp only
  repeat' split
  all_goals simp

@[simp] theorem State.dropTags_tick (hit : PortTag → Bool) : (s.dropTags hit).tick = s.tick := by simp [State.dropTags]

@[simp] theorem State.endPort_tick (k : Nat) (r : Run) (status : Nat) : (s.endPort k r status).tick = s.tick := by
  unfold State.endPort
  dsimp only
  repeat' split
  all_goals simp

theorem execRetrieverCopy_number (g n at_ : Nat) : NumberStays s (execRetrieverCopy g n at_ s) := by
  unfold execRetrieverCopy
  dsimp only
  repeat' split
  all_goals simp

@[simp] theorem State.qpHeard_tick (q : Nat) : (s.qpHeard q).tick = s.tick := tick_of_control (s.qpHeard_control ..)

/-! ### The tick -/

theorem execEchoSend_number (at_ : Nat) : NumberStays s (execEchoSend at_ s) := by
  unfold execEchoSend
  dsimp only
  repeat' split
  all_goals simp

theorem execEchoReceive_number (port : Nat) (b : Beacon) (at_ : Nat) : NumberStays s (execEchoReceive port b at_ s) := by
  unfold execEchoReceive
  dsimp only
  repeat' split
  all_goals simp

theorem execHoldoverExpire_number : NumberStays s (execHoldoverExpire s) := by simp [execHoldoverExpire]
theorem execRelock_number : NumberStays s (execRelock s) := by simp [execRelock]
theorem execTickPeriodWrite_number (value : Nat) : NumberStays s (execTickPeriodWrite value s) := by simp [execTickPeriodWrite]
theorem execStartArm_number (S : Nat) : NumberStays s (execStartArm S s) := by simp [execStartArm]
theorem execStartDisarm_number (c : Nat) : NumberStays s (execStartDisarm c s) := by simp [execStartDisarm]

theorem execGovernorEnergyCheck_number (running : Nat) : NumberStays s (execGovernorEnergyCheck running s) := by
  simp [execGovernorEnergyCheck]

@[simp] theorem State.governorClose_tick (work room : Nat) : (s.governorClose work room).tick = s.tick := by
  simp [State.governorClose]

@[simp] theorem State.overruns_tick (c : Nat) : (s.overruns c).tick = s.tick := by simp [State.overruns]
@[simp] theorem State.releaseSeg_tick (g n : Nat) : (s.releaseSeg g n).tick = s.tick := rfl

@[simp] theorem State.tryRelease_tick (c g n : Nat) : (s.tryRelease c g n).tick = s.tick := by
  unfold State.tryRelease
  dsimp only
  repeat' split
  all_goals simp

@[simp] theorem State.beginStep_tick (c : Nat) : (s.beginStep c).tick = s.tick := by simp [State.beginStep]
@[simp] theorem State.releaseCtx_tick (c : Nat) : (s.releaseCtx c).tick = s.tick := by simp [State.releaseCtx]
@[simp] theorem State.startEdge_tick : s.startEdge.tick = s.tick := by simp [State.startEdge]
@[simp] theorem State.quietTicks_tick (excused : Nat → Bool) : (s.quietTicks excused).tick = s.tick := by simp [State.quietTicks]

theorem State.edgePending_number : s.edgePending.tick.number = s.tick.number := by
  unfold State.edgePending
  dsimp only
  repeat' split
  all_goals rfl

theorem State.sendBeacons_number (ports : List Nat) : (s.sendBeacons ports).tick.number = s.tick.number := by
  unfold State.sendBeacons
  dsimp only
  split <;> rfl

/-! ### The loader -/

@[simp] theorem State.loadReject_tick (c reason fetch : Nat) : (s.loadReject c reason fetch).tick = s.tick := by
  simp [State.loadReject]

@[simp] theorem State.rejectLoad_tick (c reason sect index fetch : Nat) :
    (s.rejectLoad c reason sect index fetch).tick = s.tick := by
  simp [State.rejectLoad]

theorem execLoadGo_number (src q c at_ : Nat) : NumberStays s (execLoadGo src q c at_ s) := by simp [execLoadGo]
@[simp] theorem State.placeNew_tick (c old : Nat) (b : List Byte) : (s.placeNew c old b).tick = s.tick := by simp [State.placeNew]

@[simp] theorem State.loadArrive_tick (off len : Nat) (bs : List Byte) : (s.loadArrive off len bs).tick = s.tick := by
  unfold State.loadArrive
  dsimp only
  repeat' split
  all_goals simp

@[simp] theorem State.freeTagId_tick (id : Nat) : (s.freeTagId id).tick = s.tick := by
  unfold State.freeTagId
  dsimp only
  repeat' split
  all_goals simp

@[simp] theorem State.loadAnswer_tick (t : PortTag) (status : Nat) (bs : List Byte) : (s.loadAnswer t status bs).tick = s.tick := by
  unfold State.loadAnswer
  dsimp only
  repeat' split
  all_goals simp

theorem execLoadFetchData_number (tag status at_ : Nat) (bs : List Byte) :
    NumberStays s (execLoadFetchData tag status at_ bs s) := by
  unfold execLoadFetchData
  dsimp only
  repeat' split
  all_goals simp

@[simp] theorem State.installPacks_tick (c : Nat) (gs : List (Nat × Nat × Nat)) : (s.installPacks c gs).1.tick = s.tick := by
  simp [State.installPacks]

@[simp] theorem State.removePacks_tick (c : Nat) : (s.removePacks c).tick = s.tick := rfl
@[simp] theorem State.defineZero_tick (c : Nat) (im : Image) : (s.defineZero c im).tick = s.tick := by simp [State.defineZero]
@[simp] theorem State.copyInit_tick (c : Nat) (im : Image) : (s.copyInit c im).tick = s.tick := by simp [State.copyInit]

@[simp] theorem State.mint_tick (c : Nat) (im : Image) : (s.mint c im).tick = s.tick :=
  foldl_tick (fun t g => by split <;> simp) _ s

@[simp] theorem State.clearAtLoad_tick (c : Nat) (im : Image) : (s.clearAtLoad c im).tick = s.tick := rfl
@[simp] theorem State.commitLoad_tick (c : Nat) (im : Image) : (s.commitLoad c im).tick = s.tick := by simp [State.commitLoad]

theorem execLoadCheck_number (at_ : Nat) : NumberStays s (execLoadCheck at_ s) := by
  unfold execLoadCheck
  dsimp only
  repeat' split
  all_goals simp

theorem execLoadAbort_number (c at_ : Nat) : NumberStays s (execLoadAbort c at_ s) := by simp [execLoadAbort]
@[simp] theorem State.burn_tick (c : Nat) : (s.burn c).tick = s.tick := by simp [State.burn]
@[simp] theorem State.doUnload_tick (c : Nat) : (s.doUnload c).tick = s.tick := by simp [State.doUnload]
theorem execUnload_number (c at_ : Nat) : NumberStays s (execUnload c at_ s) := by simp [execUnload]
theorem execDeferredUnload_number (c at_ : Nat) : NumberStays s (execDeferredUnload c at_ s) := by simp [execDeferredUnload]
@[simp] theorem State.refit_tick (up : List Bool) : (s.refit up).tick = s.tick := by simp [State.refit]
theorem execWeltLinkDown_number (l : Nat) : NumberStays s (execWeltLinkDown l s) := by simp [execWeltLinkDown]
theorem execWeltLinkRestored_number (l : Nat) : NumberStays s (execWeltLinkRestored l s) := by simp [execWeltLinkRestored]
@[simp] theorem State.weltEdge_tick : s.weltEdge.tick = s.tick := by simp [State.weltEdge]

/-! ### Optical engines -/

@[simp] theorem State.modEng_tick (e : Nat) (f : Eng → Eng) : (s.modEng e f).tick = s.tick := rfl
@[simp] theorem State.modBus_tick (b : Nat) (f : Bus → Bus) : (s.modBus b f).tick = s.tick := rfl
@[simp] theorem State.modRing_tick (i : Nat) (f : Ring → Ring) : (s.modRing i f).tick = s.tick := rfl
@[simp] theorem State.modAdc_tick (e : Nat) (f : Adc → Adc) : (s.modAdc e f).tick = s.tick := rfl
@[simp] theorem State.optStatus_tick (e status loc : Nat) : (s.optStatus e status loc).tick = s.tick := by simp [State.optStatus]
@[simp] theorem State.optRefuse_tick (e : Nat) : (s.optRefuse e).tick = s.tick := rfl
@[simp] theorem State.mapRefuse_tick (e : Nat) : (s.mapRefuse e).tick = s.tick := by simp [State.mapRefuse]
@[simp] theorem State.setBus_tick (b start bad : Nat) (c : Cand) : (s.setBus b start bad c).tick = s.tick := by simp [State.setBus]

@[simp] theorem State.startSearch_tick (e : Nat) (cached : Bool) : (s.startSearch e cached).tick = s.tick := by
  simp [State.startSearch]

theorem execEngineSearch_number (e : Nat) : NumberStays s (execEngineSearch e s) := by simp [execEngineSearch]
theorem execEngineSearchCached_number (e : Nat) : NumberStays s (execEngineSearchCached e s) := by simp [execEngineSearchCached]

@[simp] theorem State.searchBus_tick (b : Nat) (meas : List Nat) (bad temp : Nat) :
    (s.searchBus b meas bad temp).tick = s.tick := by
  simp [State.searchBus]

@[simp] theorem State.elemSearch_tick (full : Bool) : (s.elemSearch full).tick = s.tick := rfl

theorem execSearchComplete_number (e : Nat) (buses : List (List Nat × Nat)) (found : Bool) (temp : Nat) :
    NumberStays s (execSearchComplete e buses found temp s) := by
  unfold execSearchComplete
  extract_lets s1 s2
  have searched : s1.tick = s.tick := foldl_tick (fun t i => by
    dsimp only
    split <;> simp) _ s
  simp [s2, searched]

@[simp] theorem State.setLane_tick (e key role : Nat) (on : Bool) : (s.setLane e key role on).tick = s.tick := by
  refine foldl_tick (fun t b => ?_) _ s
  dsimp only
  split <;> simp

@[simp] theorem State.askLane_tick (e key : Nat) (fault : Bool) : (s.askLane e key fault).tick = s.tick := by simp [State.askLane]
@[simp] theorem State.laneFault_tick (e key : Nat) : (s.laneFault e key).tick = s.tick := by simp [State.laneFault]

@[simp] theorem State.laneBack_tick (e key : Nat) : (s.laneBack e key).tick = s.tick := by
  unfold State.laneBack
  dsimp only
  repeat' split
  all_goals simp

@[simp] theorem State.laneLeaves_tick (e : Nat) (o : LaneOut) : (s.laneLeaves e o).tick = s.tick := by simp [State.laneLeaves]

theorem execLaneOutRequest_number (p w : Nat) (fault : Bool) : NumberStays s (execLaneOutRequest p w fault s) := by
  simp [execLaneOutRequest]

@[simp] theorem State.tryLane_tick (e key : Nat) : (s.tryLane e key).2.tick = s.tick := by simp [State.tryLane]
@[simp] theorem State.calNext_tick (e : Nat) : (s.calNext e).tick = s.tick := by simp [State.calNext]
theorem execCalCycleStart_number (e at_ : Nat) : NumberStays s (execCalCycleStart e at_ s) := by simp [execCalCycleStart]

theorem execLaneOutReply_number (p w : Nat) (accept : Bool) : NumberStays s (execLaneOutReply p w accept s) := by
  unfold execLaneOutReply
  dsimp only
  repeat' split
  all_goals simp

@[simp] theorem State.relock_tick (e i : Nat) (d : Int) : (s.relock e i d).tick = s.tick := by
  unfold State.relock
  dsimp only
  split
  · simp
  · refine (foldl_tick (fun t j => ?_) _ _).trans (s.modRing_tick ..)
    exact tickKept_iff.2 rfl

theorem execCalSlotEnd_number (e : Nat) (dTx dRx : Int) : NumberStays s (execCalSlotEnd e dTx dRx s) := by
  unfold execCalSlotEnd
  dsimp only
  repeat' split
  all_goals simp

theorem execLockVisit_number (b r : Nat) (err : Int) : NumberStays s (execLockVisit b r err s) := by simp [execLockVisit]
theorem execCombLineLow_number (p w : Nat) : NumberStays s (execCombLineLow p w s) := by simp [execCombLineLow]
@[simp] theorem State.abandonCal_tick (e : Nat) (ts : List Nat) : (s.abandonCal e ts).tick = s.tick := rfl
theorem execLaserLoss_number (e L : Nat) : NumberStays s (execLaserLoss e L s) := by simp [execLaserLoss]
theorem execLaserRestored_number (e L : Nat) : NumberStays s (execLaserRestored e L s) := by simp [execLaserRestored]

theorem execTableModeUpdate_number (e : Nat) (t4 : Int) : NumberStays s (execTableModeUpdate e t4 s) := by
  simp [execTableModeUpdate]

theorem execTableModeWrite_number (e value : Nat) : NumberStays s (execTableModeWrite e value s) := by simp [execTableModeWrite]
theorem execSwitchSlotWrite_number (i value : Nat) : NumberStays s (execSwitchSlotWrite i value s) := by simp [execSwitchSlotWrite]
theorem execMapApply_number (e slot : Nat) : NumberStays s (execMapApply e slot s) := by simp [execMapApply]

theorem execPlanEntryWrite_number (i word value : Nat) : NumberStays s (execPlanEntryWrite i word value s) := by
  simp [execPlanEntryWrite]

@[simp] theorem State.planHear_tick (c g ph : Nat) : (s.planHear c g ph).tick = s.tick := by simp [State.planHear]

@[simp] theorem State.planBarrier_tick (c : Nat) (barrier : Bool) : (s.planBarrier c barrier).tick = s.tick := by
  simp [State.planBarrier]

@[simp] theorem State.freeze_tick (p : Nat) : (s.freeze p).tick = s.tick := by simp [State.freeze]

@[simp] theorem State.switchPort_tick (e t code : Nat) : (s.switchPort e t code).tick = s.tick := by
  unfold State.switchPort
  dsimp only
  repeat' split
  all_goals simp

@[simp] theorem State.setMaps_tick (e base overlay : Nat) : (s.setMaps e base overlay).tick = s.tick := by simp [State.setMaps]
@[simp] theorem State.mapEdge_tick (e : Nat) : (s.mapEdge e).tick = s.tick := by simp [State.mapEdge]

@[simp] theorem State.reopen_tick (p : Nat) (c : Circ) (last : List Nat) : (s.reopen p c last).tick = s.tick := by
  simp [State.reopen]

theorem execCircuitIdentReceive_number (p serial gen : Nat) (last : List Nat) (at_ : Nat) :
    NumberStays s (execCircuitIdentReceive p serial gen last at_ s) := by
  unfold execCircuitIdentReceive
  dsimp only
  repeat' split
  all_goals simp

theorem execPortTrainingDone_number (p width : Nat) (ok : Bool) (at_ : Nat) :
    NumberStays s (execPortTrainingDone p width ok at_ s) := by
  simp [execPortTrainingDone]

@[simp] theorem State.engEdge_tick (e : Nat) : (s.engEdge e).tick = s.tick := by simp [State.engEdge]
@[simp] theorem State.optEdge_tick : s.optEdge.tick = s.tick := by simp [State.optEdge]
@[simp] theorem State.feedForward_tick (e : Nat) : (s.feedForward e).tick = s.tick := by simp [State.feedForward]
@[simp] theorem State.feedForwardEdge_tick : s.feedForwardEdge.tick = s.tick := by simp [State.feedForwardEdge]
theorem execAdcSampleDone_number (e code : Nat) : NumberStays s (execAdcSampleDone e code s) := by simp [execAdcSampleDone]

theorem execAdcSettingsWrite_number (e value : Nat) : NumberStays s (execAdcSettingsWrite e value s) := by
  simp [execAdcSettingsWrite]

/-! ### Boot -/

@[simp] theorem State.rails_tick (rs : List Nat) (on : Bool) : (s.rails rs on).tick = s.tick := by simp [State.rails]
@[simp] theorem State.release_tick : s.release.tick = s.tick := rfl
theorem execVbusAbove_number (at_ : Nat) : NumberStays s (execVbusAbove at_ s) := by simp [execVbusAbove]
@[simp] theorem State.bootHalt_tick (reason : Nat) : (s.bootHalt reason).tick = s.tick := rfl
@[simp] theorem State.romWait_tick : s.romWait.tick = s.tick := rfl
theorem execPllLock_number (bootSel at_ : Nat) : NumberStays s (execPllLock bootSel at_ s) := by simp [execPllLock]
theorem execPllLockTimeout_number (at_ : Nat) : NumberStays s (execPllLockTimeout at_ s) := by simp [execPllLockTimeout]
@[simp] theorem State.showSlot_tick (slot check : Nat) : (s.showSlot slot check).tick = s.tick := rfl

@[simp] theorem State.bootSlot_tick (slot : Nat) (fellBack : Bool) (c : FlashConfig) : (s.bootSlot slot fellBack c).tick = s.tick :=
  rfl

theorem State.chooseSlot_keeps (sel : Nat) (bad : List (Nat × List Nat)) (c : FlashConfig) :
    (s.chooseSlot sel bad c).2.tick = s.tick ∧ ∀ t, (s.chooseSlot sel bad c).1 = some t → t.tick = s.tick := by
  unfold State.chooseSlot
  extract_lets cs s1 x
  have shown : s1.tick = s.tick := by simp [s1]
  have examined : x.2.2.tick = s.tick := by simp [x, shown]
  split
  · exact ⟨examined, fun t booted => by cases booted; simp [examined]⟩
  · exact ⟨examined, fun t booted => by cases booted⟩

@[simp] theorem State.chooseSlot_tick (sel : Nat) (bad : List (Nat × List Nat)) (c : FlashConfig) :
    (s.chooseSlot sel bad c).2.tick = s.tick := (s.chooseSlot_keeps sel bad c).1

theorem execBootSlotRead_number (bad : List (Nat × List Nat)) (c : FlashConfig) (at_ : Nat) :
    NumberStays s (execBootSlotRead bad c at_ s) := by
  unfold execBootSlotRead
  dsimp only
  split
  · simp
  · split
    case h_1 t booted => simp [(State.chooseSlot_keeps ..).2 t booted]
    case h_2 => simp

theorem execLeaveRomWait_number (bad : List (Nat × List Nat)) (c : FlashConfig) (at_ : Nat) :
    NumberStays s (execLeaveRomWait bad c at_ s) := by
  unfold execLeaveRomWait
  dsimp only
  split
  · simp
  · split
    case h_1 t booted => simp [(State.chooseSlot_keeps ..).2 t booted]
    case h_2 => simp

theorem execRailSequence_number (fail : Option Nat) (at_ : Nat) : NumberStays s (execRailSequence fail at_ s) := by
  unfold execRailSequence
  dsimp only
  repeat' split
  all_goals simp

@[simp] theorem State.partFailed_tick (g result : Nat) : (s.partFailed g result).tick = s.tick := by simp [State.partFailed]
@[simp] theorem State.standby_tick : s.standby.tick = s.tick := rfl

theorem execBringupTraining_number (saved : Bool) (welt chans : List Nat) (at_ : Nat) :
    NumberStays s (execBringupTraining saved welt chans at_ s) := by
  simp [execBringupTraining]

theorem execSelfTestStart_number (g at_ : Nat) : NumberStays s (execSelfTestStart g at_ s) := by simp [execSelfTestStart]

theorem execSelfTestComplete_number (g : Nat) (ok : Bool) (at_ : Nat) : NumberStays s (execSelfTestComplete g ok at_ s) := by
  simp [execSelfTestComplete]

@[simp] theorem State.readiness_tick : s.readiness.tick = s.tick := by simp [State.readiness]

/-! ### Temperatures and rails -/

theorem execRailPoll_number (reads : List (Nat × Nat × Nat)) (at_ : Nat) : NumberStays s (execRailPoll reads at_ s) := by
  simp [execRailPoll]

@[simp] theorem State.throttle_tick : s.throttle.tick = s.tick := by simp [State.throttle]
theorem execThermalThrottle_number (temps : List Int) : NumberStays s (execThermalThrottle temps s) := by simp [execThermalThrottle]
@[simp] theorem State.throttleEdge_tick : s.throttleEdge.tick = s.tick := by simp [State.throttleEdge]

theorem execTripRecovery_number (temps : List Int) (at_ : Nat) : NumberStays s (execTripRecovery temps at_ s) := by
  simp [execTripRecovery]

theorem execSidebandRecovery_number (bus : Nat) (freed : Bool) (at_ : Nat) :
    NumberStays s (execSidebandRecovery bus freed at_ s) := by
  simp [execSidebandRecovery]

theorem execSidebandRetry_number (bus : Nat) (freed : Bool) (at_ : Nat) : NumberStays s (execSidebandRetry bus freed at_ s) := by
  simp [execSidebandRetry]

theorem execI3cIbi_number : NumberStays s (execI3cIbi s) := by simp [execI3cIbi]
@[simp] theorem State.sampleFaultN_tick (ext : Bool) : (s.sampleFaultN ext).tick = s.tick := by simp [State.sampleFaultN]

/-! ### Updates -/

@[simp] theorem State.modUpd_tick (f : Upd → Upd) : (s.modUpd f).tick = s.tick := rfl
@[simp] theorem State.updEnd_tick (status : Nat) : (s.updEnd status).tick = s.tick := rfl
@[simp] theorem State.flashPut_tick (slot off : Nat) (bytes : List Byte) : (s.flashPut slot off bytes).tick = s.tick := rfl
@[simp] theorem State.setStage_tick (slot stage : Nat) : (s.setStage slot stage).tick = s.tick := rfl

theorem execUpdBegin_number (p : Path) (ok : Bool) : NumberStays s (execUpdBegin p ok s) := by
  unfold execUpdBegin
  repeat' split
  all_goals exact numberStays_next.2 rfl

@[simp] theorem State.programRecord_tick : s.programRecord.tick = s.tick := rfl

@[simp] theorem State.chunk_tick (p : Path) (off : Nat) (data : List Byte) (ok : Bool) :
    (s.chunk p off data ok).2.tick = s.tick := by
  simp [State.chunk]

theorem execUpdVerify_number (p : Path) (bad : List Nat) (ok : Bool) : NumberStays s (execUpdVerify p bad ok s) := by
  simp [execUpdVerify]

@[simp] theorem State.microEdge_tick : s.microEdge.tick = s.tick := rfl
@[simp] theorem State.switchPart_tick (i now : Nat) (new : List Nat) : (s.switchPart i now new).tick = s.tick := rfl

@[simp] theorem State.liveSwitch_tick (bad : Bool) : (s.liveSwitch bad).tick = s.tick := by
  unfold State.liveSwitch
  dsimp only
  repeat' split
  all_goals simp

@[simp] theorem State.liveRevert_tick : s.liveRevert.tick = s.tick := by
  unfold State.liveRevert
  dsimp only
  repeat' split
  all_goals simp

@[simp] theorem State.updEdge_tick (bad : Bool) : (s.updEdge bad).tick = s.tick := by simp [State.updEdge]
theorem execUpdConfirm_number (p : Path) (ok : Bool) : NumberStays s (execUpdConfirm p ok s) := by simp [execUpdConfirm]

theorem execUpdAbort_number (p : Path) : NumberStays s (execUpdAbort p s) := by
  unfold execUpdAbort
  repeat' split
  all_goals exact numberStays_next.2 rfl

theorem execUsbEp1Chunk_number (off len : Nat) (data : List Byte) (ok : Bool) :
    NumberStays s (execUsbEp1Chunk off len data ok s) := by
  simp [execUsbEp1Chunk]

/-! ### The meter -/

@[simp] theorem State.dropRequest_tick : s.dropRequest.tick = s.tick := rfl

@[simp] theorem State.request_tick (peer seq : Nat) (headerOk : Bool) {act : State → List Byte × State}
    (kept : TickKept s (act s).2) : (s.request peer seq headerOk act).tick = s.tick := by
  have answered : (State.request.run s peer seq act).tick = s.tick := by simp [State.request.run, tickKept_iff.1 kept]
  unfold State.request
  repeat' split
  all_goals simp [answered]

@[simp] theorem State.modMeter_tick (f : Meter → Meter) : (s.modMeter f).tick = s.tick := by simp [State.modMeter]
@[simp] theorem State.atMs_tick (ms : Nat) : (s.atMs ms).tick = s.tick := rfl

@[simp] theorem State.meterRaise_tick (severity status : Nat) : (s.meterRaise severity status).tick = s.tick := by
  simp [State.meterRaise]

theorem execMeterHeartbeatSend_number (at_ : Nat) : NumberStays s (execMeterHeartbeatSend at_ s) := by simp [execMeterHeartbeatSend]

theorem execMeterHeartbeatTimeout_number (at_ : Nat) : NumberStays s (execMeterHeartbeatTimeout at_ s) := by
  simp [execMeterHeartbeatTimeout]

@[simp] theorem State.closeFrame_tick (ended : Nat) : (s.closeFrame ended).tick = s.tick := rfl

@[simp] theorem State.record_tick (typ ctx f48 f56 : Nat) (body : List Byte) (job ev : Nat) :
    (s.record typ ctx f48 f56 body job ev).tick = s.tick := by
  simp [State.record]

@[simp] theorem State.eventRecord_tick : s.eventRecord.tick = s.tick := by simp [State.eventRecord]
@[simp] theorem State.ctxRecord_tick (c job : Nat) : (s.ctxRecord c job).tick = s.tick := by simp [State.ctxRecord]
@[simp] theorem State.devRecord_tick : s.devRecord.tick = s.tick := by simp [State.devRecord]
@[simp] theorem State.mend_tick (c : Nat) : (s.mend c).tick = s.tick := by simp [State.mend]
@[simp] theorem State.mendDev_tick : s.mendDev.tick = s.tick := by simp [State.mendDev]
@[simp] theorem State.charge_tick (c d sh : Nat) : (s.charge c d sh).tick = s.tick := by simp [State.charge]

@[simp] theorem State.chargeDev_tick (ballast unattr : Nat) : (s.chargeDev ballast unattr).tick = s.tick := by
  simp [State.chargeDev]

@[simp] theorem State.chargeOps_tick (c cls n : Nat) : (s.chargeOps c cls n).tick = s.tick := by simp [State.chargeOps]

@[simp] theorem State.chargeTick_tick (es : List Nat) (esh : Nat) (fr : AttrFrame) : (s.chargeTick es esh fr).tick = s.tick := by
  simp [State.chargeTick]

@[simp] theorem State.oncePerS_tick (last : Option Nat) (status : Nat) : (s.oncePerS last status).2.tick = s.tick := by
  unfold State.oncePerS
  repeat' split
  all_goals simp

@[simp] theorem State.tellBalance_tick (bad : Bool) : (s.tellBalance bad).tick = s.tick := by simp [State.tellBalance]

theorem execAttributionFrame_number (tick tickN : Nat) (f : List Nat) : NumberStays s (execAttributionFrame tick tickN f s) := by
  unfold execAttributionFrame
  dsimp only
  repeat' split
  all_goals simp

@[simp] theorem State.closeBy_tick (es : List Nat) (esh : Nat) (fr : AttrFrame) : (s.closeBy es esh fr).tick = s.tick := by
  simp [State.closeBy]

@[simp] theorem State.closeLost_tick (es : List Nat) (esh : Nat) : (s.closeLost es esh).tick = s.tick := by simp [State.closeLost]

theorem execMeterTickClose_number (es : List Nat) (ein own ms : Nat) : NumberStays s (execMeterTickClose es ein own ms s) := by
  unfold execMeterTickClose
  extract_lets s1 n m sh s2
  have closed : s2.tick = s.tick := by simp [s2, s1]
  refine numberStays_ite.2 ⟨fun _ => by simp [s1], fun _ => ?_⟩
  split <;> simp [closed]

theorem execMeterSelfPeriod_number (es : List Nat) (ein own ms : Nat) : NumberStays s (execMeterSelfPeriod es ein own ms s) := by
  simp [execMeterSelfPeriod]

@[simp] theorem State.loadCal_tick : s.loadCal.tick = s.tick := by simp [State.loadCal]
@[simp] theorem State.takeSnap_tick : s.takeSnap.tick = s.tick := by simp [State.takeSnap]
theorem execMeterSnapshot_number (ok : Bool) (ms : Nat) : NumberStays s (execMeterSnapshot ok ms s) := by simp [execMeterSnapshot]
@[simp] theorem State.endInterval_tick : s.endInterval.tick = s.tick := by simp [State.endInterval]
theorem execRecordIntervalEnd_number (ms : Nat) : NumberStays s (execRecordIntervalEnd ms s) := by simp [execRecordIntervalEnd]

@[simp] theorem State.meterRequest_tick (peer seq op : Nat) {act : State → Nat × Nat × List Byte × State}
    (kept : TickKept s (act s).2.2.2) : (s.meterRequest peer seq op act).tick = s.tick := by
  simp [State.meterRequest, tickKept_iff.1 kept]

theorem execMeterFetch_number (peer seq first count : Nat) : NumberStays s (execMeterFetch peer seq first count s) := by
  refine numberStays_next.2 (congrArg Tick.number (s.meterRequest_tick peer seq 1 ?_))
  dsimp only
  repeat' split
  all_goals simp

theorem execMeterNonce_number (peer seq : Nat) : NumberStays s (execMeterNonce peer seq s) := by simp [execMeterNonce]

theorem execMeterInterval_number (peer seq arg : Nat) : NumberStays s (execMeterInterval peer seq arg s) := by
  simp [execMeterInterval]

theorem execMeterTimeMark_number (peer seq utc : Nat) : NumberStays s (execMeterTimeMark peer seq utc s) := by
  simp [execMeterTimeMark]

@[simp] theorem State.spendNonce_tick : s.spendNonce.tick = s.tick := rfl

theorem execMeterBreak_number (peer seq : Nat) (tok : List Byte) : NumberStays s (execMeterBreak peer seq tok s) := by
  simp [execMeterBreak]

theorem execMeterRestore_number (peer seq : Nat) (tok : List Byte) : NumberStays s (execMeterRestore peer seq tok s) := by
  simp [execMeterRestore]

theorem execMeterCalibration_number (peer seq ch constants : Nat) :
    NumberStays s (execMeterCalibration peer seq ch constants s) := by
  simp [execMeterCalibration]

theorem execMeterFwChunk_number (peer seq off : Nat) (data : List Byte) : NumberStays s (execMeterFwChunk peer seq off data s) := by
  simp [execMeterFwChunk]

theorem execVMtrFail_number (ms : Nat) : NumberStays s (execVMtrFail ms s) := by simp [execVMtrFail]
theorem execVMtrReturn_number (ms : Nat) : NumberStays s (execVMtrReturn ms s) := by simp [execVMtrReturn]

/-! ### Rollback and replay -/

@[simp] theorem State.ledRefuse_tick (status : Nat) : (s.ledRefuse status).tick = s.tick := rfl
@[simp] theorem State.endSends_tick (g : Nat) : (s.endSends g).tick = s.tick := by simp [State.endSends]
@[simp] theorem State.quiesce_tick (c : Nat) : (s.quiesce c).tick = s.tick := by simp [State.quiesce]
theorem execLedgerRollback_number (c at_ : Nat) : NumberStays s (execLedgerRollback c at_ s) := by simp [execLedgerRollback]

@[simp] theorem State.settleShard_tick (c target : Nat) (needTail : Bool) : (s.settleShard c target needTail).tick = s.tick := by
  simp [State.settleShard]

theorem execRollbackExchange_number (c target : Nat) (needTail lost : Bool) (at_ : Nat) :
    NumberStays s (execRollbackExchange c target needTail lost at_ s) := by
  unfold execRollbackExchange
  dsimp only
  repeat' split
  all_goals simp

@[simp] theorem State.settled_tick (c : Nat) : (s.settled c).tick = s.tick := rfl
@[simp] theorem State.streamBad_tick (c kind reason : Nat) : (s.streamBad c kind reason).tick = s.tick := by simp [State.streamBad]

theorem execMirrorRestore_number (c role : Nat) (bytes : List Byte) (digest : Option Nat) :
    NumberStays s (execMirrorRestore c role bytes digest s) := by
  unfold execMirrorRestore
  dsimp only
  repeat' split
  all_goals simp

theorem execMirrorSeeding_number (c role step : Nat) (bytes : List Byte) (digest : Option Nat) :
    NumberStays s (execMirrorSeeding c role step bytes digest s) := by
  unfold execMirrorSeeding
  dsimp only
  repeat' split
  all_goals simp

@[simp] theorem State.targetRecord_tick (c j : Nat) (copy : List Byte) : (s.targetRecord c j copy).2.tick = s.tick := by
  simp [State.targetRecord]

@[simp] theorem State.startTail_tick (c : Nat) : (s.startTail c).tick = s.tick := by simp [State.startTail]

theorem execTailReplay_number (c : Nat) (copy : List Byte) : NumberStays s (execTailReplay c copy s) := by
  unfold execTailReplay
  dsimp only
  repeat' split
  all_goals simp

@[simp] theorem State.fillWeights_tick (c : Nat) (bs : List Byte) : (s.fillWeights c bs).tick = s.tick := by
  simp [State.fillWeights]

theorem execSpareTakeover_number (c target : Nat) (records banks : List (Nat × List Byte)) (weights : List Byte) :
    NumberStays s (execSpareTakeover c target records banks weights s) := by
  unfold execSpareTakeover
  extract_lets l s1 replays ok s2 s3
  have stored : s1.tick = s.tick := by simp [s1]
  have banked : s3.tick = s2.tick := foldl_tick (fun t e => by split <;> simp) _ s2
  simp [banked, s2, stored]

theorem execLedgerHalt_number (c : Nat) : NumberStays s (execLedgerHalt c s) := by simp [execLedgerHalt]
theorem execClearStrikes_number (c : Nat) : NumberStays s (execClearStrikes c s) := by simp [execClearStrikes]

theorem execLedgerEnableWrite_number (value : Nat) : NumberStays s (execLedgerEnableWrite value s) := by
  simp [execLedgerEnableWrite]

/-! ### Checkpoints -/

@[simp] theorem State.ckptRefuse_tick : s.ckptRefuse.tick = s.tick := rfl
theorem execCkptTake_number (c : Nat) : NumberStays s (execCkptTake c s) := by simp [execCkptTake]
theorem execCkptTimerExpire_number (c at_ : Nat) : NumberStays s (execCkptTimerExpire c at_ s) := by simp [execCkptTimerExpire]

@[simp] theorem State.heldGranule_tick (c o : Nat) : (s.heldGranule c o).2.2.tick = s.tick := by
  unfold State.heldGranule
  repeat' split
  all_goals simp

@[simp] theorem State.unitBytes_tick (c u : Nat) : (s.unitBytes c u).2.2.tick = s.tick := by
  unfold State.unitBytes
  dsimp only
  repeat' split
  all_goals simp

@[simp] theorem State.sendUnit1_tick (c : Nat) : (s.sendUnit1 c).tick = s.tick := by
  unfold State.sendUnit1
  dsimp only
  repeat' split
  all_goals simp

@[simp] theorem State.pumpDrain_tick (c : Nat) : (s.pumpDrain c).tick = s.tick := by simp [State.pumpDrain]
theorem execCkptDrainStart_number (c at_ : Nat) : NumberStays s (execCkptDrainStart c at_ s) := by simp [execCkptDrainStart]
@[simp] theorem State.ckptComplete_tick (c : Nat) : (s.ckptComplete c).tick = s.tick := rfl
@[simp] theorem State.completionDown_tick (c step : Nat) : (s.completionDown c step).tick = s.tick := by simp [State.completionDown]
@[simp] theorem State.digestUp_tick (c : Nat) : (s.digestUp c).tick = s.tick := by simp [State.digestUp]
@[simp] theorem State.seal_tick (c : Nat) : (s.seal c).tick = s.tick := by simp [State.seal]
theorem execCkptUnitAccept_number (c u at_ : Nat) : NumberStays s (execCkptUnitAccept c u at_ s) := by simp [execCkptUnitAccept]

theorem execCkptDigestTreeReceive_number (c from_ : Nat) (digest : List Byte) :
    NumberStays s (execCkptDigestTreeReceive c from_ digest s) := by
  simp [execCkptDigestTreeReceive]

theorem execCkptCompletionReceive_number (c step : Nat) : NumberStays s (execCkptCompletionReceive c step s) := by
  simp [execCkptCompletionReceive]

theorem execCkptAbort_number (c : Nat) : NumberStays s (execCkptAbort c s) := by simp [execCkptAbort]

@[simp] theorem State.restoreEnd_tick (c status port : Nat) : (s.restoreEnd c status port).tick = s.tick := by
  simp [State.restoreEnd]

theorem execCkptRestore_number (c slot port : Nat) (manifest data : List Byte) :
    NumberStays s (execCkptRestore c slot port manifest data s) := by
  simp [execCkptRestore]

/-! ### The host port -/

@[simp] theorem State.urgeAll_tick (c addr n : Nat) : (s.urgeAll c addr n).tick = s.tick := by simp [State.urgeAll]
@[simp] theorem State.dropInbound_tick (f : Nat) : (s.dropInbound f).tick = s.tick := rfl
@[simp] theorem State.tellOut_tick (f c : Nat) : (s.tellOut f c).tick = s.tick := by simp [State.tellOut]
@[simp] theorem State.tellFenced_tick (f c g : Nat) : (s.tellFenced f c g).tick = s.tick := by simp [State.tellFenced]

@[simp] theorem State.refuseInbound_tick (f status : Nat) (write : Bool) : (s.refuseInbound f status write).tick = s.tick := by
  simp [State.refuseInbound]

theorem execHostInboundRequest_number (f : Nat) (write : Bool) (off len : Nat) (bytes : List Byte) (at_ : Nat) :
    NumberStays s (execHostInboundRequest f write off len bytes at_ s) := by
  simp [execHostInboundRequest]

theorem execHostCompletionReceive_number (tag status at_ : Nat) (bs : List Byte) :
    NumberStays s (execHostCompletionReceive tag status at_ bs s) := by
  unfold execHostCompletionReceive
  dsimp only
  repeat' split
  all_goals simp

theorem execHostCompletionTimeout_number (tag at_ : Nat) : NumberStays s (execHostCompletionTimeout tag at_ s) := by
  unfold execHostCompletionTimeout
  dsimp only
  repeat' split
  all_goals simp

@[simp] theorem State.masterOff_tick (f : Nat) : (s.masterOff f).tick = s.tick := by
  unfold State.masterOff
  dsimp only
  repeat' split
  all_goals simp

theorem execBusMasterDisable_number (f at_ : Nat) : NumberStays s (execBusMasterDisable f at_ s) := by simp [execBusMasterDisable]
theorem execBusMasterEnable_number (f at_ : Nat) : NumberStays s (execBusMasterEnable f at_ s) := by simp [execBusMasterEnable]
@[simp] theorem State.flrOf_tick (f : Nat) : (s.flrOf f).tick = s.tick := by simp [State.flrOf]
@[simp] theorem State.flr_tick (f : Nat) : (s.flr f).tick = s.tick := by simp [State.flr]

theorem execFunctionLevelReset_number (f at_ : Nat) : NumberStays s (execFunctionLevelReset f at_ s) := by
  simp [execFunctionLevelReset]

theorem execFlrComplete_number (f at_ : Nat) : NumberStays s (execFlrComplete f at_ s) := by simp [execFlrComplete]
theorem execHostLinkDown_number (at_ : Nat) : NumberStays s (execHostLinkDown at_ s) := by simp [execHostLinkDown]

theorem execHostLinkUp_number (gen width : Nat) (flit : Bool) (vfs : Nat) :
    NumberStays s (execHostLinkUp gen width flit vfs s) := by
  simp [execHostLinkUp]

/-! ### The storage ports -/

@[simp] theorem State.endQpOps_tick (q : Nat) : (s.endQpOps q).tick = s.tick := by
  unfold State.endQpOps
  dsimp only
  repeat' split
  all_goals simp

@[simp] theorem State.qpFail_tick (q status : Nat) : (s.qpFail q status).tick = s.tick := by simp [State.qpFail]
theorem execQpModify_number : NumberStays s (execQpModify s) := by simp [execQpModify]
theorem execQpReset_number : NumberStays s (execQpReset s) := by simp [execQpReset]

@[simp] theorem State.resendUnits_tick (q : Nat) : (s.resendUnits q).tick = s.tick :=
  foldl_tick (fun t e => foldl_tick (fun u n => by split <;> simp) _ t) _ s

theorem execAckTimeout_number (q at_ : Nat) : NumberStays s (execAckTimeout q at_ s) := by
  unfold execAckTimeout
  dsimp only
  repeat' split
  all_goals simp

theorem execCnpReceive_number (q at_ : Nat) : NumberStays s (execCnpReceive q at_ s) := by simp [execCnpReceive]
theorem execRateRecovery_number (q at_ : Nat) : NumberStays s (execRateRecovery q at_ s) := by simp [execRateRecovery]
@[simp] theorem State.pumpStor_tick (p : Nat) : (s.pumpStor p).tick = s.tick := by simp [State.pumpStor]

theorem execPfcPauseReceive_number (p prio : Nat) (pause : Bool) (at_ : Nat) :
    NumberStays s (execPfcPauseReceive p prio pause at_ s) := by
  simp [execPfcPauseReceive]

theorem execPfcStuck_number (p at_ : Nat) : NumberStays s (execPfcStuck p at_ s) := by simp [execPfcStuck]
@[simp] theorem State.sendCnp_tick (p q : Nat) : (s.sendCnp p q).tick = s.tick := by simp [State.sendCnp]

@[simp] theorem State.rdmaWrite_tick (q addr rkey : Nat) (bytes : List Byte) : (s.rdmaWrite q addr rkey bytes).tick = s.tick := by
  unfold State.rdmaWrite
  repeat' split
  all_goals simp

@[simp] theorem State.rdmaRead_tick (q addr rkey len : Nat) : (s.rdmaRead q addr rkey len).tick = s.tick := by
  unfold State.rdmaRead
  dsimp only
  repeat' split
  all_goals simp

@[simp] theorem State.roceData_tick (q tag : Nat) (bs : List Byte) : (s.roceData q tag bs).tick = s.tick := by
  unfold State.roceData
  dsimp only
  repeat' split
  all_goals simp

theorem execStorPacketReceive_number (p q : Nat) (pkt : Roce) (ce : Bool) (at_ : Nat) :
    NumberStays s (execStorPacketReceive p q pkt ce at_ s) := by
  unfold execStorPacketReceive
  dsimp only
  repeat' split
  all_goals simp

theorem execStoragePortDown_number (p at_ : Nat) : NumberStays s (execStoragePortDown p at_ s) := by
  unfold execStoragePortDown
  dsimp only
  repeat' split
  all_goals simp

theorem execStoragePortUp_number (p at_ : Nat) : NumberStays s (execStoragePortUp p at_ s) := by simp [execStoragePortUp]

theorem execStorPortDownTimeout_number (p at_ : Nat) : NumberStays s (execStorPortDownTimeout p at_ s) := by
  unfold execStorPortDownTimeout
  dsimp only
  repeat' split
  all_goals simp

/-! ### Records and streams -/

@[simp] theorem State.skipInput_tick (c g n : Nat) (r : Run) : (s.skipInput c g n r).tick = s.tick := by simp [State.skipInput]

@[simp] theorem State.beginRecord_tick (c g n : Nat) (r : Run) : (s.beginRecord c g n r).tick = s.tick := by
  unfold State.beginRecord
  dsimp only
  repeat' split
  all_goals simp

theorem execRecordWaitMet_number (g n u at_ : Nat) : NumberStays s (execRecordWaitMet g n u at_ s) := by
  unfold execRecordWaitMet
  dsimp only
  repeat' split
  all_goals simp

theorem execRecordRetire_number (g n idx at_ : Nat) : NumberStays s (execRecordRetire g n idx at_ s) := by
  unfold execRecordRetire
  dsimp only
  repeat' split
  all_goals simp

@[simp] theorem State.barrier_tick (c : Nat) : (s.barrier c).tick = s.tick := by simp [State.barrier]

theorem execStepBoundaryCensus_number (c at_ : Nat) : NumberStays s (execStepBoundaryCensus c at_ s) := by
  simp [execStepBoundaryCensus]

/-! ### The traffic generators -/

@[simp] theorem State.tgWrite_tick (ch : Nat) (t : TrafGen) (reg : Nat) : (s.tgWrite ch t reg).1.tick = s.tick := by
  simp [State.tgWrite]

@[simp] theorem State.tgScan_tick (ch : Nat) (t : TrafGen) : (s.tgScan ch t).tick = s.tick := by simp [State.tgScan]
@[simp] theorem State.tgPass_tick (ch reg : Nat) : (s.tgPass ch reg).1.tick = s.tick := by simp [State.tgPass]

@[simp] theorem State.tgFails_tick (ch : Nat) (fails : List (Nat × Nat × Nat)) : (s.tgFails ch fails).tick = s.tick := by
  simp [State.tgFails]

theorem execTgStart_number (ch : Nat) (fails : List (Nat × Nat × Nat)) : NumberStays s (execTgStart ch fails s) := by
  simp [execTgStart]

theorem execTgStop_number (ch : Nat) : NumberStays s (execTgStop ch s) := by simp [execTgStop]

theorem execTgRunEnd_number (ch : Nat) (fails : List (Nat × Nat × Nat)) : NumberStays s (execTgRunEnd ch fails s) := by
  simp [execTgRunEnd]

/-! ### Reads of the control space -/

@[simp] theorem State.pathRead_tick (p : Path) (addr : Nat) : (s.pathRead p addr).2.tick = s.tick := by
  unfold State.pathRead
  dsimp only
  repeat' split
  all_goals simp

/-! ### Writes of the control space -/

theorem execArithClear_number (c : Nat) : NumberStays s (execArithClear c s) := by simp [execArithClear]
@[simp] theorem State.endSeq_tick (p : Path) : (s.endSeq p).tick = s.tick := rfl

theorem execPairedReadLatch_number (p : Path) (addr at_ : Nat) : NumberStays s (execPairedReadLatch p addr at_ s) := by
  simp [execPairedReadLatch]

/-! ### The service ports -/

@[simp] theorem State.readWords_tick (p : Path) (addr n : Nat) : (s.readWords p addr n).2.tick = s.tick := by simp [State.readWords]
theorem execUsbRead_number (addr wLength at_ : Nat) : NumberStays s (execUsbRead addr wLength at_ s) := by simp [execUsbRead]
theorem execUsbBusReset_number (cut highSpeed : Bool) : NumberStays s (execUsbBusReset cut highSpeed s) := by simp [execUsbBusReset]

theorem execMgmtRead_number (peer seq addr count at_ : Nat) : NumberStays s (execMgmtRead peer seq addr count at_ s) := by
  simp [execMgmtRead]

theorem execMgmtDownloadChunk_number (peer seq off : Nat) (data : List Byte) (ok : Bool) :
    NumberStays s (execMgmtDownloadChunk peer seq off data ok s) := by
  simp [execMgmtDownloadChunk]

@[simp] theorem State.toSinks_tick (bs : List Byte) : (s.toSinks bs).tick = s.tick := by simp [State.toSinks]
theorem execReportDatagramSend_number (at_ : Nat) : NumberStays s (execReportDatagramSend at_ s) := by simp [execReportDatagramSend]
theorem execHeartbeatSend_number (at_ : Nat) : NumberStays s (execHeartbeatSend at_ s) := by simp [execHeartbeatSend]

theorem execReportAckReceive_number (sink seq : Nat) : NumberStays s (execReportAckReceive sink seq s) := by
  simp [execReportAckReceive]

theorem execReportResend_number (at_ : Nat) : NumberStays s (execReportResend at_ s) := by
  unfold execReportResend
  dsimp only
  repeat' split
  all_goals simp

@[simp] theorem State.endPhases_tick (status : Nat) : (s.endPhases status).tick = s.tick := by simp [State.endPhases]
theorem execLeaseLapse_number (at_ : Nat) : NumberStays s (execLeaseLapse at_ s) := by simp [execLeaseLapse]

/-! ### The edge -/

@[simp] theorem State.edgeSegments_tick : s.edgeSegments.tick = s.tick := by simp [State.edgeSegments]

/-! ### The edge counts once (R48) -/

@[simp] theorem State.edgeWrites_number : s.edgeWrites.tick.number = s.tick.number := by
  simp [State.edgeWrites, State.edgePending_number]

@[simp] theorem State.edgeFrames_number : s.edgeFrames.tick.number = s.tick.number := by
  simp [State.edgeFrames, State.sendBeacons_number]

theorem State.counted_number : s.counted.tick.number = pairOf 64 ((s.tickNo + 1) % 2 ^ 64) := by
  simp [State.counted, Tick.holdoverEdge_number, wrapAdd]

/-- Of the stages after the count none changes the number. -/
theorem State.edgeWork_number (work room : Nat) (bad ext : Bool) : (s.edgeWork work room bad ext).tick.number = s.tick.number := by
  simp [State.edgeWork]

theorem execTickEdge_counts {t : State} {at_ work room : Nat} {bad ext : Bool} (intact : s.tick.number.ok = true)
    (due : s.tick.due ≤ (s.atClk at_).clk) (answered : execTickEdge at_ work room bad ext s = .next t) :
    t.tick.number = pairOf 64 ((s.tickNo + 1) % 2 ^ 64) := by
  have closed : ((s.atClk at_).closeFrame s.tickNo).tick = s.tick := by simp
  have sameNo : ((s.atClk at_).closeFrame s.tickNo).tickNo = s.tickNo := by rw [State.tickNo, closed, State.tickNo]
  rw [execTickEdge_due due (by rw [closed]; exact intact)] at answered
  cases answered
  rw [State.edgeWork_number, State.counted_number, sameNo]

/-! ### Every command (R48, R53) -/

/-- The commands that may change the tick number: an edge, a beacon, a register write, and those by which the power-on path runs
again. -/
def mayCount : Instr → Bool
  | .tickEdge .. | .beaconReceive .. | .registerWrite .. | .pairedWriteWord .. | .usbWrite .. | .mgmtWrite .. | .vAonValid
  | .vAonLoss | .brownOut .. | .thermalTrip .. | .updActivate .. | .updRevert .. | .trialTimerExpire .. => true
  | _ => false

/-- No other command changes the stored pair: those of units' work leave the whole control part, the rest the tick block or at least
its number. -/
theorem exec_number {i : Instr} (other : mayCount i = false) : NumberStays s (exec i s) := by
  cases i with
  | pairedReadLatch p addr at_ => exact execPairedReadLatch_number s p addr at_
  | weltLinkDown l => exact execWeltLinkDown_number s l
  | echoSend at_ => exact execEchoSend_number s at_
  | echoReceive port b at_ => exact execEchoReceive_number s port b at_
  | holdoverExpire => exact execHoldoverExpire_number s
  | relock => exact execRelock_number s
  | startArm S => exact execStartArm_number s S
  | startDisarm c => exact execStartDisarm_number s c
  | governorEnergyCheck running => exact execGovernorEnergyCheck_number s running
  | tickPeriodWrite value => exact execTickPeriodWrite_number s value
  | arithClear c => exact execArithClear_number s c
  | recordDispatch g n at_ => exact (execRecordDispatch_control g n at_).number
  | recordWaitMet g n u at_ => exact execRecordWaitMet_number s g n u at_
  | recordRetire g n idx at_ => exact execRecordRetire_number s g n idx at_
  | stepEndMark g n => exact (execStepEndMark_control g n).number
  | passIssue g n u at_ => exact (execPassIssue_control g n u at_).number
  | awlTileIssue g n at_ => exact (execAwlTileIssue_control g n at_).number
  | bankDrain g n u at_ => exact (execBankDrain_control g n u at_).number
  | codebookCalibrate c instr grp => exact (execCodebookCalibrate_control c instr grp).number
  | driftSample g n idx blk => exact (execDriftSample_control g n idx blk).number
  | windowWrite c value => exact execWindowWrite_number s c value
  | memArbWrite value => exact execMemArbWrite_number s value
  | granuleRead c g n unit space addr ups => exact (execGranuleRead_control c g n unit space addr ups).number
  | eccWriteback cm idx => exact (execEccWriteback_control cm idx).number
  | granuleWrite c g n unit space addr bytes => exact (execGranuleWrite_control c g n unit space addr bytes).number
  | scrubAccess cm idx bank at_ ups => exact (execScrubAccess_control cm idx bank at_ ups).number
  | retrieverCopy g n at_ => exact execRetrieverCopy_number s g n at_
  | retrieverFillZeros g n at_ => exact (execRetrieverFillZeros_control g n at_).number
  | retrieverDefineZero g n at_ => exact (execRetrieverDefineZero_control g n at_).number
  | retrieverInvalidate g n at_ => exact (execRetrieverInvalidate_control g n at_).number
  | unitAccept g n at_ => exact (execUnitAccept_control g n at_).number
  | tgStart ch fails => exact execTgStart_number s ch fails
  | tgStop ch => exact execTgStop_number s ch
  | tgRunEnd ch fails => exact execTgRunEnd_number s ch fails
  | localSendApply id at_ => exact (execLocalSendApply_control id at_).number
  | remoteSendApply id at_ => exact (execRemoteSendApply_control id at_).number
  | sendAckReceive id at_ => exact (execSendAckReceive_control id at_).number
  | stepBoundaryCensus c at_ => exact execStepBoundaryCensus_number s c at_
  | syncReseed c => exact execSyncReseed_number s c
  | syncCensus c => exact execSyncCensus_number s c
  | loadGo src q c at_ => exact execLoadGo_number s src q c at_
  | loadFetchData tag status at_ bs => exact execLoadFetchData_number s tag status at_ bs
  | loadCheck at_ => exact execLoadCheck_number s at_
  | loadAbort c at_ => exact execLoadAbort_number s c at_
  | unload c at_ => exact execUnload_number s c at_
  | deferredUnload c at_ => exact execDeferredUnload_number s c at_
  | cobblerQueueEnter ch => exact (execCobblerQueueEnter_control ch).number
  | cobblerUpdate ch => exact (execCobblerUpdate_control ch).number
  | cobblerEmit ch => exact (execCobblerEmit_control ch).number
  | fabricPacketReceive p v k => exact execFabricPacketReceive_number s p v k
  | acceptReceive p v k => exact execAcceptReceive_number s p v k
  | reduceStage g n idx m st => exact execReduceStage_number s g n idx m st
  | packetRoute k => exact execPacketRoute_number s k
  | deterministicWrite value => exact execDeterministicWrite_number s value
  | ledgerTransferReceive c kind step bytes digest => exact execLedgerTransferReceive_number s c kind step bytes digest
  | voteReceive c v => exact execVoteReceive_number s c v
  | voteTimeout c => exact execVoteTimeout_number s c
  | decisionReceive c down from_ step yes due at_ => exact execDecisionReceive_number s c down from_ step yes due at_
  | decisionTimeout c => exact execDecisionTimeout_number s c
  | mirrorConfirmedReceive c step => exact execMirrorConfirmedReceive_number s c step
  | ledgerRollback c at_ => exact execLedgerRollback_number s c at_
  | rollbackExchange c target needTail lost at_ => exact execRollbackExchange_number s c target needTail lost at_
  | mirrorRestore c role bytes digest => exact execMirrorRestore_number s c role bytes digest
  | tailReplay c copy => exact execTailReplay_number s c copy
  | spareTakeover c target records banks weights => exact execSpareTakeover_number s c target records banks weights
  | mirrorSeeding c role step bytes digest => exact execMirrorSeeding_number s c role step bytes digest
  | ledgerHalt c => exact execLedgerHalt_number s c
  | clearStrikes c => exact execClearStrikes_number s c
  | ledgerEnableWrite value => exact execLedgerEnableWrite_number s value
  | ckptTake c => exact execCkptTake_number s c
  | ckptTimerExpire c at_ => exact execCkptTimerExpire_number s c at_
  | ckptDrainStart c at_ => exact execCkptDrainStart_number s c at_
  | ckptUnitAccept c u at_ => exact execCkptUnitAccept_number s c u at_
  | ckptDigestTreeReceive c from_ digest => exact execCkptDigestTreeReceive_number s c from_ digest
  | ckptCompletionReceive c step => exact execCkptCompletionReceive_number s c step
  | ckptAbort c => exact execCkptAbort_number s c
  | ckptRestore c slot port manifest data => exact execCkptRestore_number s c slot port manifest data
  | frameReceive f at_ => exact execFrameReceive_number s f at_
  | linkIdleTimeout p at_ => exact execLinkIdleTimeout_number s p at_
  | portDown p at_ => exact execPortDown_number s p at_
  | censusMarkerReceive p v h rs sent at_ => exact execCensusMarkerReceive_number s p v h rs sent at_
  | portTrainingDone p width ok at_ => exact execPortTrainingDone_number s p width ok at_
  | fullSearchRetry p at_ => exact execFullSearchRetry_number s p at_
  | helloReceive p h at_ => exact execHelloReceive_number s p h at_
  | fabCommit => exact execFabCommit_number s
  | fabRetrain p => exact execFabRetrain_number s p
  | fabFullSearch p => exact execFabFullSearch_number s p
  | fabPortOff p => exact execFabPortOff_number s p
  | fabPortOn p => exact execFabPortOn_number s p
  | fabDevWrite value => exact execFabDevWrite_number s value
  | fabJobWrite slot epoch value => exact execFabJobWrite_number s slot epoch value
  | fabCtxJobWrite c value => exact execFabCtxJobWrite_number s c value
  | engineSearch e => exact execEngineSearch_number s e
  | engineSearchCached e => exact execEngineSearchCached_number s e
  | searchComplete e buses found temp => exact execSearchComplete_number s e buses found temp
  | lockVisit b r err => exact execLockVisit_number s b r err
  | laneOutRequest p w fault => exact execLaneOutRequest_number s p w fault
  | laneOutReply p w accept => exact execLaneOutReply_number s p w accept
  | combLineLow p w => exact execCombLineLow_number s p w
  | calCycleStart e at_ => exact execCalCycleStart_number s e at_
  | calSlotEnd e dTx dRx => exact execCalSlotEnd_number s e dTx dRx
  | laserLoss e L => exact execLaserLoss_number s e L
  | laserRestored e L => exact execLaserRestored_number s e L
  | tableModeUpdate e t4 => exact execTableModeUpdate_number s e t4
  | tableModeWrite e value => exact execTableModeWrite_number s e value
  | switchSlotWrite k value => exact execSwitchSlotWrite_number s k value
  | mapApply e slot => exact execMapApply_number s e slot
  | planEntryWrite k word value => exact execPlanEntryWrite_number s k word value
  | circuitIdentReceive p serial gen last at_ => exact execCircuitIdentReceive_number s p serial gen last at_
  | adcSampleDone e code => exact execAdcSampleDone_number s e code
  | adcSettingsWrite e value => exact execAdcSettingsWrite_number s e value
  | partAssignWrite c mask => exact execPartAssignWrite_number s c mask
  | nextContextWrite g value => exact execNextContextWrite_number s g value
  | hangDetected g at_ => exact execHangDetected_number s g at_
  | partFence g at_ => exact execPartFence_number s g at_
  | fenceDrainComplete g at_ => exact execFenceDrainComplete_number s g at_
  | drainLimitExpire g at_ => exact execDrainLimitExpire_number s g at_
  | partReset g full at_ => exact execPartReset_number s g full at_
  | resetPhaseComplete g ok at_ => exact execResetPhaseComplete_number s g ok at_
  | ctxStop c => exact execCtxStop_number s c
  | ctxAbort c at_ => exact execCtxAbort_number s c at_
  | leaseGrant value at_ => exact execLeaseGrant_number s value at_
  | leaseLapse at_ => exact execLeaseLapse_number s at_
  | sheepdogAck => exact execSheepdogAck_number s
  | sheepdogPop => exact execSheepdogPop_number s
  | vbusAbove at_ => exact execVbusAbove_number s at_
  | pllLock bootSel at_ => exact execPllLock_number s bootSel at_
  | pllLockTimeout at_ => exact execPllLockTimeout_number s at_
  | bootSlotRead bad c at_ => exact execBootSlotRead_number s bad c at_
  | leaveRomWait bad c at_ => exact execLeaveRomWait_number s bad c at_
  | railSequence fail at_ => exact execRailSequence_number s fail at_
  | bringupTraining saved welt chans at_ => exact execBringupTraining_number s saved welt chans at_
  | selfTestStart g at_ => exact execSelfTestStart_number s g at_
  | selfTestComplete g ok at_ => exact execSelfTestComplete_number s g ok at_
  | hostInboundRequest f write off len bytes at_ => exact execHostInboundRequest_number s f write off len bytes at_
  | hostCompletionReceive tag status at_ bs => exact execHostCompletionReceive_number s tag status at_ bs
  | hostCompletionTimeout tag at_ => exact execHostCompletionTimeout_number s tag at_
  | busMasterDisable f at_ => exact execBusMasterDisable_number s f at_
  | busMasterEnable f at_ => exact execBusMasterEnable_number s f at_
  | functionLevelReset f at_ => exact execFunctionLevelReset_number s f at_
  | flrComplete f at_ => exact execFlrComplete_number s f at_
  | hostLinkDown at_ => exact execHostLinkDown_number s at_
  | storPacketReceive p q pkt ce at_ => exact execStorPacketReceive_number s p q pkt ce at_
  | cnpReceive q at_ => exact execCnpReceive_number s q at_
  | rateRecovery q at_ => exact execRateRecovery_number s q at_
  | pfcStuck p at_ => exact execPfcStuck_number s p at_
  | ackTimeout q at_ => exact execAckTimeout_number s q at_
  | storPortDownTimeout p at_ => exact execStorPortDownTimeout_number s p at_
  | qpModify => exact execQpModify_number s
  | qpReset => exact execQpReset_number s
  | usbRead addr wLength at_ => exact execUsbRead_number s addr wLength at_
  | usbBusReset cut highSpeed => exact execUsbBusReset_number s cut highSpeed
  | usbEp1Chunk off len data ok => exact execUsbEp1Chunk_number s off len data ok
  | sidebandRecovery bus freed at_ => exact execSidebandRecovery_number s bus freed at_
  | sidebandRetry bus freed at_ => exact execSidebandRetry_number s bus freed at_
  | i3cIbi => exact execI3cIbi_number s
  | mgmtRead peer seq addr count at_ => exact execMgmtRead_number s peer seq addr count at_
  | mgmtDownloadChunk peer seq off data ok => exact execMgmtDownloadChunk_number s peer seq off data ok
  | reportDatagramSend at_ => exact execReportDatagramSend_number s at_
  | heartbeatSend at_ => exact execHeartbeatSend_number s at_
  | reportAckReceive sink seq => exact execReportAckReceive_number s sink seq
  | reportResend at_ => exact execReportResend_number s at_
  | updBegin p ok => exact execUpdBegin_number s p ok
  | updVerify p bad ok => exact execUpdVerify_number s p bad ok
  | updConfirm p ok => exact execUpdConfirm_number s p ok
  | updAbort p => exact execUpdAbort_number s p
  | meterHeartbeatSend at_ => exact execMeterHeartbeatSend_number s at_
  | meterHeartbeatTimeout at_ => exact execMeterHeartbeatTimeout_number s at_
  | attributionFrame tick tickN f => exact execAttributionFrame_number s tick tickN f
  | meterTickClose es ein own ms => exact execMeterTickClose_number s es ein own ms
  | meterSelfPeriod es ein own ms => exact execMeterSelfPeriod_number s es ein own ms
  | meterSnapshot ok ms => exact execMeterSnapshot_number s ok ms
  | recordIntervalEnd ms => exact execRecordIntervalEnd_number s ms
  | meterFetch peer seq first count => exact execMeterFetch_number s peer seq first count
  | meterNonce peer seq => exact execMeterNonce_number s peer seq
  | meterInterval peer seq arg => exact execMeterInterval_number s peer seq arg
  | meterTimeMark peer seq utc => exact execMeterTimeMark_number s peer seq utc
  | meterBreak peer seq tok => exact execMeterBreak_number s peer seq tok
  | meterRestore peer seq tok => exact execMeterRestore_number s peer seq tok
  | meterCalibration peer seq ch constants => exact execMeterCalibration_number s peer seq ch constants
  | meterFwChunk peer seq off data => exact execMeterFwChunk_number s peer seq off data
  | vMtrFail ms => exact execVMtrFail_number s ms
  | vMtrReturn ms => exact execVMtrReturn_number s ms
  | thermalThrottle temps => exact execThermalThrottle_number s temps
  | tripRecovery temps at_ => exact execTripRecovery_number s temps at_
  | railPoll reads at_ => exact execRailPoll_number s reads at_
  | unitFault g at_ => exact execUnitFault_number s g at_
  | storagePortDown p at_ => exact execStoragePortDown_number s p at_
  | storagePortUp p at_ => exact execStoragePortUp_number s p at_
  | hostLinkUp gen width flit vfs => exact execHostLinkUp_number s gen width flit vfs
  | weltLinkRestored l => exact execWeltLinkRestored_number s l
  | pfcPauseReceive p prio pause at_ => exact execPfcPauseReceive_number s p prio pause at_
  | _ => exact absurd other.symm Bool.false_ne_true

end Sys2Proof.Machine
end

section
/-! The obligation of the tick number (spec/02_the_tick.md R48, R50, R53). -/

namespace Sys2Proof.Machine

/-- Settles O19: an edge counts once, and of the commands that the statement does not name none changes the number. -/
theorem tickNumberCountsOnceAtAnEdge : Obligations.TickNumberCountsOnceAtAnEdge := by
  refine ⟨fun s t at_ work room bad ext => execTickEdge_counts s, fun s t i answered => ?_⟩
  cases i with
  | tickEdge | beaconReceive | registerWrite | pairedWriteWord | usbWrite | mgmtWrite | vAonValid | vAonLoss | brownOut
  | thermalTrip | updActivate | updRevert | trialTimerExpire => trivial
  | _ => exact exec_number s rfl t answered

end Sys2Proof.Machine
end
